-- ==== Sys2Proof/Word.lean ====
section
/-! DEFINITION. The word types of the PLV5120 model and its sparse tables. -/

namespace Sys2Proof

/-- One byte (00 R7). -/
abbrev Byte := BitVec 8

/-- A 32-bit word: an engine word, half of a 64-bit register (24 R505). -/
abbrev Word := BitVec 32

/-- A sweep position: bits [63:16] are the step, bits [15:0] the fraction (02 R25). -/
abbrev Pos := BitVec 64

/-- A sparse table: (key, value) pairs, keys strictly rising, no entry at its key's default.
The operations stand in Machine/Bits.lean. -/
abbrev Tab (α : Type) := List (Nat × α)

end Sys2Proof
end

