-- ==== Sys2Proof/Config.lean ====
section
/-! DEFINITION. What one PLV5120 part fixes and the manual does not state: opaque constants without a body, so that no
proof sees a value (log entries 3 and 5). -/

namespace Sys2Proof

/-- GLB_ID STEPPING (24 R504), a part's own number. -/
opaque Config.stepping : BitVec 8

/-- CSQ_ROM_ID (17 R402), the ROM release. -/
opaque Config.romId : BitVec 32

/-- The 132-bit words of the control store ROM (17 R387): the manual gives no microcode. -/
opaque Config.rom : Nat → BitVec 132

/-- The ROM address at which the routine of an opcode begins: the manual gives no microcode. -/
opaque Config.romEntry : Nat → BitVec 15

/-- Whether a COND code from 10 to 31, "used by the ROM only" (17 R389), holds: the n-th such outcome. -/
opaque Config.romCond : Nat → BitVec 5 → Bool

/-- The SHA-384 hash of the patch key that the ROM holds (17 R400), a number that the manual does not give. -/
opaque Config.romKeyHash : BitVec 384

/-- The ROM address of the routine of a FAULT trap (17 R391): the manual gives no microcode. -/
opaque Config.trapEntry : BitVec 15

/-- The ROM address at which CTX7 begins its n-th routine (17 R384): the manual gives no microcode. -/
opaque Config.reactEntry : Nat → BitVec 15

/-- The initial value of the CRC-32 of 20 R439, which the manual does not state. -/
opaque Config.crc32Init : BitVec 32

/-- The final XOR of the CRC-32 of 20 R439, which the manual does not state. -/
opaque Config.crc32Final : BitVec 32

/-- Whether the CRC-32 of 20 R439 takes bits least significant first, which the manual does not state. -/
opaque Config.crc32Reflect : Bool

/-- Whether DCS_FREQ shows a frequency n / d that is no whole number of mHz rounded up, which the manual does not say (24
R510). -/
opaque Config.freqUp : Nat → Nat → Bool

/-- The duty cycle of synthesizer n as a part makes it, reduced below to 50 % ± 2 % (25, *Pin levels*). -/
opaque Config.dcsDuty : Nat → Nat

/-- The output impedance of the driver of channel n up to 40 mA, and above, as a part makes it; reduced to its bounds where it
is read (03 R49; 25 R514). -/
opaque Config.zOutLow : Nat → Nat
/-- The output impedance above 40 mA (03 R49). -/
opaque Config.zOutHigh : Nat → Nat

/-- The n-th value that the manual leaves open (an undefined or unstated result). -/
opaque Config.freeValue : Nat → BitVec 64

end Sys2Proof
end

