-- ==== Sys2Proof/Syntax.lean ====
section
/-! DEFINITION. The commands of the block: one constructor of `Instr` per row of spec/opcode_table.json, with the operands
that reach the device from outside (an index, a value, the bytes it reads from host memory, an instant). -/

namespace Sys2Proof

/-- The two paths to BAR0, each with its own high-half latch and timing-set view (15 R356, 24 R506). -/
inductive Path where | pcie | mnt
  deriving DecidableEq, Repr

/-- Which part of a 64-bit register an access covers (15 R356, R357). -/
inductive Half where | full | low | high
  deriving DecidableEq, Repr

/-- A write to one 64-bit register: the path, the half, and the value in the bits it covers (15 R357). -/
structure RegWrite where
  path : Path
  half : Half
  value : BitVec 64
  deriving DecidableEq, Repr

/-- The ring kinds (13 R290). -/
inductive RingKind where | sq | cq | eq | str
  deriving DecidableEq, Repr

/-- The three writable registers of a ring (13 R293). -/
inductive RingReg where | base | ctrl | shadow
  deriving DecidableEq, Repr

/-- BAR0 or BAR2 (13 R287). -/
inductive Bar where | bar0 | bar2
  deriving DecidableEq, Repr

/-- The crossings of 03 R53, in the order of the TYPE codes 0 to 3 of 07 R147. -/
inductive Cross where | volFall | volRise | vohFall | vohRise
  deriving DecidableEq, Repr

/-- The straps sampled at PWR_OK (23 R493). -/
structure Straps where
  keeper : Bool
  groupId : BitVec 5
  sweepSrc : BitVec 2
  deriving DecidableEq, Repr

/-- What training finds (21 R463): `none` for the rate when training fails. -/
structure Training where
  /-- 1 is 4,800, 2 is 5,600, 3 is 6,400 MT/s; 0 when training failed -/
  rate : BitVec 2
  ranks2 : Bool
  /-- 0 16 Gb, 1 24 Gb, 2 32 Gb -/
  density : BitVec 2
  /-- the channels that failed -/
  failed : BitVec 2
  deriving DecidableEq, Repr

/-- One MNT frame as clocked by the master (22 R481): CMD, ADDR, the data words of a write, its CRC, the clocks of the frame, and
the timing that READY depends on (R484). -/
structure MntFrame where
  cmd : Byte
  addr : BitVec 24
  words : List Word
  crc : Byte
  clocks : Nat
  /-- ticks from the last rise of MNT_CS_N to the fall that began the frame (R484) -/
  gap : Nat
  /-- the shortest period of MNT_SCK through the STATUS byte, in picoseconds (R484) -/
  sckPs : Nat
  deriving DecidableEq, Repr

/-- What a micro-trap does to a context (17 R391, R394). -/
inductive TrapOp where
  | fault (domain : BitVec 10)
  | urgent (slot : Nat)
  | abort
  | ret
  deriving DecidableEq, Repr

/-- One reading of a sensor at the end of its conversion (19 R427, R429): its code, and its open or short detector. -/
structure Reading where
  sensor : Fin 16
  code : Int
  tripped : Bool
  deriving DecidableEq, Repr

/-- What the scrubber finds in a line (21 R469): single-bit errors, and the 4-byte beats that are uncorrectable; and the errors
that the DRAM has taken elsewhere since the last line, by beat (address / 4), with two bits or one, which a later read meets. -/
structure ScrubFind where
  corrected : Nat
  badBeats : List Nat
  upsets : List (Nat × Bool)
  deriving DecidableEq, Repr

/-- The commands. A descriptor command names the slot `id` of a started descriptor and carries what the device reads from
host memory for it; an event command names the unit it happens to. -/
inductive Instr where
  -- descriptors (14 R320)
  | nop (id : Nat)
  | fence (id : Nat)
  | memCopy (id : Nat) (data : List Byte) (blocks : Nat)
  | memFill (id : Nat) (blocks : Nat)
  | stage (id : Nat) (data : List Byte)
  | check (id : Nat)
  | apply (id : Nat)
  | discard (id : Nat)
  | segLoad (id : Nat) (data : List Byte) (vectors : Nat)
  | burst (id : Nat)
  | burstCtlStop (id : Nat)
  | burstCtlJump (id : Nat)
  | siteMap (id : Nat) (data : List Byte) (channels : Nat)
  | pmuList (id : Nat) (items limits : List Byte)
  | timArmArm (id : Nat)
  | timArmDisarm (id : Nat)
  | stampStream (id : Nat)
  | acqArmArm (id : Nat) (mask : List Byte)
  | acqArmStop (id : Nat)
  | streamOpen (id : Nat)
  | streamClose (id : Nat)
  | awgSeq (id : Nat) (data : List Byte)
  | awgWrite (id : Nat) (data : List Byte) (granules : Nat)
  | awgCtlStart (id : Nat)
  | awgCtlStop (id : Nat)
  | awgCtlJump (id : Nat)
  | awgCtlTrigger (id : Nat)
  | dcsProfile (id : Nat) (data : List Byte)
  | dcsCtlStart (id : Nat)
  | dcsCtlStop (id : Nat)
  | engLoad (id : Nat) (data : List Byte) (words : Nat)
  | engRunStart (id : Nat) (bind : List Byte)
  | engRunStop (id : Nat)
  | daymark (id : Nat)
  | therm (id : Nat)
  | watch (id : Nat)
  | ledgerRead (id : Nat) (entries : Nat)
  | planLoad (id : Nat) (data : List Byte)
  | planClear (id : Nat)
  | auxXfer (id : Nat) (tx rx : List Byte)
  | loadHost (id : Nat) (data : List Byte) (entries : Nat)
  | loadFlash (id : Nat) (data : List Byte) (entries : Nat)
  | capture (id : Nat) (entries : List Byte) (count : Nat)
  | storeFlash (id : Nat)
  | clear (id : Nat) (entries : Nat)
  | flashPageTimeout (id : Nat)
  | groupApply (id : Nat)
  | groupDaymark (id : Nat)
  | groupAlign (id : Nat)
  | patchLoad (id : Nat) (data : List Byte)
  | patchActivation
  | patchActivationTimeout
  -- command sequencer (13 R294, R296; 17)
  | descriptorFetch (ring : Fin 256) (bytes : List Byte)
  | descriptorStart (id : Nat)
  | descriptorResume (id : Nat)
  | microwordIssue (ctx : Fin 8) (busDone busError : Bool) (busData : Word)
  | microTrap (ctx : Fin 8) (op : TrapOp)
  -- host link registers (13, 24)
  | sqProducerDoorbell (ring : Fin 256) (value : BitVec 64)
  | cqConsumerDoorbell (ring : Fin 256) (value : BitVec 64)
  | eqConsumerDoorbell (ring : Fin 64) (value : BitVec 64)
  | strConsumerDoorbell (ring : Fin 32) (value : BitVec 64)
  | sqAbortDoorbell (ring : Fin 256) (value : BitVec 64)
  | ringConfigWrite (kind : RingKind) (ring : Fin 256) (reg : RingReg) (w : RegWrite)
  | hifBar4CfgWrite (w : RegWrite)
  | msixVectorUnmask (vector : Fin 2048)
  | registerWrite (bar : Bar) (offset : BitVec 32) (size : Nat) (value : BitVec 64)
  | highHalfLatchRead (path : Path) (bar : Bar) (offset : BitVec 32) (size : Nat)
  | bar4Read (offset : BitVec 36) (len : Fin 4097)
  | bar4Write (offset : BitVec 36) (data : List Byte)
  | thmDemandWrite (w : RegWrite)
  | thmCfgWrite (w : RegWrite)
  | thmLimitWrite (n : Fin 16) (w : RegWrite)
  | fltCfgWrite (w : RegWrite)
  | fltAliveWrite (sector : Fin 8) (w : RegWrite)
  | ledCfgWrite (w : RegWrite)
  | ledRefvWrite (w : RegWrite)
  | clkXtalWrite (w : RegWrite)
  | refSelWrite (w : RegWrite)
  | grpEpochCtrlWrite (w : RegWrite)
  | seqTsViewWrite (sector : Fin 8) (w : RegWrite)
  | memCfgWrite (w : RegWrite)
  | auxCfgWrite (w : RegWrite)
  -- MNT port (22) and TAP (25)
  | mntNop (f : MntFrame)
  | mntRead (f : MntFrame)
  | mntWrite (f : MntFrame)
  | extest
  | idcode
  | samplePreload
  | clamp
  | highz
  | extestPulse
  | extestTrain
  | bypass (code : Byte)
  | testLogicReset
  -- power, resets, link (23, 13)
  | powerUpReset (low : Nat) (straps : Straps)
  | selftestDone (t : Training)
  | railInvalid (rail : Fin 11) (uv : Int)
  | perstAssert
  | perstRelease
  | hotReset
  | functionLevelReset
  | linkUp (rate : BitVec 4) (width : BitVec 4) (flit : Bool) (aer : Word)
  | linkDown
  | enterD3hot
  | returnToD0
  | readyAfterHostReset
  -- faults (18)
  | drvOc (ch : Fin 512) (na : Int) (since : Nat)
  | pinOv (ch : Fin 512) (uv : Int) (since : Nat)
  | pinUv (ch : Fin 512) (uv : Int) (since : Nat)
  | dacVerify (ch : Fin 512) (dac : Fin 6) (err : Int) (since : Nat)
  | lgOc (lg : Fin 64) (na : Int) (since : Nat)
  | peRail (die : Fin 4) (pos neg : Int) (since : Nat)
  | pmuLgOc (lg : Fin 64) (na since : Nat)
  | sectorPll (sector : Fin 8)
  | dieLink (die : Fin 4)
  | awgOverCompliance (n : Fin 16) (legN : Bool) (uv : Int) (since : Nat)
  | awgOpenLoad (n : Fin 16) (legN : Bool) (uv na : Int) (since : Nat)
  | awgPll (n : Fin 16) (since : Nat)
  | digPll (n : Fin 16)
  | dcsUnlock (n : Fin 8)
  | dcsRefLoss (n : Fin 8)
  | refStopped (since : Nat)
  | engFault (e : Fin 16) (cause : Fin 5) (mem : Fin 4) (addr : Fin 32768)
  | ctrlRail (permille since : Nat)
  | memPatternUe (sector : Fin 8) (addr : BitVec 37)
  | memChannel (m : Fin 2) (since : Nat)
  | quietPeriodEnd (domain : Fin 1024)
  | restorationResume (domain : Fin 1024)
  | recoveryWaiting (domain : Fin 1024)
  | restored (domain : Fin 1024)
  | alivePeriodBoundary (sector : Fin 8)
  | awgClrAsserted
  | awgClrReleased
  | gfltNEdge (asserted : Bool)
  | gfltDriveEnd
  -- apply, daymark, sweep (15, 02)
  | scheduledApply (set : Fin 16)
  | applyRecoveryCheck (set : Fin 16)
  | daymarkCapture
  | daymarkBankValid
  | sweepToothEdge (falling : Bool) (t : Nat)
  | sweepIndexEdge (falling : Bool) (t : Nat)
  | toothTimeout
  | posSync (pos : Pos) (rate : Word) (arrival : Nat)
  | holdover
  | sweepLost
  | posSyncDue
  -- group (16)
  | prepare (op : Byte) (set : Fin 16) (sweep : Bool) (pos : Pos)
  | applyFrame (op : Byte) (pos : Pos) (second : Bool)
  | commit (op : Byte)
  | cancel (op : Byte)
  | daymarkFrame (op : Byte) (bank : Fin 2) (pos : Pos)
  | fenceFrame (op : Byte) (visible : Bool)
  | ping (gid : BitVec 5) (t : Nat)
  | comp (gid : BitVec 5) (beacon line : BitVec 24)
  | tick (stamp : BitVec 64) (arrival : Nat)
  | epoch (offset : BitVec 64)
  | rdyNReleased
  | rdyNTimeout
  | keeperSendApply
  | voteSlot (g : BitVec 5) (asserted : Bool)
  | commitDecision
  | commitLost
  | groupApplyDone
  | sysEpoch (falling : Bool) (t : Nat)
  -- sector sequencers (05, 06)
  | vectorIssuePoint (sector : Fin 8)
  | seqNop (sector : Fin 8)
  | rpt (sector : Fin 8)
  | loopBegin (sector : Fin 8)
  | loopEnd (sector : Fin 8)
  | seqCall (sector : Fin 8)
  | seqRet (sector : Fin 8)
  | seqJmp (sector : Fin 8)
  | matchOpen (sector : Fin 8)
  | matchEnd (sector : Fin 8)
  | waitSweep (sector : Fin 8)
  | waitPositionReached (sector : Fin 8)
  | mark (sector : Fin 8)
  | stallSafe (sector : Fin 8)
  | halt (sector : Fin 8)
  | sequencerDrainDone (sector : Fin 8)
  | burstStart (sector : Fin 8)
  | refillDataArrival (sector : Fin 8)
  | compareResultArrival (sector : Fin 8) (period : Nat)
  | failRecordDrain (sector : Fin 8)
  | vectorPeriodStart (sector : Fin 8)
  -- channels and stampers (03, 04, 07)
  | driverEdge (ch : Fin 512)
  | compareStrobe (ch : Fin 512)
  | compareWindowClose (ch : Fin 512)
  | blankTimerExpiry (lg : Fin 64)
  | comparatorCrossing (ch : Fin 512) (x : Cross) (t : Nat) (code : BitVec 12)
  | stampAlignmentDone (ch : Fin 512)
  | stampMerge
  | stampBlockFlush (stream : Fin 16) (ch : Fin 512)
  | windowGeneratorStart (sector : Fin 8) (wg : Fin 4) (t : Nat)
  | winOpen (sector : Fin 8) (wg : Fin 4)
  | winClose (sector : Fin 8) (wg : Fin 4)
  -- parametric units (08)
  | pmuItemStart (lg : Fin 64)
  | pmuSettleBegin (lg : Fin 64)
  | pmuSamplingBegin (lg : Fin 64)
  | pmuSamplingEnd (lg : Fin 64) (sum : Int) (clamped overrange : Bool)
  | pmuRangeChangeDone (ch : Fin 512)
  | pmuScanResult (lg : Fin 64) (sum : Int) (clamped overrange : Bool)
  -- digitizers and trigger units (09)
  | digSample (n : Fin 16) (v : BitVec 16)
  | decSample (n : Fin 16) (v : BitVec 24)
  | acqStart (n : Fin 16)
  | acqPostDone (n : Fin 16)
  | flowBlockDeliver (n : Fin 16) (dec : Bool)
  | tuDecision (u : Fin 16)
  | tuTimeout (u : Fin 16) (slot : Fin 4)
  | tuHoldoffEnd (u : Fin 16)
  | tbLineEdge (line : Fin 8) (asserted : Bool) (t : Nat)
  | tbPulseEnd (line : Fin 8)
  -- waveform sources (10) and synthesizers (11)
  | awgSequenceStart (n : Fin 16)
  | awgSegmentBoundary (n : Fin 16)
  | awgTrigger (n : Fin 16) (t : Nat)
  | awgWaitRelease (n : Fin 16)
  | awgRefillArrival (n : Fin 16) (badBeats : List (Fin 32))
  | awgUnderrun (n : Fin 16)
  | awgMarkEnd (n : Fin 16)
  | ddsPhaseReset (n : Fin 16)
  | dcsRampStart (n : Fin 8)
  | dcsRampStep (n : Fin 8)
  | dcsDwellEnd (n : Fin 8)
  | dcsLockDeclared (n : Fin 8)
  | dcsRetuneTimeout (n : Fin 8)
  | dcsRefGood (n : Fin 8)
  -- measurement engine instructions (12): engine e executes the word at its PC
  | engNop (e : Fin 16)
  | mov (e : Fin 16)
  | movi (e : Fin 16)
  | ld (e : Fin 16)
  | st (e : Fin 16)
  | add (e : Fin 16)
  | sub (e : Fin 16)
  | addi (e : Fin 16)
  | and (e : Fin 16)
  | or (e : Fin 16)
  | xor (e : Fin 16)
  | shl (e : Fin 16)
  | asr (e : Fin 16)
  | lsr (e : Fin 16)
  | cmp (e : Fin 16)
  | cmpi (e : Fin 16)
  | macp (e : Fin 16)
  | macs (e : Fin 16)
  | clrp (e : Fin 16)
  | clrs (e : Fin 16)
  | stpa (e : Fin 16)
  | stsa (e : Fin 16)
  | sqrt (e : Fin 16)
  | engIn (e : Fin 16)
  | engOut (e : Fin 16)
  | engJmp (e : Fin 16)
  | engCall (e : Fin 16)
  | engRet (e : Fin 16)
  | dup (e : Fin 16)
  | loop (e : Fin 16)
  | lim (e : Fin 16)
  | engHalt (e : Fin 16)
  -- stream rings, thermal, calibration, memory, link events
  | strBlockDeliver (ring : Fin 32)
  | thermalConversionStart (die : Fin 5)
  | thermalConversionEnd (die : Fin 5) (readings : List Reading)
  | conversionTimeout (die : Fin 5)
  | forcedDemand (die : Fin 5)
  | forcedCheck (group : Fin 64)
  | selfCheckDone (group : Fin 64) (found : List (Nat × Int))
  | marginEvaluation
  | xtalAgeUpdate (steer : Int)
  | ageRateUpdate
  | refInLocked (means : List Int)
  | refInLoss (lastEdge : Nat) (ppb : Int)
  | refInAccepted (ppb : Int)
  | patrolScrub (f : ScrubFind)
  | dieLinkReplay (die : Fin 4)
  | gclkValid (phase : Fin 8)
  | beaconCrcFailure
  | alignReply (t : Nat)
  | alignKeeperPulse (t : Nat)
  | alignEcho (t : Nat)
  | alignAbsent
  | sweepHeld
  | sweepHoldRelease
  | powerUp1msPoint (pins : List (Nat × Int))
  | factoryCalibrationLoaded (otp : List (Nat × List Byte × List Byte))
  | awgWaitingJump (n : Fin 16)
  | engBlockFlush (e : Fin 16) (port : Fin 4)
  | edgeBlankingEnd (ch : Fin 512)
  deriving DecidableEq, Repr

end Sys2Proof
end

