-- ==== Sys2Proof/Machine/Bits.lean ====
section
/-! DEFINITION. Helpers over numbers, bytes and sparse tables: bit fields, sign extension, byte order (00 R7), rounding
with ties to even, saturation, wrapping, and the table operations that keep the canonical form. -/

namespace Sys2Proof

/-! ### Sparse tables -/

/-- The value at a key; `d` where the table lists none. -/
def Tab.get {α : Type} (d : α) : Tab α → Nat → α
  | [], _ => d
  | (a, v) :: rest, k => if a = k then v else Tab.get d rest k

/-- The table without an entry at `k`. -/
def Tab.erase {α : Type} : Tab α → Nat → Tab α
  | [], _ => []
  | (a, v) :: rest, k => if a = k then Tab.erase rest k else (a, v) :: Tab.erase rest k

/-- The table with `v` listed at `k`, in key order. -/
def Tab.insert {α : Type} : Tab α → Nat → α → Tab α
  | [], k, v => [(k, v)]
  | (a, w) :: rest, k, v =>
    if k < a then (k, v) :: (a, w) :: rest
    else if a = k then (k, v) :: rest
    else (a, w) :: Tab.insert rest k v

/-- Write `v` at `k`: an entry at the default `d` is not listed. -/
def Tab.set {α : Type} [DecidableEq α] (d : α) (t : Tab α) (k : Nat) (v : α) : Tab α :=
  if v = d then Tab.erase t k else Tab.insert t k v

/-- Apply `f` to the value at `k`. -/
def Tab.upd {α : Type} [DecidableEq α] (d : α) (t : Tab α) (k : Nat) (f : α → α) : Tab α :=
  Tab.set d t k (f (Tab.get d t k))

/-- The canonical form: keys strictly rising and no entry at the default. -/
def Tab.wf {α : Type} [DecidableEq α] (d : α) : Tab α → Bool
  | [] => true
  | [(_, v)] => decide (v ≠ d)
  | (a, v) :: (b, w) :: rest => decide (v ≠ d) && decide (a < b) && Tab.wf d ((b, w) :: rest)

/-- The canonical form of a table whose default depends on the key. -/
def Tab.wfBy {α : Type} [DecidableEq α] (d : Nat → α) : Tab α → Bool
  | [] => true
  | [(a, v)] => decide (v ≠ d a)
  | (a, v) :: (b, w) :: rest => decide (v ≠ d a) && decide (a < b) && Tab.wfBy d ((b, w) :: rest)

/-! ### Numbers -/

/-- Saturate at the largest value of `w` bits. -/
def satTo (w n : Nat) : Nat := min n (2 ^ w - 1)

/-- Count one up and saturate at `w` bits. -/
def incSat (w n : Nat) : Nat := satTo w (n + 1)

/-- Count up and wrap at `w` bits. -/
def addWrap (w n k : Nat) : Nat := (n + k) % 2 ^ w

/-- `n / d` rounded to the nearest whole number, ties to even (03 R46). -/
def roundDiv (n : Int) (d : Nat) : Int :=
  let q := n / (d : Int)
  let r := n % (d : Int)
  if 2 * r < d then q
  else if 2 * r > d then q + 1
  else if q % 2 = 0 then q else q + 1

/-- `n / d` rounded toward zero (04 R73). -/
def truncDiv (n : Int) (d : Nat) : Int := if n ≥ 0 then n / d else -((-n) / d)

/-- Bits [hi:lo] of a number. -/
def bits (n hi lo : Nat) : Nat := (n / 2 ^ lo) % 2 ^ (hi - lo + 1)

/-- Bit `i` of a number. -/
def bitOf (n i : Nat) : Bool := (n / 2 ^ i) % 2 = 1

/-- A number read as `w`-bit two's complement. -/
def toSigned (w n : Nat) : Int :=
  let m := n % 2 ^ w
  if m < 2 ^ (w - 1) then (m : Int) else (m : Int) - 2 ^ w

/-- An integer as `w`-bit two's complement. -/
def fromSigned (w : Nat) (i : Int) : Nat := (i % (2 ^ w : Int)).toNat

/-- A Boolean as a bit. -/
def b2n (b : Bool) : Nat := if b then 1 else 0

/-- How many of bits 0 to `n` - 1 are set. -/
def popcount : Nat → Nat → Nat
  | 0, _ => 0
  | n + 1, m => popcount n m + b2n (bitOf m n)

/-- The lowest set bit below `n`, or `n`. -/
def lowestBit (n m : Nat) : Nat := ((List.range n).find? (bitOf m)).getD n

/-- The indices below `n` whose bit is set, lowest first. -/
def maskList (n m : Nat) : List Nat := (List.range n).filter (bitOf m)

/-- The integer square root, by binary digits from bit `k` - 1 down. -/
def isqrtGo : Nat → Nat → Nat → Nat
  | 0, _, r => r
  | k + 1, x, r => if (r + 2 ^ k) * (r + 2 ^ k) ≤ x then isqrtGo k x (r + 2 ^ k) else isqrtGo k x r

/-- floor(√x) for x below 2^160. -/
def isqrt (x : Nat) : Nat := isqrtGo 80 x 0

/-- √x to the nearest whole number. -/
def rsqrt (x : Nat) : Nat :=
  let r := isqrt x
  if x > r * r + r then r + 1 else r

/-! ### Bytes (00 R7: byte 0 is the least significant) -/

/-- The number that little-endian bytes hold. -/
def leNat : List Byte → Nat
  | [] => 0
  | b :: rest => b.toNat + 256 * leNat rest

/-- `n` as `k` little-endian bytes. -/
def leBytes : Nat → Nat → List Byte
  | 0, _ => []
  | k + 1, n => BitVec.ofNat 8 n :: leBytes k (n / 256)

/-- The unsigned field of `k` bytes at byte `i`; bytes past the end read 0. -/
def field (bs : List Byte) (i k : Nat) : Nat := leNat ((bs.drop i).take k)

/-- The signed field of `k` bytes at byte `i`. -/
def fieldS (bs : List Byte) (i k : Nat) : Int := toSigned (8 * k) (field bs i k)

/-- Whether bytes `i` to `j` - 1 are all 0. -/
def zeroBytes (bs : List Byte) (i j : Nat) : Bool := ((bs.drop i).take (j - i)).all (· == 0)

/-- `n` bytes of 0. -/
def zeros (n : Nat) : List Byte := List.replicate n 0

/-- The bytes cut into pieces of `k`. -/
def chunks (k : Nat) : Nat → List Byte → List (List Byte)
  | 0, _ => []
  | n + 1, bs => bs.take k :: chunks k n (bs.drop k)

/-- One byte of the CRC-8 of 22 R487 (polynomial 0x07), bit by bit. -/
def crc8Bits : Nat → Nat → Nat
  | 0, c => c
  | n + 1, c => crc8Bits n (if c < 128 then 2 * c else (2 * c - 256) ^^^ 7)

/-- CRC-8, initial value 0, no reflection, no final XOR (22 R487). -/
def crc8 (bs : List Byte) : Nat := bs.foldl (fun c b => crc8Bits 8 (c ^^^ b.toNat)) 0

/-- One bit-serial byte of the CRC-32 of 20 R439 (polynomial 0x04C1_1DB7), most significant bit first. -/
def crc32Bits : Nat → Nat → Nat
  | 0, c => c
  | n + 1, c => crc32Bits n (if c < 2 ^ 31 then 2 * c else (2 * c - 2 ^ 32) ^^^ 0x04C11DB7)

/-- The low `n` bits of a number in reverse order. -/
def revBits : Nat → Nat → Nat
  | 0, _ => 0
  | n + 1, m => b2n (bitOf m 0) * 2 ^ n + revBits n (m / 2)

/-- CRC-32 over bytes (20 R439). The manual gives the polynomial; the initial value, the bit order and the final XOR are
the part's own (log entry 6). -/
def crc32 (bs : List Byte) : Nat :=
  let byteIn (b : Byte) : Nat := if Config.crc32Reflect then revBits 8 b.toNat else b.toNat
  let c := bs.foldl (fun c b => crc32Bits 8 (c ^^^ (byteIn b * 2 ^ 24))) Config.crc32Init.toNat
  (if Config.crc32Reflect then revBits 32 c else c) ^^^ Config.crc32Final.toNat

/-- Replace element `i` of a list. -/
def setNth {α : Type} : List α → Nat → α → List α
  | [], _, _ => []
  | _ :: rest, 0, v => v :: rest
  | a :: rest, n + 1, v => a :: setNth rest n v

/-- Fields of (width, value) side by side, lowest first. -/
def pack : List (Nat × Nat) → Nat
  | [] => 0
  | (w, v) :: rest => v % 2 ^ w + 2 ^ w * pack rest

end Sys2Proof
end

