-- ==== Sys2Proof/Machine/Crypto.lean ====
section
/-! DEFINITION. The test of a patch image's key and signature: SHA-384 (FIPS 180-4) and ECDSA over P-384 (FIPS 186-5), as 17 R398
and R400 name them. -/

namespace Sys2Proof.Machine

open Sys2Proof

/-! ### SHA-384 (FIPS 180-4) -/

/-- The first 40 round constants. -/
def shaKeysLow : List Nat :=
  [0x428A2F98D728AE22, 0x7137449123EF65CD, 0xB5C0FBCFEC4D3B2F, 0xE9B5DBA58189DBBC, 0x3956C25BF348B538,
   0x59F111F1B605D019, 0x923F82A4AF194F9B, 0xAB1C5ED5DA6D8118, 0xD807AA98A3030242, 0x12835B0145706FBE,
   0x243185BE4EE4B28C, 0x550C7DC3D5FFB4E2, 0x72BE5D74F27B896F, 0x80DEB1FE3B1696B1, 0x9BDC06A725C71235,
   0xC19BF174CF692694, 0xE49B69C19EF14AD2, 0xEFBE4786384F25E3, 0x0FC19DC68B8CD5B5, 0x240CA1CC77AC9C65,
   0x2DE92C6F592B0275, 0x4A7484AA6EA6E483, 0x5CB0A9DCBD41FBD4, 0x76F988DA831153B5, 0x983E5152EE66DFAB,
   0xA831C66D2DB43210, 0xB00327C898FB213F, 0xBF597FC7BEEF0EE4, 0xC6E00BF33DA88FC2, 0xD5A79147930AA725,
   0x06CA6351E003826F, 0x142929670A0E6E70, 0x27B70A8546D22FFC, 0x2E1B21385C26C926, 0x4D2C6DFC5AC42AED,
   0x53380D139D95B3DF, 0x650A73548BAF63DE, 0x766A0ABB3C77B2A8, 0x81C2C92E47EDAEE6, 0x92722C851482353B]

/-- The last 40 round constants. -/
def shaKeysHigh : List Nat :=
  [0xA2BFE8A14CF10364, 0xA81A664BBC423001, 0xC24B8B70D0F89791, 0xC76C51A30654BE30, 0xD192E819D6EF5218,
   0xD69906245565A910, 0xF40E35855771202A, 0x106AA07032BBD1B8, 0x19A4C116B8D2D0C8, 0x1E376C085141AB53,
   0x2748774CDF8EEB99, 0x34B0BCB5E19B48A8, 0x391C0CB3C5C95A63, 0x4ED8AA4AE3418ACB, 0x5B9CCA4F7763E373,
   0x682E6FF3D6B2B8A3, 0x748F82EE5DEFB2FC, 0x78A5636F43172F60, 0x84C87814A1F0AB72, 0x8CC702081A6439EC,
   0x90BEFFFA23631E28, 0xA4506CEBDE82BDE9, 0xBEF9A3F7B2C67915, 0xC67178F2E372532B, 0xCA273ECEEA26619C,
   0xD186B8C721C0C207, 0xEADA7DD6CDE0EB1E, 0xF57D4F7FEE6ED178, 0x06F067AA72176FBA, 0x0A637DC5A2C898A6,
   0x113F9804BEF90DAE, 0x1B710B35131C471B, 0x28DB77F523047D84, 0x32CAAB7B40C72493, 0x3C9EBE0A15C9BEBC,
   0x431D67C49C100D4C, 0x4CC5D4BECB3E42B6, 0x597F299CFC657E2A, 0x5FCB6FAB3AD6FAEC, 0x6C44198C4A475817]

/-- The initial hash value. -/
def shaInit : List Nat :=
  [0xCBBB9D5DC1059ED8, 0x629A292A367CD507, 0x9159015A3070DD17, 0x152FECD8F70E5939, 0x67332667FFC00B31,
   0x8EB44A8768581511, 0xDB0C2E0D64F98FA7, 0x47B5481DBEFA4FA4]

/-- A word of 64 bits rotated right by `n`. -/
def rotr64 (x n : Nat) : Nat := x / 2 ^ n + x % 2 ^ n * 2 ^ (64 - n)

/-- The number that bytes spell, the first the most significant. -/
def beNat (bs : List Byte) : Nat := bs.foldl (fun a b => 256 * a + b.toNat) 0

/-- `n` bytes of a number, the most significant first. -/
def beBytes (n x : Nat) : List Byte := (leBytes n x).reverse

/-- The message schedule, latest word first, with `n` more words. -/
def shaSchedule : Nat → List Nat → List Nat
  | 0, ws => ws
  | n + 1, ws =>
    let w (i : Nat) : Nat := ws.getD i 0
    let s0 := rotr64 (w 14) 1 ^^^ rotr64 (w 14) 8 ^^^ (w 14 / 2 ^ 7)
    let s1 := rotr64 (w 1) 19 ^^^ rotr64 (w 1) 61 ^^^ (w 1 / 2 ^ 6)
    shaSchedule n ((w 15 + s0 + w 6 + s1) % 2 ^ 64 :: ws)

/-- One round with constant plus schedule word `kw` on the working variables a to h. -/
def shaRound (v : List Nat) (kw : Nat) : List Nat := match v with
  | [a, b, c, d, e, f, g, h] =>
    let t1 := h + (rotr64 e 14 ^^^ rotr64 e 18 ^^^ rotr64 e 41) + ((e &&& f) ^^^ ((2 ^ 64 - 1 - e) &&& g)) + kw
    let t2 := (rotr64 a 28 ^^^ rotr64 a 34 ^^^ rotr64 a 39) + ((a &&& b) ^^^ (a &&& c) ^^^ (b &&& c))
    [(t1 + t2) % 2 ^ 64, a, b, c, (d + t1) % 2 ^ 64, e, f, g]
  | v => v

/-- One block of 128 bytes enters the hash value. -/
def shaBlock (h : List Nat) (block : List Byte) : List Nat :=
  let ws := (shaSchedule 64 ((chunks 8 16 block).map beNat).reverse).reverse
  let v := ((shaKeysLow ++ shaKeysHigh).zip ws).foldl (fun v p => shaRound v (p.1 + p.2)) h
  (h.zip v).map fun p => (p.1 + p.2) % 2 ^ 64

/-- SHA-384 of a message, as a number of 384 bits. -/
def sha384 (m : List Byte) : Nat :=
  let m := m ++ [0x80] ++ zeros ((239 - m.length % 128) % 128) ++ beBytes 16 (8 * m.length)
  (((chunks 128 (m.length / 128) m).foldl shaBlock shaInit).take 6).foldl (fun a w => 2 ^ 64 * a + w) 0

/-! ### The curve P-384 and ECDSA (FIPS 186-5) -/

/-- The prime of the field. -/
def p384 : Nat := 2 ^ 384 - 2 ^ 128 - 2 ^ 96 + 2 ^ 32 - 1

/-- The coefficient b of the curve y² = x³ − 3x + b. -/
def b384 : Nat :=
  0xB3312FA7E23EE7E4988E056BE3F82D19181D9C6EFE8141120314088F5013875AC656398D8A2ED19D2A85C8EDD3EC2AEF

/-- The order of the base point. -/
def n384 : Nat :=
  0xFFFFFFFFFFFFFFFFFFFFFFFFFFFFFFFFFFFFFFFFFFFFFFFFC7634D81F4372DDF581A0DB248B0A77AECEC196ACCC52973

/-- The base point. -/
def g384 : Nat × Nat :=
  (0xAA87CA22BE8B05378EB1C71EF320AD746E1D3B628BA79B9859F741E082542A385502F25DBF55296C3A545E3872760AB7,
   0x3617DE4A96262C6F5D9E98BF9292DC29F8F41DBD289A147CE9DA3113B5F0B8C00A60B1CE1D7E819D7A431D7C90EA0E5F)

/-- a to the power e modulo m, for an exponent of up to `k` bits. -/
def powMod : Nat → Nat → Nat → Nat → Nat
  | 0, _, _, _ => 1
  | k + 1, m, a, e =>
    let r := powMod k m (a * a % m) (e / 2)
    if e % 2 == 1 then a * r % m else r

/-- The inverse modulo a prime below 2^384. -/
def invMod (m a : Nat) : Nat := powMod 384 m (a % m) (m - 2)

/-- a − b modulo the prime of the field. -/
def sub384 (a b : Nat) : Nat := (a + p384 - b % p384) % p384

/-- A point of the curve, or none for the point at infinity: the sum of two. -/
def ecAdd (a b : Option (Nat × Nat)) : Option (Nat × Nat) := match a, b with
  | none, b => b
  | a, none => a
  | some (x, y), some (u, v) =>
    if x == u && (y + v) % p384 == 0 then none
    else
      let l := if x == u then sub384 (3 * x * x) 3 * invMod p384 (2 * y) % p384
        else sub384 v y * invMod p384 (sub384 u x) % p384
      let z := sub384 (l * l) (x + u)
      some (z, sub384 (l * sub384 x z) y)

/-- A multiple of a point by a factor of up to `k` bits. -/
def ecMul : Nat → Nat → Option (Nat × Nat) → Option (Nat × Nat)
  | 0, _, _ => none
  | k + 1, e, a =>
    let r := ecMul k (e / 2) (ecAdd a a)
    if e % 2 == 1 then ecAdd a r else r

/-- An uncompressed point of 97 bytes lies on the curve. -/
def ecPoint (key : List Byte) : Option (Nat × Nat) :=
  let x := beNat ((key.drop 1).take 48)
  let y := beNat ((key.drop 49).take 48)
  if key.headD 0 == 4 && x < p384 && y < p384 && y * y % p384 == (x * x * x + (p384 - 3) * x + b384) % p384 then some (x, y)
  else none

/-- The signature (r, s) of a message with hash `e` verifies under a public key. -/
def ecdsaOk (q : Nat × Nat) (e r s : Nat) : Bool :=
  let w := invMod n384 s
  0 < r && r < n384 && 0 < s && s < n384 &&
    match ecAdd (ecMul 384 (e * w % n384) (some g384)) (ecMul 384 (r * w % n384) (some q)) with
    | some (x, _) => x % n384 == r
    | none => false

/-- A patch image of W words carries the key whose hash the ROM holds, and a signature over the bytes before it that verifies (17
R398, R400). -/
def patchSigned (d : List Byte) (wc : Nat) : Bool :=
  let key := (d.drop (320 + 16 * wc)).take 97
  let at' := 432 + 16 * wc
  sha384 key == Config.romKeyHash.toNat && match ecPoint key with
    | some q => ecdsaOk q (sha384 (d.take at')) (beNat ((d.drop at').take 48)) (beNat ((d.drop (at' + 48)).take 48))
    | none => false

end Sys2Proof.Machine
end

