-- ==== Sys2Proof/Machine/State.lean ====
section
/-! DEFINITION. The state of the PLV5120 block as plain data, unit by unit, and `State.reset`: the state right after a
power-up reset (23 R494 step 1). A default beside a field is its reset value. Every unit table (channels, sectors, ...) is
a `Tab` over the unit's reset value. -/

namespace Sys2Proof.Machine

open Sys2Proof

/-! ### Sweep axis (02) and the scheduler -/

/-- SOURCE codes of 02 R28. -/
inductive SweepSource where | time | group | angle
  deriving DecidableEq, Repr

/-- STATE codes of SWEEP_STATUS (02 R43). -/
inductive SweepState where | running | holdover | noSync | lost | held
  deriving DecidableEq, Repr

/-- The ANGLE parameters in force (02 R29): those of the image as of the last tooth edge (R31). -/
structure AnglePars where
  slots : Nat := 60
  missing : Nat := 2
  /-- 0 GAP, 1 INDEX, 2 GAP_INDEX -/
  mode : Nat := 0
  revs : Nat := 1
  thresh : Nat := 32
  toothEdge : Nat := 0
  indexEdge : Nat := 0
  /-- femtoseconds -/
  timeout : Int := 1000000000000000
  predict : Nat := 0
  origin : Int := 0
  deriving DecidableEq, Repr

/-- The sweep (02 R25 to R38, R43). -/
structure Sweep where
  /-- SWEEP_POS (R43) -/
  pos : Pos := 0
  source : SweepSource := .time
  st : SweepState := .running
  /-- the rate in force, 2^-8 fraction units per tick (R32, R33, R38; 16 R369) -/
  rate : Nat := 10485760
  /-- position fraction below one unit, 2^-8 units -/
  acc : Nat := 0
  /-- the instant of the last jump or start of the sweep, 2^-16 ticks of `now`: a position in front of it was passed then, no
  earlier (R27, R40) -/
  jumpAt : Nat := 0
  /-- RESYNC_COUNT (R43) -/
  resync : Nat := 0
  /-- CYCLE_ORIGIN (R43) -/
  origin : Pos := 0
  /-- TOOTH_INTERVAL LAST, ticks (R43) -/
  lastTicks : Nat := 0
  /-- TOOTH_INTERVAL TEETH (R43) -/
  teeth : Nat := 0
  /-- the beacon or epoch position a held sweep waits for (R33, 16 R381) -/
  holdFor : Option Pos := none
  /-- GROUP: the beacon position by its own count while the sweep holds (R33) -/
  beacon : Pos := 0
  /-- GROUP: `now` at the last valid frame, and at entry to HOLDOVER (R34) -/
  lastFrame : Nat := 0
  holdoverAt : Nat := 0
  /-- GROUP: the next valid frame gives the position, even a lower one (R28, R31) -/
  takeNext : Bool := false
  /-- ANGLE: the parameters in force (R31) -/
  ang : AnglePars := {}
  /-- ANGLE: synchronised (R36) -/
  synced : Bool := false
  /-- ANGLE: the next tooth's position, which the sweep never reaches by itself (R38) -/
  limit : Option Pos := none
  /-- ANGLE: stamps of the last accepted tooth and index edges (R36) -/
  lastTooth : Option Nat := none
  lastIndex : Option Nat := none
  /-- ANGLE: the last tooth interval and the one before it, in stamp units, with the pitches each spanned (R38) -/
  lastIv : Option (Nat × Nat) := none
  prevIv : Option (Nat × Nat) := none
  /-- ANGLE: teeth since the last gap or index edge, `none` before the first (R36) -/
  sinceMark : Option Nat := none
  /-- ANGLE: slot and wheel revolution of the last tooth (R35) -/
  slot : Nat := 0
  rev : Nat := 0
  /-- ANGLE: the number of the revolution that the last gap ended, where an index edge has told it (R36 GAP_INDEX) -/
  endedRev : Option Nat := none
  /-- ANGLE: an index edge arrived since the last tooth; since the last gap; whole revolutions in a row without one (R36) -/
  indexNow : Bool := false
  indexInRev : Bool := false
  revsNoIndex : Nat := 0
  deriving DecidableEq, Repr

/-- What a pending scheduled action does (02 R39). -/
inductive ActKind where
  | apply (set : Nat)
  | daymark
  | groupDaymark (bank : Nat)
  | burst (id : Nat)
  | awg (n : Nat)
  | dcs (n : Nat)
  | window (sector wg : Nat)
  | acq (n : Nat)
  deriving DecidableEq, Repr

/-- A pending scheduled action (02 R39 to R42), in order of admission in the list. -/
structure Action where
  kind : ActKind
  /-- the slot of its descriptor; for a group action on a worker, none -/
  slot : Option Nat
  pos : Pos
  /-- admitted under RUN_LATE after its lead (R39) -/
  late : Bool := false
  /-- `now` at which a start admitted late acts: one lead after its admission (R39) -/
  startAt : Option Nat := none
  /-- 02 R37: RUN_LATE, so a resynchronisation jump starts it instead of refusing it -/
  runLate : Bool := false
  /-- the recovery check of R40 has passed -/
  checked : Bool := false
  /-- `now` at its admission, and its place among those admitted in one cycle: class, ring, TAG (R41) -/
  at' : Nat := 0
  key : Nat := 0
  deriving DecidableEq, Repr

/-! ### Command sequencer and descriptors (13, 14, 17) -/

/-- What a parked routine waits for (17 R385). -/
inductive Wait where
  /-- the ending of the work it started; the ending completes it -/
  | ending
  /-- a full scheduler (02 R42) -/
  | scheduler
  /-- named sectors not IDLE (06 R109) -/
  | sectors
  /-- a group operation in progress (16 R375) -/
  | group
  /-- the AUX port (22 R478) -/
  | aux
  /-- fresh temperature readings (19 R431) -/
  | fresh
  /-- covered descriptors of a fence (13 R299) -/
  | fence
  /-- what a PARK microword waits for, which the microword does not say (17 R390) -/
  | micro
  deriving DecidableEq, Repr

/-- The life of a fetched descriptor (13 R296). -/
inductive SlotSt where
  | waiting
  | running (ctx : Nat)
  | parked (w : Wait)
  /-- its routine has ended by a DONE microword without a completion (17 R390) -/
  | ended
  deriving DecidableEq, Repr

/-- The completion that the ending of a parked routine's work has decided, and that waits for a context (17 R385). -/
structure Over where
  status : Nat
  detail : Nat
  sweep : Pos
  late : Bool
  deriving DecidableEq, Repr

/-- A fetched and uncompleted descriptor (13 R294). Its number in the table is its order of fetch. -/
structure Slot where
  ring : Nat
  bytes : List Byte
  st : SlotSt := .waiting
  /-- items complete (17 R395) -/
  progress : Nat := 0
  /-- what its routine has read and holds: the words of a SEG_LOAD so far, the entries of a SITE_MAP, the image of a CAL_USER
  load, the items of an ENG_LOAD -/
  held : List Byte := []
  /-- epochs of sectors 0 to 7 at start or resume (17 R394) -/
  epochs : List Nat := []
  /-- its place in its ring: descriptors fetched from the ring before it -/
  seq : Nat := 0
  /-- its place in the order of starts (17 R386) -/
  started : Nat := 0
  /-- `now` at which its routine got its context (13 R302) -/
  ranAt : Nat := 0
  /-- a fence covers, of each listed ring, the descriptors before a place (13 R299); how many were uncompleted -/
  bounds : List (Nat × Nat) := []
  covered : Nat := 0
  /-- MX and the micro-PC saved by a park (17 R385) -/
  mx : List Word := []
  pc : BitVec 15 := 0
  /-- a host abort has reached it (13 R301, 17 R392) -/
  aborted : Bool := false
  /-- a junction range demand has been met (19 R431) -/
  fresh : Bool := false
  /-- the tests before its first item have passed (19 R436; 20 R445) -/
  tested : Bool := false
  /-- its work has ended, and its routine waits for a context to complete it (17 R385) -/
  outcome : Option Over := none
  /-- a trap returned with a compared epoch changed: no further guarded write (17 R395) -/
  shaken : Bool := false
  deriving DecidableEq, Repr

/-- A trap frame (17 R392). -/
structure TrapFrame where
  slot : Option Nat
  pc : BitVec 15
  stack : List (BitVec 15)
  lc : List (BitVec 24)
  mx : List Word
  zncv : BitVec 4
  progress : BitVec 32
  epochs : List Nat
  aborted : Bool := false
  /-- the return makes the epoch test (17 R394, R395) -/
  test : Bool := false
  /-- the routine stood at a WAIT, whose read toward the domain a FAULT trap cancels (17 R391) -/
  waits : Bool := false
  cancels : Bool := false
  deriving DecidableEq, Repr

/-- One hardware context (17 R384, R389). -/
structure Ctx where
  busy : Bool := false
  slot : Option Nat := none
  pc : BitVec 15 := 0
  stack : List (BitVec 15) := []
  lc : List (BitVec 24) := List.replicate 4 0
  mx : List Word := List.replicate 16 0
  z : Bool := false
  n : Bool := false
  c : Bool := false
  v : Bool := false
  /-- the last word issued had ATOMIC set (17 R391) -/
  atomic : Bool := false
  /-- it stands at a WAIT whose COND failed: it is not ready (R384, R390) -/
  waits : Bool := false
  /-- the read that it waits on has been cancelled by a FAULT trap (R391) -/
  cancelled : Bool := false
  frames : List TrapFrame := []
  /-- FAULT traps still to be taken: the routine, the domain, and the epochs before the containment (R391, R394) -/
  due : List (Nat × Nat × List Nat) := []
  deriving DecidableEq, Repr

/-- CSQ_PATCH STATE (17 R402). -/
inductive PatchSt where | none | loaded | active | dropped
  deriving DecidableEq, Repr

/-- One match entry (17 R399). -/
structure MatchReg where
  rom : Nat
  patch : Nat
  len : Nat
  deriving DecidableEq, Repr

/-- One patch bank (17 R388): its words with parity, its match set, its level. -/
structure PatchBank where
  words : List (BitVec 132) := []
  matchSet : List MatchReg := []
  level : Nat := 0
  deriving DecidableEq, Repr

/-- The command sequencer (17). -/
structure Csq where
  slots : Tab (Option Slot) := []
  /-- the number the next fetched descriptor takes; descriptors started so far -/
  nextSlot : Nat := 0
  starts : Nat := 0
  ctxs : Tab Ctx := []
  /-- the context of CTX0 to CTX6 that issued last, and whether CTX7 has issued since (R384) -/
  turn : Nat := 6
  turn7 : Bool := false
  active : PatchBank := {}
  inactive : PatchBank := {}
  /-- CSQ_PATCH STATE (R402); LOADED also while a load awaits activation over an active one -/
  patch : PatchSt := .none
  /-- the PATCH_LOAD awaiting activation, and `now` at its load (R401) -/
  awaiting : Option (Nat × Nat) := none
  machineChecks : Nat := 0
  /-- the address of the last machine check, if it lay in patch RAM (R397) -/
  patchFailed : Option Nat := none
  /-- the restoration that follows a machine check clears every context (R397) -/
  checkOwed : Bool := false
  /-- sector epochs (R393) -/
  epochs : Tab Nat := []
  /-- unit writes and posts of microwords, in the order of issue: BUS_OP, address, data (R389) -/
  posts : List (Nat × Nat × Word) := []
  deriving DecidableEq, Repr

/-! ### Host link (13) -/

/-- One ring (13 R290 to R293). -/
structure Ring where
  enable : Bool := false
  log2 : Nat := 4
  cls : Nat := 2
  cq : Nat := 0
  vector : Nat := 0
  irqAll : Bool := false
  base : BitVec 64 := 0
  shadow : BitVec 64 := 0
  prod : Nat := 0
  cons : Nat := 0
  /-- SQ: descriptors fetched up to here; descriptors ever fetched -/
  fetched : Nat := 0
  total : Nat := 0
  /-- SQ: producer doorbells whose descriptors are not all fetched: the descriptors ever submitted after it, and for every
  other ring those submitted before it and the uncompleted among them (R299) -/
  doors : List (Nat × List (Nat × Nat × Nat)) := []
  /-- CQ: slots reserved (R294); EQ: events lost (R306) -/
  count : Nat := 0
  /-- EQ: events lost since the last overflow entry (R306) -/
  lost : Nat := 0
  /-- SQ abort: the place in the ring up to which it reaches, and how many it has ended (R301) -/
  abortTo : Option Nat := none
  aborted : Nat := 0
  /-- STR: bound to an open stream (R309); blocks in staging; bytes delivered since SERVICE (15 R361) -/
  inUse : Bool := false
  staged : List (List Byte × Bool) := []
  /-- STR: whole blocks of a stream that ends, which wait at their source for room in staging (R310) -/
  source : List (List Byte × Bool) := []
  bytes : Nat := 0
  /-- STR: the stream closes; the slot its last block completes, with DETAIL (R310, 14 R334) -/
  closing : Option (Nat × Nat) := none
  deriving DecidableEq, Repr

/-- A completion entry (14 R317). -/
structure Completion where
  tag : Nat
  ring : Nat
  status : Nat
  late : Bool
  detail : Nat
  sweep : Pos
  deriving DecidableEq, Repr

/-- An event entry (13 R304). -/
structure Event where
  source : Nat
  kind : Nat
  cause : Nat
  data : Nat
  sweep : Pos
  deriving DecidableEq, Repr

/-- What the device writes to the host, in order (13 R291, R303, R304, R309). -/
inductive HMsg where
  | completion (addr : Nat) (c : Completion)
  | event (addr : Nat) (e : Event)
  | shadow (addr : Nat) (index : Nat)
  /-- result data of a descriptor: its ring × 2^64 + its place in the ring -/
  | data (addr : Nat) (bytes : List Byte) (owner : Nat)
  | block (addr : Nat) (bytes : List Byte)
  /-- an MSI-X message: its vector, with the address and data of its table entry (R307) -/
  | msi (vector addr data : Nat)
  deriving DecidableEq, Repr

/-- The host link (13). -/
structure HostIf where
  /-- LINK_STATUS (R308): 0 is down -/
  rate : Nat := 0
  width : Nat := 0
  flit : Bool := false
  /-- the link is trained -/
  up : Bool := false
  /-- power state D3hot (R286) -/
  d3 : Bool := false
  /-- the size of the BAR4 window in force, and SIZE of HIF_BAR4_CFG, sampled at the release of PERST_N (R289) -/
  bar4Size : Nat := 0
  bar4Next : Nat := 0
  /-- HIF_BAR4_CFG BASE, address bits [63:26] (R289) -/
  bar4Base : Nat := 0
  sq : Tab Ring := []
  cq : Tab Ring := []
  eq : Tab Ring := []
  str : Tab Ring := []
  /-- EVT_ROUTE: EQ + 64 × ENABLE (R305) -/
  route : Tab Nat := []
  /-- MSI-X table (R307): address, data, mask; masked at reset by the PCI Express layout -/
  msixAddr : Tab (BitVec 64) := []
  msixData : Tab Word := []
  msixUnmasked : Tab Bool := []
  msixPending : Tab Bool := []
  /-- the correctable errors that AER reported last (R284, R308) -/
  aer : Word := 0
  /-- per SQ: fetch grants to other rings that it has waited through (R302) -/
  passed : Tab Nat := []
  /-- messages sent to the host, in order -/
  out : List HMsg := []
  /-- messages that wait for D0 or the link (R286) -/
  waiting : List HMsg := []
  /-- the data of the last register, BAR4 or doorbell read -/
  readData : List Byte := []
  /-- a BAR4 read met an uncorrectable beat: EP set (21 R470) -/
  poisoned : Bool := false
  /-- BAR4 accesses that wait for a memory channel (21 R471): window offset, length of a read, bytes of a write -/
  barWait : List (Nat × Nat × List Byte) := []
  deriving DecidableEq, Repr

/-! ### Staging and daymarks (15) -/

/-- A setting record (15 R342): TARGET and VALUE as read for its quantity (R343). -/
structure Rec where
  target : Nat
  value : Int
  deriving DecidableEq, Repr

/-- States of a staged set (15 R345). -/
inductive SetSt where | free | opened | pending
  deriving DecidableEq, Repr

/-- One staged set (15 R345, R355). -/
structure StagedSet where
  st : SetSt := .free
  owner : Nat := 0
  recs : List Rec := []
  applies : Nat := 0
  /-- held by a group apply (16 R376) -/
  group : Bool := false
  deriving DecidableEq, Repr

/-- A daymark bank (15 R361): STATE 0 EMPTY, 1 WRITING, 2 VALID; the captured counters, byte offset to value. -/
structure Bank where
  seq : Nat := 0
  st : Nat := 0
  pos : Pos := 0
  tick : BitVec 64 := 0
  counters : List (Nat × Nat × Nat) := []
  deriving DecidableEq, Repr

/-- Staging, the applied image and the daymarks (15). -/
structure Staging where
  /-- the applied image: TARGET to value where it differs from its reset value -/
  image : List (Nat × Int) := []
  sets : Tab StagedSet := []
  sched : List Action := []
  /-- the high-half latch of each path: register offset and value (R356) -/
  latchPcie : Option (Nat × Word) := none
  latchMnt : Option (Nat × Word) := none
  /-- daymarks taken since SERVICE, the next k (R358) -/
  dayCount : Nat := 0
  bank0 : Bank := {}
  bank1 : Bank := {}
  lastBank : Nat := 0
  lastSeq : Nat := 0
  dayDone : Bool := false
  /-- the bank being written and the slot of its DAYMARK (R359) -/
  dayBusy : Option (Nat × Option Nat) := none
  /-- the counters as of the end of the tick before `now`, kept while a daymark is pending (02 R39) -/
  daySnap : Option (Nat × List (Nat × Nat × Nat)) := none
  /-- positions of daymarks already taken that still keep others 40 µs away (R359) -/
  dayPos : List Pos := []
  deriving DecidableEq, Repr

/-! ### Channels (03, 04, 07, 08) -/

/-- Channel states (03 R63). -/
inductive ChanSt where | hold | idle | active | pmu | isolated
  deriving DecidableEq, Repr

/-- What the driver does (03 R49, R51): a running clock, or a level of the image. -/
inductive Drv where | off | vih | vil | vtt | clock
  deriving DecidableEq, Repr

/-- The drive edges of a timing set (04 R77). -/
inductive EdgeKind where | d0 | d1 | d2 | d3
  deriving DecidableEq, Repr

/-- A driver edge of a started period that has not fallen due (04 R83): programmed step from its period start, the
period's start, and what the entry of 03 R50 or R51 makes of it. -/
structure PinEdge where
  period : Nat
  kind : EdgeKind
  code : Nat
  format : Nat
  /-- physical position without DESKEW_FALL, edge steps of `now` × 256 -/
  at' : Int
  /-- DESKEW_FALL of its period (R85, R87) -/
  fall : Int := 0
  /-- carried out M steps after an acting edge instead (R83 spacing) -/
  delayed : Bool := false
  deriving DecidableEq, Repr

/-- A compare of a started period that has not been decided (03 R54, 04 R84). -/
structure Compare where
  period : Nat
  /-- pin code CL, CH, CM, CV or CP (05 R90) -/
  code : Nat
  window : Bool
  c0 : Int
  c1 : Int
  opened : Bool := false
  /-- an unblanked instant has been evaluated (R59) -/
  seen : Bool := false
  /-- CV: the instant from which BETWEEN runs (R54) -/
  between : Option Int := none
  failed : Bool := false
  deriving DecidableEq, Repr

/-- A stamp record in a channel queue (07 R147): its full tick number and fraction. -/
structure Stamp where
  type : Nat
  tick : Nat
  fine : Nat
  deriving DecidableEq, Repr

/-- What a parametric unit forces (08 R166 to R170): MODE, RANGE and VALUE in force. -/
structure PmuForce where
  mode : Nat
  range : Nat
  value : Int
  deriving DecidableEq, Repr

/-- One channel (03, 04, 07, 08). -/
structure Chan where
  st : ChanSt := .hold
  drv : Drv := .off
  /-- the most recent D0, D1 or DT code of the present burst (03 R50 KP) -/
  lastCode : Option Nat := none
  /-- comparator bits (03 R53) -/
  vol : Bool := false
  voh : Bool := false
  /-- B0 to B1 intervals of started periods, edge steps (03 R57, 04 R84) -/
  blanksDue : List (Int × Int) := []
  compares : List Compare := []
  /-- COMPARE_MODE in force for the present period (03 R54) -/
  window : Bool := false
  latch : Bool := false
  /-- EDGE_FLAG bits (03 R60) -/
  flags : BitVec 4 := 0
  /-- the tick in which each bit was last set: flags 0 to 3, latch 4; the tick of the last clear (03 R61) -/
  setAt : Tab Nat := []
  clearedAt : Nat := 0
  armed : Bool := false
  /-- crossings that an undecided compare may still look behind: edge step and type, oldest first (03 R54) -/
  hist : List (Int × Cross) := []
  /-- a clock that started: its instant and what the driver did before; a stop or park at the first falling edge at or after an
  instant (03 R50, R51) -/
  clkFrom : Option (Int × Drv) := none
  clkTo : Option Int := none
  /-- a park of a driver that held no clock: what it holds until that falling edge (03 R51) -/
  parkFrom : Option Drv := none
  /-- drive and fall deskew of the period under way, for the clock output of an ACTIVE channel (04 R87) -/
  clkDesk : Option (Int × Int) := none
  /-- sources left by applied changes of DCS_SEL, each with the step from which its next falling edge ends it (03 R51) -/
  clkPast : List (Nat × Int) := []
  /-- `now` of the last change of each level DAC, by its parameter (03 R66) -/
  levelAt : Tab Nat := []
  edges : List PinEdge := []
  /-- the last acting edge: its instant and its period (04 R83) -/
  lastEdge : Option (Int × Nat) := none
  slips : Nat := 0
  slipTold : Bool := false
  truncs : Nat := 0
  /-- ticks of the last accepted VOL and VOH crossings (07 R140) -/
  refVol : Option Nat := none
  refVoh : Option Nat := none
  /-- VOL and VOH bits by the accepted crossings, but for those of the last µs, which follow: time, type (09 R196) -/
  accVol : Bool := false
  accVoh : Bool := false
  accepted : List (Nat × Nat) := []
  /-- instant of the last resolved crossing, stamp units (07 R141) -/
  resolved : Option Nat := none
  /-- crossings in the 64 ns alignment (07 R139 step 7) -/
  aligning : List (Nat × Stamp) := []
  queue : List Stamp := []
  /-- EPOCH and LOST registers of the present stream (07 R148, R149) -/
  epochSent : Option Nat := none
  lostCount : Nat := 0
  lostFirst : Nat := 0
  lostTold : Bool := false
  /-- DIFF of an engine port: the previous record's time (12 R272) -/
  prevStamp : Option Nat := none
  stamps : Nat := 0
  holdSuppressed : Nat := 0
  deadMissed : Nat := 0
  outsideWindow : Nat := 0
  lostStamps : Nat := 0
  queuePeak : Nat := 0
  /-- WIN_CLOSE records owed on leaving HOLD (07 R154) -/
  winOwed : List Stamp := []
  /-- `now` at which it last entered HOLD or ISOLATED, and at which it last left HOLD or was restored (07 R154) -/
  heldAt : Nat := 0
  freeAt : Nat := 0
  /-- from when the merger may take the next record of the channel, in fifths of a tick of `now` (07 R157) -/
  mergeFrom : Nat := 0
  /-- DDR5 write offset, wrap count, records dropped by LINEAR (07 R159) -/
  wrOff : Nat := 0
  wraps : Nat := 0
  areaFull : Bool := false
  /-- records of a host block in progress, and `now` of its first (07 R160) -/
  block : List Stamp := []
  blockAt : Nat := 0
  /-- PPMU (08 R169 to R170) -/
  force : Option PmuForce := none
  /-- a range change under way: the old range, and `now` at its end; for 2 µs both ranges carry the output (08 R170) -/
  rangeBusy : Option (Nat × Nat) := none
  meas : Word := 0
  measPos : Pos := 0
  /-- site (06 R129) -/
  site : Option Nat := none
  /-- being self-checked: crossings as in HOLD (20 R454) -/
  checking : Bool := false
  deriving DecidableEq, Repr

/-- One lane group (03 R58, 08 R176, R180). -/
structure LaneGroup where
  /-- start and end of the running blank timer, edge steps -/
  blankFrom : Int := 0
  blankEnd : Option Int := none
  /-- the running item: list slot and item number; the step it is in: 0 started, 1 settling, 2 sampling -/
  item : Option (Nat × Nat) := none
  phase : Nat := 0
  /-- `now` from which the next step of the item falls due -/
  due : Nat := 0
  /-- a conversion overlapped the precision window (02 R45) -/
  uncertain : Bool := false
  /-- last channel scanned, 0 to 7, and the one under scan, from `due` on (08 R176) -/
  scan : Nat := 7
  scanCur : Option Nat := none
  deriving DecidableEq, Repr

/-- An admitted PMU_LIST (08 R177 to R183). -/
structure PmuRun where
  slot : Nat
  items : List (List Byte)
  limits : List (List Byte)
  /-- results by item number -/
  results : List (Option Word)
  firstPos : Option Pos := none
  fails : Nat := 0
  touched : Bool := false
  /-- DEST 2: results delivered to the port, in item order -/
  sent : Nat := 0
  /-- aborted: no item starts any more, and results still on their way to a port go out first (08 R181, R183) -/
  aborted : Bool := false
  deriving DecidableEq, Repr

/-! ### Sectors (05, 06, 07) -/

/-- Sequencer states (06 R108). -/
inductive SeqSt where | idle | armed | running | padding | waiting | draining | held
  deriving DecidableEq, Repr

/-- A segment directory entry (05 R92): kind 1 RESIDENT, 2 STREAMED. -/
structure Segment where
  kind : Nat
  base : Nat
  len : Nat
  /-- SEG_IDs named by JMP, and by CALL -/
  jumps : List Nat := []
  calls : List Nat := []
  refused : Bool := false
  stallSafe : Bool := false
  /-- structure for the chain tests of 06 R114: the most bodies open at once, and at each CALL: (target, bodies open) -/
  depth : Nat := 0
  callDepths : List (Nat × Nat) := []
  deriving DecidableEq, Repr

/-- A call frame (06 R116). -/
structure CallFrame where
  seg : Nat
  off : Nat
  loopDepth : Nat
  deriving DecidableEq, Repr

/-- An open body (06 R115, R118); a match loop names its `MatchRun`. -/
structure Loop where
  seg : Nat
  start : Nat
  count : Nat
  iter : Nat
  isMatch : Bool
  mid : Nat := 0
  deriving DecidableEq, Repr

/-- A match loop whose results are not all in (06 R117 to R119). -/
structure MatchRun where
  mid : Nat
  /-- the sites that take part and have not matched -/
  waits : List Nat
  /-- compares that failed: (site, iteration) -/
  miss : List (Nat × Nat) := []
  /-- iterations whose MATCH_END has issued -/
  full : Nat := 0
  /-- the loop has ended: the number of the first vector after it -/
  exit : Option Nat := none
  deriving DecidableEq, Repr

/-- An issued vector (06 R110): its slot's vector number, `none` for a keep-alive slot. -/
structure Issued where
  num : Option Nat
  word : BitVec 288
  seg : Nat
  off : Nat
  /-- period start, edge steps; the sweep position at it is taken at the start -/
  start : Int
  /-- the match loop it belongs to, and the iteration (06 R118) -/
  matchIter : Option (Nat × Nat) := none
  /-- its edges stand at the edge logic, by an image (04 R80, R86) -/
  placed : Bool := false
  image : List (Nat × Int) := []
  deriving DecidableEq, Repr

/-- A decided compare on its way to the sequencer (01 R14): 0 pass, 1 fail, 2 captured classification. -/
structure Result where
  period : Nat
  ch : Nat
  fail : Bool
  capture : Option Nat
  /-- the number of the first vector issued after the decision (06 R132) -/
  next : Nat := 0
  /-- the edge step of the decision: the result arrives 48 ns later (01 R14) -/
  at' : Int := 0
  deriving DecidableEq, Repr

/-- What the sequencer keeps of a started period until its results are in (06 R118, R135). -/
structure Period where
  num : Nat
  tset : Nat
  pos : Pos
  matchIter : Option (Nat × Nat)
  /-- compares the period still owes -/
  owed : Nat
  /-- its word holds a CP code -/
  cp : Bool := false
  /-- its results that have arrived -/
  rs : List Result := []
  deriving DecidableEq, Repr

/-- A pending jump (06 R126, R127). -/
structure Jump where
  target : Nat
  issued : Nat
  slot : Option Nat
  /-- `now` of its request, and the request's place among those of one cycle (06 R127) -/
  at' : Nat := 0
  key : Nat := 0
  deriving DecidableEq, Repr

/-- How a burst ends (06 R137), first that applies. -/
inductive BurstEnd where | normal | fault | underrun | aborted | lockMismatch
  deriving DecidableEq, Repr

/-- A site in the present burst (06 R132 to R134). -/
structure SiteRun where
  /-- the burst it takes part in, by the slot of its BURST -/
  burst : Option Nat := none
  verdict : Nat := 0
  masked : Bool := false
  maskVector : Option Nat := none
  failCount : Nat := 0
  firstFail : Option Nat := none
  firstChannel : Option Nat := none
  matchExit : Nat := 0
  /-- failing periods already counted for this site -/
  failed : List Nat := []
  captured : Nat := 0
  limitHit : Bool := false
  lostRecs : Bool := false
  deriving DecidableEq, Repr

/-- A burst (06 R123, 14 R330). -/
structure Burst where
  slot : Nat
  mask : Nat
  follow : Option Nat
  pad : Bool
  rate : Nat
  /-- closure by sector: (sector, SEG_ID) (05 R100, 06 R125) -/
  closure : List (Nat × Nat)
  captureBase : Nat
  captureSize : Nat
  resultAddr : Nat
  startPos : Pos := 0
  /-- period 0 has begun -/
  begun : Bool := false
  late : Bool := false
  ending : BurstEnd := .normal
  /-- budget taken: pattern bytes per second, and per die -/
  budget : Nat := 0
  dieRate : List Nat := []
  /-- the first pad has been told (05 R107) -/
  padTold : Bool := false
  /-- the position a WAIT_SWEEP waits for (06 R121, R123) -/
  waitPos : Option Pos := none
  /-- ACTIVE, FAIL_LIMIT and CAPTURE_LIMIT of its sites as read at period 0 (06 R130) -/
  sites : List (Nat × Nat × Nat) := []
  /-- stop requests that complete when the burst reaches IDLE (06 R128) -/
  stops : List Nat := []
  /-- a stop request waits for the next issue point (06 R128); the pending jump (06 R127) -/
  stop : Bool := false
  jump : Option Jump := none
  /-- a jump that has been taken: the slot of its BURST_CTL, which completes as the leader starts a vector number (06 R126) -/
  landing : Option (Nat × Nat) := none
  /-- a slot ahead of a start or a wait position has met an ending, which acts at that position: the ending, and the sectors
  that lacked their word (05 R102; 06 R109) -/
  pendEnd : Option (BurstEnd × List Nat) := none
  /-- its part of sites that a later burst has taken over -/
  kept : List (Nat × SiteRun) := []
  deriving DecidableEq, Repr

/-- One window generator (07 R150 to R156). -/
structure WinGen where
  armed : Option Nat := none
  src : Nat := 0
  sel : Nat := 0
  count : Nat := 0
  opens : Nat := 0
  closes : Nat := 0
  pos : Pos := 0
  stride : Nat := 0
  /-- starts so far of a SWEEP arming -/
  starts : Nat := 0
  /-- windows closed (DETAIL) and the position at the first W_O -/
  done : Nat := 0
  firstPos : Option Pos := none
  /-- the position at the check for LATE -/
  checkPos : Pos := 0
  /-- W_O and W_C of the present start, stamp units; the window is open -/
  win : Option (Nat × Nat) := none
  /-- the windows before it, as long as a crossing in alignment may lie in one (R139, R152) -/
  past : List (Nat × Nat) := []
  isOpen : Bool := false
  uncertain : Bool := false
  /-- stamp times of start events on their way to the generator (R151) -/
  due : List Nat := []
  deriving DecidableEq, Repr

/-- A queued fail capture record (06 R135, R136): its DDR5 address, its BURST (ring × 2^64 + place in
the ring), its 32 bytes. -/
abbrev CapRec := Nat × Nat × List Byte

/-- One sector: sequencer, segment store, refill, capture, window generators, PLL (05, 06, 07). -/
structure Sector where
  st : SeqSt := .idle
  dir : Tab (Option Segment) := []
  /-- segment store: vector index to word -/
  store : Tab (BitVec 288) := []
  /-- the burst it was last started by, by the slot of its BURST (06 R109, R123) -/
  own : Option Nat := none
  seg : Nat := 0
  off : Nat := 0
  /-- repetitions still to fill of an RPT vector -/
  rpt : Nat := 0
  vecNum : Nat := 0
  calls : List CallFrame := []
  loops : List Loop := []
  followed : Bool := false
  /-- the vector last issued, whose opcode has not acted -/
  issued : Option Issued := none
  /-- the point before the next issue is a boundary (06 R126), and the program would end there -/
  boundary : Bool := false
  ending : Bool := false
  /-- the segment that the next issue enters (06 R113) -/
  goTo : Option Nat := none
  /-- issued vectors whose periods have not started -/
  ahead : List Issued := []
  /-- start of the next period to issue, edge steps -/
  nextStart : Int := 0
  /-- ARMED and WAITING: the predicted start of the first slot, once it has issued (05 R102; 06 R121) -/
  base : Option Int := none
  /-- the running period's end -/
  periodEnd : Int := 0
  /-- the last WAITING: where it began and, once it is over, where it ended (06 R121) -/
  waitFrom : Option Int := none
  waitTo : Option Int := none
  /-- WAIT_POS as read when a WAIT_SWEEP issued (06 R120, R138) -/
  wait : Option Pos := none
  /-- a WAIT_SWEEP that has issued, whose period has not ended: that end, its entry, and PHASE mode (06 R120, R121) -/
  waitEnd : Option (Int × Pos × Bool) := none
  waitLate : Nat := 0
  keepAlive : Option (BitVec 288) := none
  stallVectors : Nat := 0
  underruns : Nat := 0
  /-- refill buffer: whole vectors held, and the place (segment, offset) of its head; no place: nothing to fetch (05 R99) -/
  buf : List (BitVec 288) := []
  bufAt : Option (Nat × Nat) := none
  refillMin : Nat := 0
  /-- an uncorrectable or rejected word stands behind the buffer (05 R97) -/
  bufBad : Bool := false
  /-- from when the refill may place the next vector, in ticks × the declared rate (05 R98) -/
  fillNext : Nat := 0
  missing : Bool := false
  results : List Result := []
  periods : List Period := []
  /-- match loops with results outstanding, oldest first, and the number of the next one -/
  matches' : List MatchRun := []
  nextMatch : Nat := 0
  capQueue : List CapRec := []
  capFill : Nat := 0
  capBase : Nat := 0
  capSize : Nat := 0
  capLost : Nat := 0
  capLostFirst : Option (Nat × Nat × Pos) := none
  pos0 : Pos := 0
  wgs : Tab WinGen := []
  ignoredStarts : Nat := 0
  wgSkipped : Nat := 0
  pllLost : Bool := false
  /-- site result records of the last burst led: (site, 32 bytes) (06 R134) -/
  siteRecs : List (Nat × List Byte) := []
  viewPcie : BitVec 6 := 0
  viewMnt : BitVec 6 := 0
  deriving DecidableEq, Repr

/-- One stamp stream (07 R158 to R160). -/
structure StampStream where
  isOpen : Bool := false
  dest : Nat := 0
  ringMode : Bool := false
  str : Nat := 0
  first : Nat := 0
  count : Nat := 0
  rate : Nat := 0
  flush : Nat := 0
  base : Nat := 0
  size : Nat := 0
  blockSeq : Nat := 0
  lost : Nat := 0
  /-- the engine port bound to it (12 R278) -/
  port : Option (Nat × Nat) := none
  /-- the stamp time of its opening: records of crossings from then on enter it (R158) -/
  since : Nat := 0
  deriving DecidableEq, Repr

/-! ### Digitizers and trigger units (09) -/

/-- A record of a flow (09 R207), by its sample number; of a mark also the raw sample G_f (R199). -/
structure FlowRec where
  sample : Nat
  bytes : List Byte
  g : Nat := 0
  deriving DecidableEq, Repr

/-- One flow of a digitizer (09 R204 to R210). -/
structure Flow where
  isOpen : Bool := false
  dest : Nat := 0
  ringMode : Bool := false
  str : Nat := 0
  base : Nat := 0
  size : Nat := 0
  flush : Nat := 0
  rate : Nat := 0
  blockSeq : Nat := 0
  lostTotal : Nat := 0
  /-- the block in progress: its samples, and the records that stand in it -/
  first : Nat := 0
  firstPos : Pos := 0
  firstAt : Nat := 0
  samples : List Nat := []
  block : List FlowRec := []
  /-- records of samples that are not placed yet -/
  recs : List FlowRec := []
  /-- DEST 0: what the admitted rate has allowed since the opening, at most one block, less the blocks delivered, in
  bytes / (2008 × 1,600,000,000) (R208) -/
  credit : Int := 0
  uncertain : Bool := false
  saturated : Bool := false
  gapInBlock : Bool := false
  /-- the present loss: first lost sample, count, reason, records held, records lost (R210) -/
  gap : Option (Nat × Nat × Nat) := none
  held : List FlowRec := []
  heldLost : Bool := false
  wrOff : Nat := 0
  port : Option (Nat × Nat) := none
  /-- first raw sample of a pair for an engine port (12 R272) -/
  half : Option Nat := none
  deriving DecidableEq, Repr

/-- A kept raw sample on its way to its block: it waits until every mark at it is decided (09 R197, R208). -/
structure DigSample where
  g : Nat
  v : BitVec 16
  lost : Bool
  sat : Bool
  pos : Pos
  at' : Nat
  deriving DecidableEq, Repr

/-- What corrects the samples of a digitizer: SPAN in µV, effective OFFSET in 1/65,535 µV, the factory pair and the user pair (20
R442). -/
structure DigCal where
  uv : Nat
  base : Int
  gf : Int
  offF : Int
  gu : Int
  offU : Int
  deriving DecidableEq, Repr

/-- 2^k raw samples from label Q on: the sweep position at the first; whether one saturated, overlapped a conversion (09 R189,
R206) or was taken from an open line (09 R186; 20 R454); what corrected the last one (20 R447). -/
structure DecChunk where
  q : Nat
  pos : Pos
  sat : Bool
  unc : Bool
  cut : Bool
  cal : DigCal
  deriving DecidableEq, Repr

/-- An ARM whose LAST blocks are not all visible: its completion, and by STR ring the staged blocks still to go (09 R215). -/
structure OwedArm where
  slot : Nat
  status : Nat
  detail : Nat
  pos : Pos
  waits : List (Nat × Nat)
  deriving DecidableEq, Repr

/-- Acquisition states (09 R212). -/
inductive AcqSt where | idle | armed | running | post
  deriving DecidableEq, Repr

/-- One digitizer (09). -/
structure Dig where
  /-- the next global sample number G (R188) -/
  g : Nat := 0
  lo : Bool := false
  hi : Bool := false
  acq : AcqSt := .idle
  /-- the ARM's slot, start source, selector, POST, LENGTH (R213) -/
  slot : Option Nat := none
  start : Nat := 0
  sel : Nat := 0
  post : Nat := 0
  len : Nat := 0
  g0 : Nat := 0
  /-- the sample of a start event on its way to the acquisition (R212) -/
  startG : Option Nat := none
  startPos : Pos := 0
  /-- the last kept sample, once a stop cause stands (R214) -/
  last : Option Nat := none
  cause : Nat := 0
  gapCount : Nat := 0
  touched : Bool := false
  mask : List Byte := []
  /-- mask test: anchor sample, next point, incomplete (R217) -/
  test : Option (Nat × Nat × Bool) := none
  /-- mask tests started since arming (R207 SEQ) -/
  testSeq : Nat := 0
  raw : Flow := {}
  dec : Flow := {}
  /-- next decimated sample number Q, and the raw sample from which its support must start (R189) -/
  q : Nat := 0
  decFrom : Nat := 0
  /-- the last 64 raw samples, newest last, and whether each was lost and saturated: a start or anchor decided up to 240 ns late
  reaches back into them (R194, R212, R217) -/
  recent : List (BitVec 16 × Bool × Bool) := []
  /-- kept samples of the RAW flow that are not placed yet -/
  line : List DigSample := []
  /-- the chunks of the decimator's last 80 labels (R189, R206) -/
  chunks : List DecChunk := []
  /-- STR rings of flows closed in this acquisition, with the blocks that are not visible yet (R215) -/
  closing : List (Nat × Nat) := []
  owed : List OwedArm := []
  kept : Nat := 0
  /-- the sample after the last one counted in SAMPLES_KEPT (R218) -/
  keptTo : Nat := 0
  lostSamples : Nat := 0
  gaps : Nat := 0
  lostMarks : Nat := 0
  maskTests : Nat := 0
  maskViolations : Nat := 0
  maskIgnored : Nat := 0
  checking : Bool := false
  deriving DecidableEq, Repr

/-- One condition slot of a trigger unit (09 R194). -/
structure TuSlot where
  /-- the pending start event's time -/
  start : Option Nat := none
  /-- the last selected event's time (EDGE) -/
  last : Option Nat := none
  /-- from this time on an earlier start no longer counts, and an earlier selected event (R197) -/
  cut : Nat := 0
  cutLast : Nat := 0
  /-- the TIMEOUT of this stay has fired -/
  fired : Bool := false
  deriving DecidableEq, Repr

/-- A completion of a slot, true under its QUAL, not yet decided by the unit (09 R197, R198). -/
structure TuHit where
  slot : Nat
  t : Nat
  coarse : Bool
  deriving DecidableEq, Repr

/-- One trigger unit (09 R192 to R203). -/
structure TrigUnit where
  slots : Tab TuSlot := []
  hits : List TuHit := []
  holdoff : Option Nat := none
  /-- the end of the last hold-off that has ended (R198) -/
  heldTo : Nat := 0
  lastG : Nat := 0
  firings : Nat := 0
  suppressed : Nat := 0
  coincident : Nat := 0
  /-- settings changed in the last µs: apply time, parameter, the value before it (R197) -/
  past : List (Nat × Nat × Int) := []
  deriving DecidableEq, Repr

/-- One trigger bus line (09 R192, R200): the bus level, and the end of this device's pulse. -/
structure TbLine where
  asserted : Bool := false
  /-- edges of the last µs at their compensated times (R196) -/
  edges : List (Nat × Bool) := []
  pulseEnd : Option Nat := none
  deriving DecidableEq, Repr

/-! ### Waveform sources (10) and synthesizers (11) -/

/-- AWG states (10 R230). -/
inductive AwgSt where | idle | armed | running | waiting | holding | cleared | isolated
  deriving DecidableEq, Repr

/-- An AWG segment directory entry (10 R224): kind 1 RESIDENT, 2 STREAMED; base granule or address; length in samples. -/
structure AwgSeg where
  kind : Nat
  base : Nat
  len : Nat
  deriving DecidableEq, Repr

/-- A pending jump of a source (10 R234): target entry, or `none` for a STOP at the boundary. -/
structure AwgJump where
  target : Option Nat
  slot : Nat
  /-- DAC clock of its arrival, later by the clocks since then at which the source waited -/
  clk : Nat
  /-- it reached the source while that was WAITING (R234) -/
  waiting : Bool := false
  /-- streamed samples from the present repetition on that play before it takes effect, as the refill reckons (R233) -/
  after : Nat := 0
  deriving DecidableEq, Repr

/-- One waveform source (10). -/
structure Awg where
  st : AwgSt := .idle
  dir : Tab (Option AwgSeg) := []
  /-- sample buffer: sample index to value (R223) -/
  buffer : Tab (BitVec 16) := []
  /-- sequence table (R227) -/
  table : Tab (BitVec 64) := []
  /-- START in progress: slot, streaming, HOLD on underrun, position of the first sample, late -/
  slot : Option Nat := none
  streaming : Bool := false
  holdOn : Bool := false
  firstPos : Option Pos := none
  late : Bool := false
  dds : Bool := false
  /-- current entry, repetitions played of it, look-ahead (entry number, entry as read) (R229) -/
  entry : Nat := 0
  reps : Nat := 0
  look : List (Nat × BitVec 64) := []
  total : Nat := 0
  jump : Option AwgJump := none
  /-- DAC clock at which the present repetition's first sample plays, less held samples -/
  clk : Nat := 0
  heldFor : Nat := 0
  /-- HOLDING: the DAC clock of the missing sample -/
  heldAt : Option Nat := none
  /-- WAITING: the instant it began, stamp units; the DAC clock a trigger has fixed -/
  waitFrom : Nat := 0
  release : Option Nat := none
  /-- the event time of the trigger that fixed it -/
  relAt : Nat := 0
  /-- stamp times of triggers on their way to the source (R232) -/
  due : List Nat := []
  ended : Option Nat := none
  /-- the output value: the last sample played, or CLEAR_CODE when cleared -/
  last : BitVec 16 := 0
  atClear : Bool := true
  /-- streaming window: samples held, and the streamed samples fetched since the present repetition began, of it and of
  what follows it -/
  window : List (BitVec 16) := []
  fetch : Nat := 0
  underTold : Bool := false
  /-- the mark of the present repetition waits for its first sample, which the window lacks (R237) -/
  markOwed : Bool := false
  /-- the route switch is closed; the channel that it was last brought in line with (R222) -/
  routed : Bool := false
  routedTo : Option Nat := none
  mkEnd : Option Nat := none
  /-- DDS: the DAC clock of the last phase reset, tuning word and phase in force; the changes pending, each with its granule
  boundary, tuning word and phase (R238) -/
  ddsClk : Nat := 0
  ftw : Nat := 0
  ddsPhase : Nat := 0
  ddsDue : List (Nat × Nat × Nat) := []
  repetitions : Nat := 0
  marks : Nat := 0
  ignored : Nat := 0
  underruns : Nat := 0
  underSamples : Nat := 0
  routeBlocked : Nat := 0
  checking : Bool := false
  deriving DecidableEq, Repr

/-- States of a synthesizer (11 R255). -/
inductive DcsSt where | gated | locking | running | ramping | contained
  deriving DecidableEq, Repr

/-- A ramp (11 R251 to R254). -/
structure Ramp where
  slot : Nat
  running : Bool
  point : Nat
  done : Nat
  firstPos : Option Pos
  /-- the end of the running dwell -/
  dwell : Option Pos
  /-- `now` at the next step -/
  stepAt : Nat
  /-- a STOP: `now` of the PFD cycle on which it acts, and its slot (R254) -/
  stopAt : Option (Nat × Nat) := none
  deriving DecidableEq, Repr

/-- A divided clock of a synthesizer: M, O, N, and one of its falling edges in edge steps (11 R243). -/
structure DcsClk where
  m : Nat := 1
  o : Nat := 40
  n : Nat := 80
  fallAt : Int := 0
  deriving DecidableEq, Repr

/-- One synthesizer (11). At entry to SERVICE it is locked and gated (R244). -/
structure Dcs where
  st : DcsSt := .gated
  locked : Bool := false
  refOk : Bool := false
  nNow : Nat := 80
  /-- M, O, BW in force -/
  m : Nat := 1
  o : Nat := 40
  bw : Nat := 2
  point : Nat := 0
  unlocks : Nat := 0
  /-- a retune in progress, by `now` at which it fails; a retune waits for the ramp's end -/
  retune : Option Nat := none
  retunePending : Bool := false
  /-- the PFD cycle on which a retune that waited for a ramp begins (R246) -/
  retuneAt : Option Nat := none
  /-- a falling edge of the divided output, edge steps (R250); a new O and the falling edge from which it divides (R246) -/
  anchor : Int := 0
  /-- the divided clock before `anchor`: a change of ratio divides from a falling edge on (R246, R250, R251) -/
  was : DcsClk := {}
  oNext : Option (Nat × Int) := none
  /-- the gate is open before the falling edge `gateAt`, and from it on (R250) -/
  gate : Bool := false
  gateTo : Bool := false
  gateAt : Int := 0
  profile : List (Nat × Nat) := []
  ramp : Option Ramp := none
  deriving DecidableEq, Repr

/-! ### Measurement engines (12) -/

/-- An input port binding (12 R278). -/
structure InPort where
  kind : Nat := 0
  sel : Nat := 0
  mode : Nat := 0
  /-- words held; `true` marks a word of a record (R272) -/
  words : List (Word × Bool) := []
  closed : Bool := false
  lost : Nat := 0
  /-- changes of PORT_GATE, the newest first: the stamp time, and whether it opened (12 R281) -/
  gates : List (Nat × Bool) := []
  /-- DIFF: channels with records lost before the next one -/
  lostBefore : List Nat := []
  deriving DecidableEq, Repr

/-- An output port binding (12 R274, R278). -/
structure OutPort where
  kind : Nat := 0
  ringMode : Bool := false
  str : Nat := 0
  rate : Nat := 0
  flush : Nat := 0
  base : Nat := 0
  size : Nat := 0
  /-- words taken by OUT and not yet placed -/
  words : List Word := []
  wrOff : Nat := 0
  blockSeq : Nat := 0
  block : List Word := []
  blockAt : Nat := 0
  deriving DecidableEq, Repr

/-- A running DUP or LOOP (12 R269). -/
structure Repeat where
  start : Nat
  stop : Nat
  /-- repetitions left; for a LOOP the LC register counts -/
  left : Nat
  /-- the present pass runs from the cache (R270) -/
  cached : Bool := false
  deriving DecidableEq, Repr

/-- States of an engine (24 R509). -/
inductive EngSt where | idle | running | contained
  deriving DecidableEq, Repr

/-- One measurement engine (12). -/
structure Engine where
  st : EngSt := .idle
  slot : Option Nat := none
  startPos : Pos := 0
  pc : Nat := 0
  w : List Word := List.replicate 8 0
  p : List (BitVec 16) := List.replicate 8 0
  s : List (BitVec 16) := List.replicate 8 0
  q : List (BitVec 16) := List.replicate 8 0
  b : List (BitVec 16) := List.replicate 8 0
  stReg : Word := 0x6000
  lc : Word := 0
  pa : List (BitVec 56) := List.replicate 4 0
  sa : List (BitVec 40) := List.replicate 8 0
  calls : List Nat := []
  dup : Option Repeat := none
  loop : Option Repeat := none
  /-- code store; an unlisted word is the HALT word (R256) -/
  code : Tab (BitVec 48) := []
  u : Tab Word := []
  v : Tab Word := []
  limits : Tab (List Byte) := []
  ins : Tab InPort := []
  outs : Tab OutPort := []
  /-- words that hold an uncorrectable error: (0 code, 1 U, 2 V, 3 limit; address) -/
  bad : List (Nat × Nat) := []
  cycles : Nat := 0
  stalls : Nat := 0
  limitFails : Nat := 0
  guardFails : Nat := 0
  runFails : Nat := 0
  outLost : Nat := 0
  discarded : Nat := 0
  eccCorrected : Nat := 0
  /-- cycles at which registers and accumulators were last written, for the interlocks of R271 -/
  ptrAt : List Nat := List.replicate 24 0
  paAt : List Nat := List.replicate 4 0
  saAt : List Nat := List.replicate 8 0
  /-- cycle from which each W register holds the result of its SQRT -/
  sqrtAt : List Nat := List.replicate 8 0
  limAt : Nat := 0
  /-- HALT, STOP or an abort has ended the run, which completes with this status when every output word is visible
  (R280) -/
  ending : Option Nat := none
  deriving DecidableEq, Repr

/-! ### Memory (21) -/

/-- MEM_STATUS STATE (21 R473). -/
inductive MemSt where | training | inService | outOfService | recovery
  deriving DecidableEq, Repr

/-- One memory channel (21 R471, R473). -/
structure MemChan where
  corrected : Nat := 0
  uncorrected : Nat := 0
  lastUe : Option Nat := none
  /-- `now` of the unpoisoned beats read in the last 1 ms (R471) -/
  recent : List Nat := []
  /-- eight of them have come: the fault of the channel is still to be raised (R471) -/
  owed : Bool := false
  /-- `now` of the last event 0x0464 (R472) -/
  toldAt : Option Nat := none
  deriving DecidableEq, Repr

/-- DDR5 (21) and its admitted rates (01 R17, R18). -/
structure Mem where
  cells : List Host.Cell := []
  st : MemSt := .training
  /-- 0 none, 1 4,800, 2 5,600, 3 6,400 MT/s -/
  rate : Nat := 0
  ranks2 : Bool := false
  density : Nat := 0
  /-- capacity found by training, GiB -/
  capacity : Nat := 0
  scrubPasses : Nat := 0
  scrubLine : Nat := 0
  maxRate : Nat := 0
  scrubHours : Nat := 24
  chans : Tab MemChan := []
  /-- beats that carry the poison syndrome, and beats uncorrectable without it, by address / 4 (R468) -/
  poison : List Nat := []
  bad : List Nat := []
  /-- beats with a single-bit error, which a read corrects (R468) -/
  single : List Nat := []
  /-- rates admitted: pattern, waveform, capture, stamp, in bytes per second (01 R17) -/
  pattern : Nat := 0
  waveform : Nat := 0
  capture : Nat := 0
  /-- capture capacity that admitted items have left unused, at most one block each: of the device, and of each PE die's link; and
  the tick of its last count (09 R208) -/
  spare : Nat := 0
  spareUp : Tab Nat := []
  spareAt : Nat := 0
  stamp : Nat := 0
  /-- rates admitted on each die link, towards the die and towards the control die (01 R11, R18) -/
  down : Tab Nat := []
  up : Tab Nat := []
  /-- rates of host streams (01 R20) -/
  host : Nat := 0
  /-- replays in a row of one flit, and `now` of the last, per die link (01 R13) -/
  replays : Tab (Nat × Nat) := []
  deriving DecidableEq, Repr

/-! ### Faults (18) -/

/-- Phases (18 R408). -/
inductive Phase where | start | selftest | service | recovery | shutdown | halted
  deriving DecidableEq, Repr

/-- The step of a recovery (18 R411, R412, R415). -/
inductive RecStep where
  | quiet (until' : Nat)
  | waiting (since : Nat) (told : Bool)
  /-- restoration began at this `now` -/
  | restoring (since : Nat)
  | queued
  deriving DecidableEq, Repr

/-- A recovery in progress (18 R411 to R417). -/
structure Recovery where
  domain : Nat
  openClass : Nat
  cause : BitVec 64
  merges : Nat := 0
  escalated : Bool := false
  step : RecStep
  openSeq : Nat
  /-- event 0x04E7 has been raised for it (R412) -/
  told : Bool := false
  deriving DecidableEq, Repr

/-- A history record (18 R419). -/
structure HistRec where
  seq : Nat
  source : Nat
  domain : Nat
  kind : Nat
  classNow : Nat
  classOpen : Nat
  phase : Nat
  merges : Nat
  recovery : Nat
  cause : BitVec 64
  sweep : Pos
  deriving DecidableEq, Repr

/-- One SECTOR_ALIVE pin (18 R422, R423, R426). -/
structure Alive where
  char : Nat := 0
  degraded : Nat := 1
  period : Nat := 10
  /-- the character and period of the flash now shown -/
  showChar : Nat := 0
  showPeriod : Nat := 10
  showFrom : Nat := 0
  frozen : Bool := false
  /-- level at which it is frozen -/
  level : Bool := false
  deriving DecidableEq, Repr

/-- DEV_SAFE_P/N (18 R424): undriven, (0,1), (1,0). -/
inductive DevSafe where | hiZ | fault | safe
  deriving DecidableEq, Repr

/-- What the reflection pages of a PE die show while its die link is in recovery (24 R503). -/
structure Snap where
  chans : Tab Chan
  lgs : Tab LaneGroup
  sectors : Tab Sector
  sites : Tab SiteRun
  streams : Tab StampStream
  awgs : Tab Awg
  digs : Tab Dig
  image : List (Nat × Int)
  deriving DecidableEq, Repr

/-- The fault system (18). -/
structure Flt where
  phase : Phase := .start
  recs : List Recovery := []
  /-- resources ISOLATED until a power cycle (R409) -/
  isolated : List Nat := []
  /-- RECOVERIES per domain and of the device (R418) -/
  counts : Tab Nat := []
  device : Nat := 0
  hist : List HistRec := []
  seq : Nat := 0
  frozen : Bool := false
  quietUs : Nat := 8
  alive : Tab Alive := []
  devSafe : DevSafe := .hiZ
  awgClr : Bool := false
  /-- a PE_RAIL or CTRL_RAIL condition holds; the reference has stopped (R412) -/
  railBad : Bool := false
  refStopped : Bool := false
  /-- values reflected before containment, of the dies whose link is in recovery (24 R503) -/
  stale : Tab (Option Snap) := []
  /-- monitored conditions by bit and resource: `now` since which each has held, and of its last detection (03 R66) -/
  mon : Tab (Nat × Nat) := []
  /-- `now` at which the last restoration of each domain began (03 R66) -/
  restAt : Tab Nat := []
  deriving DecidableEq, Repr

/-! ### Thermal (19), calibration and ledger (20) -/

/-- One thermal sensor (19 R438). -/
structure Sensor where
  temp : Int := 0
  valid : Bool := false
  broken : Bool := false
  noQuiet : Bool := false
  level : Nat := 0
  /-- `now` at the end of its latest conversion -/
  endAt : Option Nat := none
  warn : Nat := 95
  throttle : Nat := 105
  shutdown : Nat := 120
  deriving DecidableEq, Repr

/-- A conversion running on a die (19 R428): sensors, `now` and sweep position at its start, no quiet slot, and the slots whose
demands it serves. -/
structure Conversion where
  sensors : Nat
  startAt : Nat
  startPos : Pos
  noQuiet : Bool
  slots : List Nat := []
  deriving DecidableEq, Repr

/-- A THERM in progress (14 R335). -/
structure ThermRun where
  slot : Nat
  left : Nat
  highest : Int
  noQuiet : Bool
  broken : Bool
  lastPos : Pos
  deriving DecidableEq, Repr

/-- Thermal supervision (19). -/
structure Thm where
  sensors : Tab Sensor := []
  maxMs : Nat := 10
  pending : Nat := 0
  /-- sensors whose pending demand is forced, and `now` at which it fell due, per die (R430, 02 R45) -/
  forcedAt : Tab (Option Nat) := []
  forced : Nat := 0
  /-- dies whose timer has reached MAX_INTERVAL_MS since it restarted (R430) -/
  told : Nat := 0
  overNow : Bool := false
  running : Tab (Option Conversion) := []
  /-- `now` at which each die's interval timer restarted -/
  timer : Tab Nat := []
  therms : List ThermRun := []
  /-- slots that wait for fresh readings and the sensors they wait for (R431) -/
  fresh : List (Nat × Nat) := []
  deriving DecidableEq, Repr

/-- One overlay entry (20 R444). -/
structure Overlay where
  qty : Nat
  sub : Nat
  gain : Int
  offset : Int
  unc : Nat
  deriving DecidableEq, Repr

/-- One ledger entry's changing part (20 R452, R459). D is in 2^-8 unit per day. -/
structure Ledger where
  e : Int := 0
  d : Int := 0
  checked : Bool := false
  skipped : Bool := false
  oom : Bool := false
  /-- the next check is the first since SERVICE or an overlay write -/
  first : Bool := true
  /-- `now` at which Δt started -/
  since : Nat := 0
  deriving DecidableEq, Repr

/-- One margin plan entry (20 R456). -/
structure PlanEntry where
  cls : Nat
  action : Nat
  k : Nat
  tol : Nat
  horizon : Nat
  deriving DecidableEq, Repr

/-- A self-check group in progress (20 R453 to R455): the WATCH that runs it, or none for a forced check; the resources
checked, and those abandoned by an apply. -/
structure GroupCheck where
  slot : Option Nat
  eligible : List Nat
  abandoned : List Nat := []
  endAt : Nat
  /-- voltages are checked against REF_V (R453) -/
  refV : Bool := false
  deriving DecidableEq, Repr

/-- REF_STATE (20 R449). -/
inductive RefSt where | crystal | acquiring | locked | holdover
  deriving DecidableEq, Repr

/-- Calibration, time base and ledger (20). -/
structure Cal where
  /-- factory values that differ from nominal, by offset in the CAL block (R439 to R441) -/
  factory : Tab Int := []
  /-- quantities whose factory record failed (R439) -/
  badRecords : List Nat := []
  overlay : List Overlay := []
  ledger : Tab Ledger := []
  plan : List PlanEntry := []
  xtalAge : Int := 0
  ageRate : Int := 0
  /-- fraction of XTAL_AGE not yet added: 0.001 ppb per day × seconds (R448) -/
  ageFrac : Int := 0
  refSel : Nat := 0
  refSt : RefSt := .crystal
  refUnc : Nat := 100
  /-- `now` at the last second of XTAL_AGE, at the start of the day of AGE_RATE, at the last minute of R457 -/
  secAt : Nat := 0
  dayAt : Nat := 0
  minAt : Nat := 0
  /-- XTAL_AGE at the start of the day; the sum of daily residuals, 0.001 ppb, and their number (R449, R452) -/
  dayAge : Int := 0
  residSum : Nat := 0
  residDays : Nat := 0
  lockedAt : Nat := 0
  /-- `now` at which REF_STATE became ACQUIRING -/
  acqAt : Nat := 0
  /-- the correction of the crystal at `corrAt`, from which it slews (R448) -/
  corrFrom : Int := 0
  corrAt : Nat := 0
  watchMax : Nat := 480
  refV : Nat := 0
  refVUnc : Nat := 0
  forced : Nat := 0
  checks : Tab (Option GroupCheck) := []
  /-- `now` at which each group's timer restarted (R455) -/
  timers : Tab Nat := []
  /-- WATCHes in progress: slot, groups left, entries updated -/
  watches : List (Nat × Nat × Nat) := []
  deriving DecidableEq, Repr

/-! ### Group operation (16) -/

/-- The keeper's group operation (16 R375 to R377, R372). -/
structure GroupOp where
  /-- 1 apply, 2 daymark, 3 fence, 4 align (R383) -/
  kind : Nat
  slot : Nat
  op : Nat
  set : Nat := 0
  pos : Pos := 0
  /-- `now` at PREPARE; at the first edge of APPLY's START -/
  sentAt : Nat := 0
  frameAt : Option Nat := none
  /-- roster workers that accepted in their slot, and refused -/
  votes : Nat := 0
  /-- the keeper's apply is admitted, has passed its checks -/
  admitted : Bool := false
  selfOk : Bool := false
  committed : Bool := false
  gflt : Bool := false
  /-- `now` at the keeper's own apply tick -/
  actAt : Option Nat := none
  /-- alignment: worker, round, stamps t0, t2, t3, and R_A and R_B of the rounds -/
  worker : Nat := 1
  round : Nat := 0
  t0 : Nat := 0
  t2 : Nat := 0
  t3 : Nat := 0
  ras : List Int := []
  rbs : List Int := []
  aligned : Nat := 0
  deriving DecidableEq, Repr

/-- A worker's part in a group apply (16 R376, R378). -/
structure WorkerOp where
  op : Nat
  set : Nat
  pos : Pos
  frameAt : Option Nat := none
  accepted : Bool := false
  voted : Bool := false
  committed : Bool := false
  deriving DecidableEq, Repr

/-- Beacon frames the keeper sends, in order (16 R369). -/
inductive Frame where
  | posSync (pos : Pos) (rate : Nat)
  | prepare (op set : Nat) (sweep : Bool) (pos : Pos)
  | apply (op : Nat) (pos : Pos)
  | commit (op : Nat)
  | cancel (op : Nat)
  | daymark (op bank : Nat) (pos : Pos)
  | fence (op : Nat) (visible : Bool)
  | ping (gid : Nat)
  | comp (gid beacon line : Nat)
  | tick (stamp : Nat)
  | epoch (offset : BitVec 64)
  deriving DecidableEq, Repr

/-- Group operation (16). -/
structure Grp where
  keeper : Bool := false
  groupId : Nat := 0
  aligned : Bool := false
  rdyN : Bool := false
  gfltN : Bool := false
  /-- this device drives RDY_N; GFLT_N is driven for a commit loss until this `now` (R367) -/
  rdyDrive : Bool := false
  /-- `now` at which the test of a PREPARE here ends, until which it drives RDY_N (R375) -/
  rdyTest : Option Nat := none
  gfltUntil : Option Nat := none
  roster : Nat := 0
  frameErrors : Nat := 0
  /-- d_b and d_l per GROUP_ID (R373, R383) -/
  delays : Tab (Option (Nat × Nat)) := []
  nextOp : Nat := 0
  op : Option GroupOp := none
  worker : Option WorkerOp := none
  /-- the last OP accepted of each frame type (R369) -/
  seenOps : Tab (Option Nat) := []
  frameSeq : Nat := 0
  /-- each with the tick of the first edge of its START; the last ones may lie ahead -/
  frames : List (Nat × Frame) := []
  /-- the first copy of a frame without OP accepted last: its tick, and the frame (R369) -/
  copyOf : Option (Nat × Frame) := none
  /-- `now` at which the next POS_SYNC falls due, in units of 0.2 tick (1,024 ns is 1,638.4 ticks) -/
  posDue : Nat := 0
  epochArm : Bool := false
  epochEdge : Bool := false
  epochDelay : Nat := 0
  epochPos : BitVec 64 := 0
  epochTick : BitVec 64 := 0
  /-- sampling phase of BCN (R366) -/
  phase : Option Nat := none
  /-- a fence token's covered descriptors, as in `Slot.bounds`, and its kind (R380) -/
  fence : Option (List (Nat × Nat) × Bool) := none
  /-- alignment on the worker: instants t1 + 1,600 and t4 + 1,600 at which it answers on RDY_N -/
  answerAt : Option Nat := none
  /-- a later ALIGN has begun and has not aligned this worker (R371) -/
  realign : Bool := false
  deriving DecidableEq, Repr

/-! ### Serial ports (22), power (23), TAP (25) -/

/-- A running AUX transfer (22 R476): its descriptor, `now` at t_s, the ticks of a bit, its bits, RX_ADDR, the bytes received, its
SEL code, mode 3, and SEL_SETUP in ticks. -/
structure AuxRun where
  slot : Nat
  start : Nat
  period : Nat
  len : Nat
  rxAddr : Nat
  rx : List Byte
  sel : Nat
  mode3 : Bool
  setup : Nat
  deriving DecidableEq, Repr

/-- A transfer of a flash action (20 R446): the bytes sent, how many bytes are read behind them, whether it programs a page, and for
a poll of the status, which repeats while bit 0 is set, the units of 16 bytes that the page holds. -/
structure FlashStep where
  bytes : List Byte
  reads : Nat := 0
  page : Bool := false
  poll : Option Nat := none
  deriving DecidableEq, Repr

/-- The AUX port (22 R474 to R479). AUX_SDO is low, and AUX_SELV_N high, while no transfer runs. -/
structure Aux where
  /-- the outputs are driven -/
  driven : Bool := false
  /-- the idle level of AUX_SCK, and AUX_SEL, as the last transfer left them -/
  sck : Bool := false
  sel : Nat := 0
  busy : Option AuxRun := none
  /-- the flash action that has the port (20 R446) -/
  flash : Option Nat := none
  bits : Nat := 0
  transfers : Nat := 0
  sampleDly : Nat := 0
  selSetup : Nat := 20
  /-- bytes sent by the running or last transfer -/
  tx : List Byte := []
  /-- the transfers of a flash action from the running one on (20 R446) -/
  script : List FlashStep := []
  /-- the flash has finished what it does: the next poll reads bit 0 clear -/
  ready : Bool := false
  /-- `now` of the end of the transfer that programmed the page being polled -/
  pageAt : Option Nat := none
  /-- a stopped transfer that shifts its last bit, cut to the bits shifted, and that bit (22 R478) -/
  tail : Option (AuxRun × Bool) := none
  /-- `now` of the last rise of AUX_SELV_N -/
  freeAt : Option Nat := none
  deriving DecidableEq, Repr

/-- The MNT port (22 R480 to R489). -/
structure Mnt where
  aborted : Bool := false
  crcBad : Bool := false
  pageEnd : Bool := false
  badCmd : Bool := false
  cntAborted : Nat := 0
  cntCrc : Nat := 0
  cntNotReady : Nat := 0
  cntBadCmd : Nat := 0
  reads : Nat := 0
  writes : Nat := 0
  /-- the STATUS byte and the data words last sent on MNT_SDO -/
  status : Byte := 0
  sent : List Word := []
  deriving DecidableEq, Repr

/-- Power, straps and resets (23). -/
structure Power where
  straps : Straps := ⟨false, 0, 0⟩
  /-- rails that are not valid (R490) -/
  badRails : List Nat := []
  /-- the pins are in their safe states: the 1 ms point has passed (R494) -/
  pinsSafe : Bool := false
  perst : Bool := true
  /-- `now` at entry to SERVICE, once the device has entered it (R494) -/
  service : Option Nat := none
  /-- GLB_BOOT (R500) -/
  lastReset : Nat := 0
  ready : Bool := false
  hostResets : Nat := 0
  /-- readiness follows the link's training (R495), not R498 -/
  atTraining : Bool := true
  scratch : BitVec 64 := 0
  deriving DecidableEq, Repr

/-- The test access port (25 R522 to R524). -/
structure Tap where
  /-- the current instruction -/
  ir : Byte := 0x01
  /-- a pin-driving instruction is current and holds the link down -/
  driving : Bool := false
  /-- the boundary register -/
  boundary : BitVec 1142 := 0
  /-- the register between TDI and TDO: 0 bypass, 1 IDCODE, 2 boundary -/
  selected : Nat := 1
  /-- the value captured in the IDCODE or bypass register -/
  captured : BitVec 32 := 0
  deriving DecidableEq, Repr

/-! ### The whole machine -/

/-- The reasons a run could stop. No command of this block has one: every meaning ends in a next state. -/
inductive Fault where
  /-- Raised by nothing: the spec gives every command of the table an effect. Safe. -/
  | unused
  deriving DecidableEq, Repr

/-- Why a command has no meaning. -/
inductive Refusal where
  /-- Raised by `exec`'s refused arms only, of which none is left. Safe. -/
  | notModelled (mnemonic : String)
  deriving DecidableEq, Repr

/-- The state of the block. -/
structure State where
  /-- commands that wait, first in, first out -/
  pending : List Instr := []
  /-- elapsed TCLK ticks since power-up: the model's own clock (log entry 2) -/
  now : Nat := 0
  /-- the index of the next free value: the model's own field (log entry 3) -/
  free : Nat := 0
  /-- tick number (07 R143); 0 until SERVICE (24 R504) -/
  tick : BitVec 64 := 0
  /-- what an alignment or epoch has added to the tick number below one tick, 2^-16 tick: the stamp time of a TCLK edge is its
  tick number and this fraction (07 R143; 16 R372 step 8, R381) -/
  tickFrac : BitVec 16 := 0
  pwr : Power := {}
  sweep : Sweep := {}
  csq : Csq := {}
  host : HostIf := {}
  stg : Staging := {}
  chans : Tab Chan := []
  lgs : Tab LaneGroup := []
  pmu : List PmuRun := []
  sectors : Tab Sector := []
  sites : Tab SiteRun := []
  /-- admitted and running bursts, by the slot of their BURST (06 R109, R123) -/
  bursts : Tab (Option Burst) := []
  /-- the sector whose fail capture queue drained last (06 R136) -/
  drainAt : Nat := 7
  streams : Tab StampStream := []
  /-- the channel the merger served last (07 R157) -/
  mergeAt : Nat := 511
  /-- when the merger may take its next record, in fifths of a tick: one per ns (07 R157) -/
  mergeNext : Nat := 0
  digs : Tab Dig := []
  tus : Tab TrigUnit := []
  tb : Tab TbLine := []
  awgs : Tab Awg := []
  dcss : Tab Dcs := []
  engs : Tab Engine := []
  mem : Mem := {}
  flt : Flt := {}
  thm : Thm := {}
  cal : Cal := {}
  grp : Grp := {}
  aux : Aux := {}
  mnt : Mnt := {}
  tap : Tap := {}
  deriving DecidableEq, Repr

/-- The machine right after the rising edge of PWR_OK with every rail valid, before the 1 ms point of 23 R494, with every
strap open (23 R493; log entry 1) and PERST_N asserted (log entry 1). -/
def State.reset : State := {}

end Sys2Proof.Machine
end

