-- ==== Sys2Proof/Machine/Ops.lean ====
section
/-! DEFINITION. The named operations over the state that every command shares: access to the units, free values, events,
messages to the host, completions, refusals, and DDR5. -/

namespace Sys2Proof.Machine

open Sys2Proof

/-- The stamp time of the present TCLK edge, 2^-16 tick (07 R143). -/
def stampNow (s : State) : Nat := s.tick.toNat * 65536 + s.tickFrac.toNat

/-! ### Access to the units -/

/-- Channel n (00 R1). -/
def State.chan (s : State) (n : Nat) : Chan := Tab.get {} s.chans n
/-- Replace channel n. -/
def State.setChan (s : State) (n : Nat) (c : Chan) : State := { s with chans := Tab.set {} s.chans n c }
/-- Update channel n. -/
def State.updChan (s : State) (n : Nat) (f : Chan → Chan) : State := s.setChan n (f (s.chan n))

/-- Lane group L (00 R1). -/
def State.lg (s : State) (n : Nat) : LaneGroup := Tab.get {} s.lgs n
/-- Update lane group L. -/
def State.updLg (s : State) (n : Nat) (f : LaneGroup → LaneGroup) : State :=
  { s with lgs := Tab.set {} s.lgs n (f (s.lg n)) }

/-- Sector n (00 R1). -/
def State.sec (s : State) (n : Nat) : Sector := Tab.get {} s.sectors n
/-- Replace sector n. -/
def State.setSec (s : State) (n : Nat) (c : Sector) : State := { s with sectors := Tab.set {} s.sectors n c }
/-- Update sector n. -/
def State.updSec (s : State) (n : Nat) (f : Sector → Sector) : State := s.setSec n (f (s.sec n))

/-- Site n in the present burst (06 R132). -/
def State.site (s : State) (n : Nat) : SiteRun := Tab.get {} s.sites n
/-- Update site n. -/
def State.updSite (s : State) (n : Nat) (f : SiteRun → SiteRun) : State :=
  { s with sites := Tab.set {} s.sites n (f (s.site n)) }

/-- The burst of a BURST's slot (06 R123). -/
def State.burst (s : State) (id : Nat) : Option Burst := Tab.get none s.bursts id
/-- Update a burst. -/
def State.updBurst (s : State) (id : Nat) (f : Burst → Burst) : State :=
  match s.burst id with
  | some b => { s with bursts := Tab.set none s.bursts id (some (f b)) }
  | none => s

/-- Stamp stream n (07 R158). -/
def State.stream (s : State) (n : Nat) : StampStream := Tab.get {} s.streams n
/-- Update stamp stream n. -/
def State.updStream (s : State) (n : Nat) (f : StampStream → StampStream) : State :=
  { s with streams := Tab.set {} s.streams n (f (s.stream n)) }

/-- Digitizer n (09). -/
def State.dig (s : State) (n : Nat) : Dig := Tab.get {} s.digs n
/-- Update digitizer n. -/
def State.updDig (s : State) (n : Nat) (f : Dig → Dig) : State :=
  { s with digs := Tab.set {} s.digs n (f (s.dig n)) }

/-- Trigger unit n (09). -/
def State.tu (s : State) (n : Nat) : TrigUnit := Tab.get {} s.tus n
/-- Update trigger unit n. -/
def State.updTu (s : State) (n : Nat) (f : TrigUnit → TrigUnit) : State :=
  { s with tus := Tab.set {} s.tus n (f (s.tu n)) }

/-- Trigger bus line n (09 R192). -/
def State.line (s : State) (n : Nat) : TbLine := Tab.get {} s.tb n
/-- Update trigger bus line n. -/
def State.updLine (s : State) (n : Nat) (f : TbLine → TbLine) : State :=
  { s with tb := Tab.set {} s.tb n (f (s.line n)) }

/-- Waveform source n (10). -/
def State.awg (s : State) (n : Nat) : Awg := Tab.get {} s.awgs n
/-- Update waveform source n. -/
def State.updAwg (s : State) (n : Nat) (f : Awg → Awg) : State :=
  { s with awgs := Tab.set {} s.awgs n (f (s.awg n)) }

/-- Synthesizer n (11). -/
def State.dcs (s : State) (n : Nat) : Dcs := Tab.get {} s.dcss n
/-- Update synthesizer n. -/
def State.updDcs (s : State) (n : Nat) (f : Dcs → Dcs) : State :=
  { s with dcss := Tab.set {} s.dcss n (f (s.dcs n)) }

/-- Engine n (12). -/
def State.eng (s : State) (n : Nat) : Engine := Tab.get {} s.engs n
/-- Update engine n. -/
def State.updEng (s : State) (n : Nat) (f : Engine → Engine) : State :=
  { s with engs := Tab.set {} s.engs n (f (s.eng n)) }

/-- Context c (17 R384). -/
def State.ctx (s : State) (n : Nat) : Ctx := Tab.get {} s.csq.ctxs n
/-- Update context c. -/
def State.updCtx (s : State) (n : Nat) (f : Ctx → Ctx) : State :=
  { s with csq.ctxs := Tab.set {} s.csq.ctxs n (f (s.ctx n)) }

/-- The fetched descriptor in slot id (13 R294). -/
def State.slot (s : State) (id : Nat) : Option Slot := Tab.get none s.csq.slots id
/-- Update the descriptor in slot id. -/
def State.updSlot (s : State) (id : Nat) (f : Slot → Slot) : State :=
  match s.slot id with
  | some sl => { s with csq.slots := Tab.set none s.csq.slots id (some (f sl)) }
  | none => s

/-- The table of a ring kind (13 R290). -/
def State.rings (s : State) : RingKind → Tab Ring
  | .sq => s.host.sq
  | .cq => s.host.cq
  | .eq => s.host.eq
  | .str => s.host.str
/-- One ring. -/
def State.ring (s : State) (k : RingKind) (n : Nat) : Ring := Tab.get {} (s.rings k) n
/-- Replace one ring. -/
def State.setRing (s : State) (k : RingKind) (n : Nat) (r : Ring) : State :=
  let t := Tab.set {} (s.rings k) n r
  match k with
  | .sq => { s with host.sq := t }
  | .cq => { s with host.cq := t }
  | .eq => { s with host.eq := t }
  | .str => { s with host.str := t }
/-- Update one ring. -/
def State.updRing (s : State) (k : RingKind) (n : Nat) (f : Ring → Ring) : State := s.setRing k n (f (s.ring k n))

/-- A staged set (15 R345). -/
def State.set (s : State) (k : Nat) : StagedSet := Tab.get {} s.stg.sets k
/-- Update a staged set. -/
def State.updSet (s : State) (k : Nat) (f : StagedSet → StagedSet) : State :=
  { s with stg.sets := Tab.set {} s.stg.sets k (f (s.set k)) }

/-- Thermal sensor n (19). -/
def State.sensor (s : State) (n : Nat) : Sensor := Tab.get {} s.thm.sensors n
/-- Update thermal sensor n. -/
def State.updSensor (s : State) (n : Nat) (f : Sensor → Sensor) : State :=
  { s with thm.sensors := Tab.set {} s.thm.sensors n (f (s.sensor n)) }

/-- Memory channel m (21). -/
def State.memChan (s : State) (n : Nat) : MemChan := Tab.get {} s.mem.chans n
/-- Update memory channel m. -/
def State.updMemChan (s : State) (n : Nat) (f : MemChan → MemChan) : State :=
  { s with mem.chans := Tab.set {} s.mem.chans n (f (s.memChan n)) }

/-- Window generator g of sector n (07 R150). -/
def State.wg (s : State) (n g : Nat) : WinGen := Tab.get {} (s.sec n).wgs g
/-- Update a window generator. -/
def State.updWg (s : State) (n g : Nat) (f : WinGen → WinGen) : State :=
  s.updSec n fun x => { x with wgs := Tab.set {} x.wgs g (f (Tab.get {} x.wgs g)) }

/-- Run one update per element of a list, in order. -/
def forEach {α : Type} (xs : List α) (s : State) (f : α → State → State) : State := xs.foldl (fun s x => f x s) s

/-- The indices of the listed entries of a table. -/
def Tab.keys {α : Type} (t : Tab α) : List Nat := t.map Prod.fst

/-! ### Free values (log entry 3) -/

/-- The next free value, and the state that has used it. -/
def State.fresh (s : State) : BitVec 64 × State := (Config.freeValue s.free, { s with free := s.free + 1 })

/-- TCLK ticks in one microsecond (02 R32: one tick is 0.625 ns). -/
def usTicks : Nat := 1600

/-- Ticks of one second. -/
def secTicks : Nat := 1600000000

/-! ### Messages to the host (13 R286, R291, R303 to R307) -/

/-- Send a message to the host; in D3hot or without a link it waits (13 R286). -/
def emit (s : State) (m : HMsg) : State :=
  if s.host.d3 || !s.host.up then { s with host.waiting := s.host.waiting ++ [m] }
  else { s with host.out := s.host.out ++ [m] }

/-- The 16 bytes of a completion entry (14 R317; 00 R7). -/
def Completion.bytes (c : Completion) : List Byte :=
  leBytes 2 c.tag ++ leBytes 1 c.ring ++ leBytes 1 (c.status % 128 + 128 * b2n c.late) ++ leBytes 4 c.detail ++
    leBytes 8 c.sweep.toNat

/-- The 16 bytes of an event entry (13 R304; 00 R7). -/
def Event.bytes (e : Event) : List Byte :=
  leBytes 2 e.source ++ leBytes 1 e.kind ++ leBytes 1 e.cause ++ leBytes 4 e.data ++ leBytes 8 e.sweep.toNat

/-- The memory write that a message is: host address and bytes (13 R291, R303, R304, R307, R309). -/
def HMsg.write : HMsg → Nat × List Byte
  | .completion a c => (a, c.bytes)
  | .event a e => (a, e.bytes)
  | .shadow a i => (a, leBytes 4 i)
  | .data a bs _ => (a, bs)
  | .block a bs => (a, bs)
  | .msi _ a d => (a, leBytes 4 d)

/-- The relaxed-ordering attribute of a write: set on result data and stream blocks, clear on entries and shadows (13 R284,
R303, R309). -/
def HMsg.relaxed : HMsg → Bool
  | .data _ _ _ => true
  | .block _ _ => true
  | _ => false

/-- The message of a vector, as its table entry has it (13 R307). -/
def msiMsg (s : State) (v : Nat) : HMsg :=
  .msi v (Tab.get 0 s.host.msixAddr v).toNat (Tab.get 0 s.host.msixData v).toNat

/-- Signal an MSI-X vector: sent, or pending while masked (13 R307). -/
def signal (s : State) (v : Nat) : State :=
  if Tab.get false s.host.msixUnmasked v then emit s (msiMsg s v)
  else { s with host.msixPending := Tab.set false s.host.msixPending v true }

/-- The number of entries of a ring (13 R290). -/
def Ring.size (r : Ring) : Nat := 2 ^ r.log2
/-- The index after i (13 R291). -/
def Ring.after (r : Ring) (i : Nat) : Nat := (i + 1) % r.size
/-- A ring is full when producer + 1 equals the consumer modulo the size (13 R291). -/
def Ring.full (r : Ring) : Bool := r.after r.prod == r.cons
/-- Steps from index i forward to index j. -/
def Ring.dist (r : Ring) (i j : Nat) : Nat := (j + r.size - i) % r.size

/-- Write a shadow; address 0 disables it (13 R291). -/
def writeShadow (s : State) (r : Ring) (i : Nat) : State :=
  if r.shadow = 0 then s else emit s (.shadow r.shadow.toNat i)

/-- Enter one event in EQ q, which has room (13 R304). -/
def putEvent (s : State) (q : Nat) (e : Event) : State :=
  let r := s.ring .eq q
  let s := emit s (.event (r.base.toNat + 16 * r.prod) e)
  let r := { r with prod := r.after r.prod }
  signal (writeShadow (s.setRing .eq q r) r r.prod) r.vector

/-- Count an event lost by a full EQ (13 R306). -/
def loseEvent (s : State) (q : Nat) : State :=
  s.updRing .eq q fun r => { r with count := incSat 16 r.count, lost := incSat 32 r.lost }

/-- Raise an event at a position: routed under 13 R305, lost or preceded by an overflow entry under R306. -/
def postAt (s : State) (id kind cause data : Nat) (pos : Pos) : State :=
  let route := Tab.get 0 s.host.route id
  let q := route % 64
  let r := s.ring .eq q
  if route < 64 || !r.enable then s
  else if r.full then loseEvent s q
  else
    let s1 := if r.lost = 0 then s
      else (putEvent s q ⟨0x0485, 1, 0xFF, r.lost, s.sweep.pos⟩).updRing .eq q fun r => { r with lost := 0 }
    if (s1.ring .eq q).full then loseEvent s1 q
    else putEvent s1 q ⟨id, kind, cause, data % 2 ^ 32, pos⟩

/-- Raise an event at the present position. -/
def post (s : State) (id kind cause data : Nat) : State := postAt s id kind cause data s.sweep.pos

/-- Raise an event of KIND NOTICE. -/
def notice (s : State) (id data : Nat) : State := post s id 1 0xFF data

/-- Raise an event of KIND EVENT. -/
def event (s : State) (id data : Nat) : State := post s id 0 0xFF data

/-! ### Descriptors: header, contexts, completion (13, 14 R311 to R319, 17) -/

/-- OPC (14 R311). -/
def Slot.opc (sl : Slot) : Nat := field sl.bytes 0 1
/-- FLAGS (14 R312). -/
def Slot.flags (sl : Slot) : Nat := field sl.bytes 1 1
/-- TAG. -/
def Slot.tag (sl : Slot) : Nat := field sl.bytes 2 2
/-- SECTOR_MASK. -/
def Slot.secMask (sl : Slot) : Nat := field sl.bytes 4 1
/-- CLASS_MASK. -/
def Slot.clsMask (sl : Slot) : Nat := field sl.bytes 5 1
/-- LATE_POLICY is RUN_LATE. -/
def Slot.runLate (sl : Slot) : Bool := bitOf sl.flags 2
/-- An operand field of `k` bytes at byte `i`. -/
def Slot.op (sl : Slot) (i k : Nat) : Nat := field sl.bytes i k
/-- Whether bytes i to j - 1 are 0. -/
def Slot.zero (sl : Slot) (i j : Nat) : Bool := zeroBytes sl.bytes i j

/-- The status codes of 14 R319. -/
def Status.ok : Nat := 0x00
/-- A field, flag, reserved byte or record content out of range (14 R319). -/
def Status.field : Nat := 0x01
/-- A size that does not fit (14 R319). -/
def Status.length : Nat := 0x02
/-- Contradicts device state or a rule (14 R319). -/
def Status.consistency : Nat := 0x03
/-- Too close or past (14 R319). -/
def Status.late : Nat := 0x04
/-- A declared rate does not fit (14 R319). -/
def Status.budget : Nat := 0x05
/-- Refused while THROTTLE is in force (14 R319). -/
def Status.throttled : Nat := 0x06
/-- Junction outside 20 to 90 °C (14 R319). -/
def Status.tempRange : Nat := 0x07
/-- Outside the claim (14 R319). -/
def Status.claim : Nat := 0x08
/-- A changed epoch at resume (14 R319). -/
def Status.disturbed : Nat := 0x09
/-- Stopped by an abort, a stop, a replaced request or a source change (14 R319). -/
def Status.aborted : Nat := 0x0A
/-- A stream ran short (14 R319). -/
def Status.underrun : Nat := 0x0B
/-- Stopped or prevented by a fault or an absent provider (14 R319). -/
def Status.testerFault : Nat := 0x0C
/-- A site ended with a match timeout (14 R319). -/
def Status.matchTimeout : Nat := 0x0D
/-- A write to an active segment or entry (14 R319). -/
def Status.segmentActive : Nat := 0x0E
/-- A needed domain is in recovery (14 R319). -/
def Status.recovery : Nat := 0x0F
/-- Excluded by the margin plan (14 R319). -/
def Status.margin : Nat := 0x10
/-- A patch image failed its signature check (14 R319). -/
def Status.signature : Nat := 0x11
/-- Reserved to the other role (14 R319). -/
def Status.role : Nat := 0x12

/-- Ring × 2^64 + place in the ring of the descriptor in a slot: whose result data a record or a write is. -/
def slotPlace (s : State) (id : Nat) : Nat := match s.slot id with
  | some sl => sl.ring * 2 ^ 64 + sl.seq
  | none => 0

/-- Whether some fetched descriptor of ring n still waits to end by an abort. -/
def abortPending (s : State) (n : Nat) : Bool :=
  s.csq.slots.any fun p => match p.2 with
    | some sl => sl.ring == n && sl.aborted
    | none => false

/-- End the abort of ring n once its last descriptor has completed: event 0x0500 + n (13 R301). -/
def finishAbort (s : State) (n : Nat) : State :=
  let r := s.ring .sq n
  match r.abortTo with
  | some t =>
    if r.total ≥ t && !abortPending s n then
      event (s.setRing .sq n { r with abortTo := none, aborted := 0 }) (0x0500 + n) r.aborted
    else s
  | none => s

/-- Remove a descriptor from its context: its trap frame, or the context itself (17 R385, R392). -/
def leaveCtx (s : State) (c id : Nat) : State :=
  s.updCtx c fun x =>
    let frames := x.frames.filter fun f => f.slot != some id
    let slot := if x.slot = some id then none else x.slot
    if slot.isNone && frames.isEmpty then {} else { x with slot := slot, frames := frames, due := x.due.filter fun d => d.1 != id }

/-- A free context of CTX0 to CTX6. -/
def freeCtx (s : State) : Option Nat := (List.range 7).find? fun c => !(s.ctx c).busy

/-- The device is HALTED or in SHUTDOWN (18 R408). -/
def State.stopped (s : State) : Bool := s.flt.phase == .halted || s.flt.phase == .shutdown

/-- The completion of a held descriptor: its entry in the bound CQ, the CQ shadow, the vector, its claim and its reserved slot
released (13 R296, R303; 14 R317). -/
def writeCompletion (s : State) (id : Nat) (sl : Slot) (x : Over) : State :=
  let s := match sl.st with
    | .running c => leaveCtx s c id
    | _ => s
  let s := { s with csq.slots := Tab.erase s.csq.slots id }
  let q := (s.ring .sq sl.ring).cq
  let r := s.ring .cq q
  let c : Completion := ⟨sl.tag, sl.ring, x.status, x.late, x.detail % 2 ^ 32, x.sweep⟩
  let s := emit s (.completion (r.base.toNat + 16 * r.prod) c)
  let r := { r with prod := r.after r.prod, count := r.count - 1 }
  let s := writeShadow (s.setRing .cq q r) r r.prod
  let s := if r.irqAll || bitOf sl.flags 1 then signal s r.vector else s
  let s := if sl.aborted then s.updRing .sq sl.ring fun r => { r with aborted := r.aborted + 1 } else s
  finishAbort s sl.ring

/-- The work of a parked descriptor has ended while no context is free: its routine, which completes it, waits for one (17 R385). An
abort, HALTED and SHUTDOWN complete it without. -/
def waitsCtx (s : State) (sl : Slot) : Bool :=
  sl.st == .parked .ending && !sl.aborted && !s.stopped && (freeCtx s).isNone

/-- Complete the descriptor in slot id, once its routine has a context (13 R296, R303; 14 R317; 17 R385): an ending that is decided
stays, but in HALTED and SHUTDOWN. Nothing happens where no such descriptor is held. -/
def complete (s : State) (id status detail : Nat) (sweep : Pos) (late : Bool := false) : State :=
  match s.slot id with
  | none => s
  | some sl =>
    let x : Over := if s.stopped then ⟨status, detail, sweep, late⟩ else sl.outcome.getD ⟨status, detail, sweep, late⟩
    if waitsCtx s sl then s.updSlot id fun y => { y with outcome := some x } else writeCompletion s id sl x

/-- Complete with SWEEP at the present position (14 R317). -/
def done (s : State) (id status detail : Nat) : State := complete s id status detail s.sweep.pos

/-- A refusal: DETAIL 0 unless the opcode states an index (14 R316). -/
def refuse (s : State) (id status : Nat) (detail : Nat := 0) : State := done s id status detail

/-- The first test of a refusal order that fails: its status and DETAIL (14 R314). -/
def firstFail : List (Bool × Nat × Nat) → Option (Nat × Nat)
  | [] => none
  | (b, st, d) :: rest => if b then some (st, d) else firstFail rest

/-- Refuse by the first failing test, or go on (14 R314). -/
def guarded (s : State) (id : Nat) (tests : List (Bool × Nat × Nat)) (ok : State) : State :=
  match firstFail tests with
  | some (st, d) => refuse s id st d
  | none => ok

/-- The items that a routine has done after `k` more of its `n`. -/
def itemsTo (sl : Slot) (k n : Nat) : Nat := min n (sl.progress + k)

/-- A routine has done its items up to `to`: it goes on, or after the last of its `n` items does `fin` (14 R318; 17 R395). -/
def goOn (s : State) (id upTo n : Nat) (fin : State → State) : State :=
  if upTo < n then s.updSlot id fun x => { x with progress := upTo } else fin s

/-- Park the routine of slot id: MX and the micro-PC are saved in its slot, its context is free, its claim stays
(17 R385). -/
def park (s : State) (id : Nat) (w : Wait) : State :=
  match s.slot id with
  | some sl =>
    match sl.st with
    | .running c =>
      let x := s.ctx c
      (leaveCtx s c id).updSlot id fun y => { y with st := .parked w, mx := x.mx, pc := x.pc }
    | _ => s.updSlot id fun x => { x with st := .parked w }
  | none => s

/-- Whether the descriptor in slot id is held and its routine has not completed. -/
def State.holds (s : State) (id : Nat) : Bool := (s.slot id).isSome

/-- Whether slot id is parked for w. -/
def parkedFor (s : State) (id : Nat) (w : Wait) : Bool :=
  match s.slot id with
  | some sl => sl.st == .parked w
  | none => false

/-- Carry out `f` for the descriptor in slot id where its routine runs, untrapped, and `p` names its opcode and action; otherwise
no such operation is under way and nothing changes (log entry 7). In HALTED and SHUTDOWN every descriptor but NOP, FENCE and
LEDGER READ completes TESTER_FAULT (18 R410). -/
def withDesc (s : State) (id : Nat) (p : Slot → Bool) (f : Slot → State) : State :=
  match s.slot id with
  | some sl =>
    match sl.st with
    | .running c =>
      if (s.ctx c).slot == some id && !sl.aborted && p sl then
        if s.stopped && !(sl.opc == 0x00 || sl.opc == 0x01 || (sl.opc == 0x4B && sl.op 8 1 == 0)) then
          refuse s id Status.testerFault
        else f sl
      else s
    | _ => s
  | none => s

/-- The claim covers a class, and for class bit 0 the sectors of a mask (13 R295). -/
def Slot.covers0 (sl : Slot) (secs : Nat) : Bool := bitOf sl.clsMask 0 && (sl.secMask &&& secs) == secs
/-- The claim covers a class bit above 0 (13 R295). -/
def Slot.coversBit (sl : Slot) (b : Nat) : Bool := bitOf sl.clsMask b

/-! ### DDR5 (21) -/

/-- Memory contents: addresses strictly rising, no entry at the value 0 of an unlisted byte (log entry 4). -/
abbrev Memory.wf (m : List Host.Cell) : Bool := Tab.wf (0 : Byte) m

/-- The byte at a DDR5 address; a byte nothing has written reads 0 (log entry 4). -/
def Memory.read (m : List Host.Cell) (a : Nat) : Byte := Tab.get 0 m a

/-- Write one byte, keeping the canonical form. -/
def Memory.write (m : List Host.Cell) (a : Nat) (b : Byte) : List Host.Cell := Tab.set 0 m a b

/-- Write bytes at consecutive addresses. -/
def Memory.writeBytes : List Host.Cell → Nat → List Byte → List Host.Cell
  | m, _, [] => m
  | m, a, b :: rest => Memory.writeBytes (Memory.write m a b) (a + 1) rest

/-- Read `n` bytes at consecutive addresses. -/
def Memory.readBytes (m : List Host.Cell) (a : Nat) : Nat → List Byte
  | 0 => []
  | n + 1 => Memory.read m a :: Memory.readBytes m (a + 1) n

/-- Write bytes to DDR5; the beats of 4 bytes that the write supplies whole are good again (21 R468). -/
def ddrWrite (s : State) (a : Nat) (bs : List Byte) : State :=
  let keep (b : Nat) : Bool := !(a ≤ 4 * b && 4 * b + 4 ≤ a + bs.length)
  { s with mem.cells := Memory.writeBytes s.mem.cells a bs, mem.poison := s.mem.poison.filter keep,
           mem.bad := s.mem.bad.filter keep, mem.single := s.mem.single.filter keep }

/-- Read bytes from DDR5. -/
def ddrRead (s : State) (a n : Nat) : List Byte := Memory.readBytes s.mem.cells a n

/-- Whether a range meets a beat that is poisoned or uncorrectable (21 R468, R470). -/
def ddrBad (s : State) (a n : Nat) : Bool :=
  (s.mem.poison ++ s.mem.bad).any fun b => a ≤ 4 * b + 3 && 4 * b < a + n

/-- DDR5 is trained and in service (01 R24). -/
def State.memUp (s : State) : Bool := s.mem.st == .inService

/-! ### Phases, roles and the tick -/

/-- Every rail is valid, and the pins have been placed in their safe states: no pin is held high-impedance (23 R491, R494). -/
def pinsDriven (s : State) : Bool := s.pwr.badRails.isEmpty && s.pwr.pinsSafe

/-- The device has entered SERVICE: the tick number and the sweep run from then on (23 R494). -/
def State.running (s : State) : Bool := s.pwr.service.isSome

/-- The position as a number. -/
def State.posN (s : State) : Nat := s.sweep.pos.toNat

/-- P − S modulo 2^64 (02 R26). -/
def ahead (s p : Pos) : Nat := (p - s).toNat

/-- P lies in the future of S (02 R26). -/
def isFuture (s p : Pos) : Bool := 0 < ahead s p && ahead s p < 2 ^ 63

/-- P lies in the past of S (02 R26). -/
def isPast (s p : Pos) : Bool := 2 ^ 63 ≤ ahead s p

end Sys2Proof.Machine
end

