-- ==== Sys2Proof/Machine/Operands.lean ====
section
/-! DEFINITION. Setting records: their object classes, parameters, ranges and reset values (15 R342 to R344 and the owning
rules), the applied image, the image of 15 R348, and the unit conversions that every chapter uses. -/

namespace Sys2Proof.Machine

open Sys2Proof

/-- TARGET: [31:24] object class, [23:12] index, [11:0] parameter (15 R342). -/
def targetOf (cls idx par : Nat) : Nat := cls * 2 ^ 24 + idx * 2 ^ 12 + par
/-- The object class of a TARGET. -/
def tCls (t : Nat) : Nat := bits t 31 24
/-- The index of a TARGET. -/
def tIdx (t : Nat) : Nat := bits t 23 12
/-- The parameter of a TARGET. -/
def tPar (t : Nat) : Nat := bits t 11 0

/-- Lowest value, highest value and reset value of a parameter; none where the owning rule lists no such parameter. -/
abbrev ParamSpec := Option (Int × Int × Int)

/-- Channel parameters: 03 R69, 04 R87, 07 R162, 08 R171. -/
def chanParam (p : Nat) : ParamSpec :=
  if p == 0x001 then some (0, 2, 0)
  else if (0x002 ≤ p && p ≤ 0x006) || p == 0x00A then some (-1500000, 7000000, 0)
  else if p == 0x007 then some (0, 60000, 8000)
  else if p == 0x008 || p == 0x009 then some (0, 24000000, 0)
  else if p == 0x00B then some (0, 2, 0)
  else if p == 0x00C then some (0, 3, 0)
  else if p == 0x00D || p == 0x00E then some (0, 1, 0)
  else if p == 0x00F then some (1, 1, 0)
  else if p == 0x010 then some (0, 1, 0)
  else if p == 0x011 then some (0, 4, 0)
  else if p == 0x012 then some (0, 7, 0)
  else if p == 0x013 then some (0, 1, 0)
  else if p == 0x101 || p == 0x103 then some (-2500000, 2500000, 0)
  else if p == 0x102 then some (-500000, 500000, 0)
  else if p == 0x201 then some (0, 2, 0)
  else if p == 0x202 then some (1, 15, 15)
  else if p == 0x203 then some (0, 4095, 0)
  else if p == 0x204 then some (0, 1, 0)
  else if p == 0x205 then some (0, 3, 0)
  else if p == 0x206 then some (-2500000, 2500000, 0)
  else if p == 0x301 then some (0, 2, 0)
  else if p == 0x302 then some (0, 4, 4)
  else if p == 0x303 then some (-1500000, 7000000, 0)
  else if p == 0x304 then some (-40000000, 40000000, 0)
  else if p == 0x305 then some (0, 40000000, 40000000)
  else if p == 0x306 then some (-40000000, 0, -40000000)
  else if p == 0x307 then some (-1500000, 7000000, 7000000)
  else if p == 0x308 then some (-1500000, 7000000, -1500000)
  else none

/-- Timing-set edge and format parameters by code e (04 R78, R79). -/
def edgeParam (e : Nat) : ParamSpec :=
  if e == 0 then some (0, 4, 0) else if e ≤ 8 then some (0, 1048640000000, 0) else none

/-- Timing-set parameters (04 R79). -/
def timParam (p : Nat) : ParamSpec :=
  if p == 0x001 then some (2500000, 1048576000000, 10000000)
  else if 0x400 ≤ p && p < 0x800 then edgeParam (p % 16)
  else if 0x800 ≤ p && p < 0x809 then edgeParam (p - 0x800)
  else none

/-- The largest position as a number. -/
def maxPos : Int := 2 ^ 64 - 1

/-- Trigger-unit parameters (09 R201). -/
def tuParam (p : Nat) : ParamSpec :=
  if p == 0x001 then some (0, 1, 0)
  else if p == 0x002 then some (0, 4, 0)
  else if p == 0x003 then some (0, 255, 0)
  else if p == 0x004 then some (0, 10000000000000000, 0)
  else if p == 0x005 then some (0, 63, 0)
  else if p == 0x006 then some (0, 15, 0)
  else if p == 0x007 then some (0, 7, 0)
  else if p == 0x008 then some (1, 255, 1)
  else if p == 0x009 then some (0, 1, 0)
  else if p == 0x00A then some (0, 1023, 0)
  else if p == 0x00B || p == 0x00C then some (0, 15, 0)
  else if 0x100 ≤ p && p < 0x140 then
    match p % 16 with
    | 0 => some (0, 5, 0)
    | 1 => some (0, 0x5F, 0)
    | 2 => some (0, 3, 0)
    | 3 => some (0, 2, 0)
    | 4 => some (0, 10000000000000000, 0)
    | 5 => some (0, 10000000000000000, 0)
    | _ => none
  else none

/-- AWG parameters (10 R241). -/
def awgParam (p : Nat) : ParamSpec :=
  match p with
  | 0x001 => some (0, 1, 0)
  | 0x002 => some (2000000, 20000000, 2000000)
  | 0x003 => some (0, 2, 1)
  | 0x004 => some (0, 1, 0)
  | 0x005 => some (0, 127, 0)
  | 0x006 => some (-32768, 32767, 0)
  | 0x007 => some (0, 1, 0)
  | 0x008 => some (0, 7, 0)
  | 0x009 => some (0, 7, 0)
  | 0x00A => some (1, 255, 1)
  | 0x00B => some (0, 15, 0)
  | 0x00C => some (0, 1, 0)
  | 0x00D => some (0, 7, 0)
  | 0x00E => some (0, 400000000000, 0)
  | 0x00F => some (0, 65535, 0)
  | 0x010 => some (0, 32767, 0)
  | 0x011 => some (-32768, 32767, 0)
  | 0x012 => some (0, 1, 0)
  | _ => none

/-- Digitizer parameters (09 R190). -/
def digParam (p : Nat) : ParamSpec :=
  match p with
  | 0x001 => some (0, 1, 0)
  | 0x002 => some (0, 127, 0)
  | 0x003 => some (0, 2, 2)
  | 0x004 => some (-5000000, 7000000, 0)
  | 0x005 => some (0, 16, 0)
  | 0x006 => some (-32768, 32767, -16384)
  | 0x007 => some (-32768, 32767, 16384)
  | 0x008 => some (0, 4096, 64)
  | _ => none

/-- Synthesizer parameters (11 R244). -/
def dcsParam (p : Nat) : ParamSpec :=
  match p with
  | 0x001 => some (1, 64, 1)
  | 0x002 => some (80, 10240, 80)
  | 0x003 => some (4, 2000, 40)
  | 0x004 => some (0, 4, 2)
  | 0x005 => some (0, 1, 0)
  | 0x006 => some (0, 1, 0)
  | 0x007 => some (1, 65535, 1000)
  | _ => none

/-- Sweep parameters (02 R29). The source in force at entry to SERVICE is written into the image there. -/
def sweepParam (p : Nat) : ParamSpec :=
  match p with
  | 0x001 => some (0, 2, 0)
  | 0x002 => some (3, 1024, 60)
  | 0x003 => some (0, 3, 2)
  | 0x004 => some (0, 2, 0)
  | 0x005 => some (1, 4, 1)
  | 0x006 => some (20, 64, 32)
  | 0x007 => some (0, 1, 0)
  | 0x008 => some (0, 1, 0)
  | 0x009 => some (1000000000000, 10000000000000000, 1000000000000000)
  | 0x00A => some (0, 1, 0)
  | 0x00B => some (0, maxPos, 0)
  | _ => none

/-- Every parameter of every object class: 15 R344 and the owning rules. -/
def paramSpec (cls idx par : Nat) : ParamSpec :=
  match cls with
  | 0x01 => if idx < 512 then chanParam par else none
  | 0x02 => if idx < 64 then
      (if par == 0x001 then some (0, 255, 0) else if par == 0x101 then some (0, 1, 1)
       else if par == 0x102 then some (0, 12, 4) else none) else none
  | 0x03 => if idx < 8 then
      (if 0x100 ≤ par && par < 0x140 then some (1, 16777215, 1)
       else if 0x200 ≤ par && par < 0x240 then some (0, maxPos, 0) else none) else none
  | 0x04 => if idx < 512 then timParam par else none
  | 0x05 => if idx < 256 then
      (if par == 1 then some (0, 1, 0) else if par == 2 then some (0, 4294967295, 0)
       else if par == 3 then some (0, 65535, 65535) else none) else none
  | 0x06 => if idx < 16 then awgParam par else none
  | 0x07 => if idx < 16 then digParam par else none
  | 0x08 => if idx < 16 then tuParam par else none
  | 0x09 => if idx < 8 then dcsParam par else none
  | 0x0A => if idx < 1 then sweepParam par else none
  | 0x0B => if idx < 64 then
      (if par == 1 then some (0, 6, 0) else if par == 2 then some (0, 137437904896, 0)
       else if par == 3 then some (0, 137438953472, 0) else none) else none
  | 0x0C => if idx < 256 && idx % 16 < 12 then (if par == 1 then some (0, 1, 1) else none) else none
  | _ => none

/-- The reset value of a TARGET. -/
def resetVal (t : Nat) : Int :=
  match paramSpec (tCls t) (tIdx t) (tPar t) with
  | some (_, _, r) => r
  | none => 0

/-- The step that a value must be a multiple of: HYS 4,000 (03 R69), region BASE and SIZE 1,048,576 (21 R465). -/
def paramStep (cls par : Nat) : Nat :=
  if cls == 0x01 && par == 0x007 then 4000
  else if cls == 0x0B && (par == 2 || par == 3) then 1048576
  else 1

/-- Whether a SOURCE code of a trigger slot is one that 09 R192 lists. -/
def tuSourceOk (v : Int) : Bool :=
  (0 ≤ v && v ≤ 0x43) || v == 0x48 || (0x50 ≤ v && v ≤ 0x53) || (0x58 ≤ v && v ≤ 0x5F)

/-- VALUE as the quantity's encoding reads it (15 R343): signed where the range has negative values. -/
def readValue (t raw : Nat) : Int :=
  match paramSpec (tCls t) (tIdx t) (tPar t) with
  | some (lo, _, _) => if lo < 0 then toSigned 64 raw else (raw : Int)
  | none => (raw : Int)

/-- A record's target and value pass the rules of its owning chapter (14 R324 test 4). -/
def recordOk (t : Nat) (v : Int) : Bool :=
  match paramSpec (tCls t) (tIdx t) (tPar t) with
  | some (lo, hi, _) =>
    lo ≤ v && v ≤ hi && v % (paramStep (tCls t) (tPar t) : Int) == 0 &&
      (!(tCls t == 0x08 && 0x100 ≤ tPar t && tPar t % 16 == 1) || tuSourceOk v)
  | none => false

/-- A record of 16 bytes as read from host memory: its target and value, and whether FLAGS is 0 (15 R342). -/
def readRec (bs : List Byte) : Rec × Bool :=
  let t := field bs 0 4
  (⟨t, readValue t (field bs 4 8)⟩, field bs 12 4 == 0)

/-- The settings a record writes: an all-channel timing record counts as 64 per-channel records (04 R79). -/
def expand (r : Rec) : List (Nat × Int) :=
  if tCls r.target == 0x04 && 0x800 ≤ tPar r.target then
    (List.range 64).map fun c => (targetOf 0x04 (tIdx r.target) (0x400 + 16 * c + (tPar r.target - 0x800)), r.value)
  else [(r.target, r.value)]

/-! ### The applied image -/

/-- The value an image holds for a TARGET. -/
def imgGet (img : List (Nat × Int)) (t : Nat) : Int := Tab.get (resetVal t) img t

/-- Write one value into an image; a value equal to the reset value is not listed. -/
def imgSet (img : List (Nat × Int)) (t : Nat) (v : Int) : List (Nat × Int) := Tab.set (resetVal t) img t v

/-- An image with records placed over it, the later record setting the value (15 R346). -/
def imgRecs (img : List (Nat × Int)) (rs : List Rec) : List (Nat × Int) :=
  rs.foldl (fun img r => (expand r).foldl (fun img p => imgSet img p.1 p.2) img) img

/-- The applied value of a parameter. -/
def State.setting (s : State) (cls idx par : Nat) : Int := imgGet s.stg.image (targetOf cls idx par)

/-- The applied value of a parameter whose range has no negative values. -/
def State.settingN (s : State) (cls idx par : Nat) : Nat := (s.setting cls idx par).toNat

/-- Write one applied setting. -/
def State.setSetting (s : State) (cls idx par : Nat) (v : Int) : State :=
  { s with stg.image := imgSet s.stg.image (targetOf cls idx par) v }

/-- Signed distance from the sweep to a position, for ordering (02 R26, R41). -/
def orderKey (s p : Pos) : Nat := (ahead s p + 2 ^ 63) % 2 ^ 64

/-- Insert an action behind every one that is not later (02 R41). -/
def insertAct (now : Pos) (a : Action) : List Action → List Action
  | [] => [a]
  | b :: rest => if orderKey now a.pos < orderKey now b.pos then a :: b :: rest else b :: insertAct now a rest

/-- Actions in the order in which they take effect: by position, then by admission (02 R41). -/
def sortActs (now : Pos) (acts : List Action) : List Action := acts.foldl (fun l a => insertAct now a l) []

/-- The image of 15 R348 for an apply at `at'`: the applied image with every admitted APPLY whose position is earlier or
equal taken in; with none for a position, every admitted APPLY. `skip` names the slot of an APPLY left out. -/
def imageFor (s : State) (at' : Option Pos) (skip : Option Nat) : List (Nat × Int) :=
  let due (a : Action) : Bool :=
    match at' with
    | some p => orderKey s.sweep.pos a.pos ≤ orderKey s.sweep.pos p
    | none => true
  (sortActs s.sweep.pos s.stg.sched).foldl (fun img a =>
    match a.kind with
    | .apply k => if due a && !(skip.isSome && a.slot == skip) then imgRecs img (s.set k).recs else img
    | _ => img) s.stg.image

/-! ### Conversions -/

/-- Femtoseconds to edge steps (04 R73). -/
def stepsOf (fs : Int) : Int := roundDiv (fs * 256) 625000
/-- Effective femtoseconds of edge steps, rounded toward zero (04 R73). -/
def fsOf (steps : Int) : Int := truncDiv (steps * 625000) 256
/-- Femtoseconds to stamp units, 2^-16 tick (09 R195). -/
def stampUnits (fs : Int) : Int := roundDiv (fs * 65536) 625000
/-- Code of a level in microvolts (03 R46). -/
def levelCode (uv : Int) : Int := roundDiv ((uv + 1500000) * 7710) 1000000
/-- Effective microvolts of a level code, to the nearest (03 R46). -/
def levelUv (code : Int) : Int := roundDiv (code * 1000000 - 1500000 * 7710) 7710
/-- Code of a load current in nanoamperes (03 R47). -/
def loadCode (na : Int) : Int := roundDiv (na * 65535) 24000000
/-- Effective nanoamperes of a load code (03 R47). -/
def loadNa (code : Int) : Int := roundDiv (code * 24000000) 65535
/-- Full scale of a PMU range in nanoamperes (08 R167). -/
def pmuFs (r : Nat) : Nat := if r == 4 then 40000000 else 2000 * 10 ^ r
/-- Code of a forced current (08 R168). -/
def forceCode (na : Int) (fs : Nat) : Int := roundDiv (na * 32767) fs
/-- Effective current of a force code (08 R168). -/
def forceNa (code : Int) (fs : Nat) : Int := roundDiv (code * fs) 32767
/-- Code of the AWG full scale (10 R220). -/
def awgFsCode (na : Int) : Int := roundDiv ((na - 2000000) * 4095) 18000000

end Sys2Proof.Machine
end

