-- ==== Sys2Proof/Machine/Checks.lean ====
section
/-! DEFINITION. The checks of a staged set (15 R348): the rules of every owning chapter, made with the values that every
object will hold after the set's records. -/

namespace Sys2Proof.Machine

open Sys2Proof

/-! ### Channels and lane groups (03 R71, 08 R171, R172) -/

/-- The side of a clamp that acts: the staged value or the full scale, whichever is smaller in magnitude (08 R169). -/
def clampSide (v : Int) (fs : Nat) : Nat := min v.natAbs fs

/-- The current bound of a channel that forces with a mode, range and forced current (08 R172). -/
def forceBound (img : List (Nat × Int)) (ch mode range : Nat) (force : Int) : Nat :=
  let fs := pmuFs range
  match mode with
  | 0 => max (clampSide (imgGet img (targetOf 1 ch 0x305)) fs) (clampSide (imgGet img (targetOf 1 ch 0x306)) fs)
  | 1 => force.natAbs
  | _ => 0

/-- The static current bound of a channel: 0 unless its MODE in the image is PMU (08 R172). -/
def chanBound (img : List (Nat × Int)) (ch : Nat) : Nat :=
  if imgGet img (targetOf 1 ch 0x001) == 2 then
    forceBound img ch (imgGet img (targetOf 1 ch 0x301)).toNat (imgGet img (targetOf 1 ch 0x302)).toNat
      (imgGet img (targetOf 1 ch 0x304))
  else 0

/-- The sum of the static bounds of a lane group, one channel left out. -/
def lgBound (img : List (Nat × Int)) (lg : Nat) (skip : Option Nat) : Nat :=
  ((List.range 8).map fun j => if skip == some (8 * lg + j) then 0 else chanBound img (8 * lg + j)).sum

/-- The limit of 08 R172: 160 mA. -/
def lgLimit : Nat := 160000000

/-- A PMU_LIST item's channel, mode, range, value, settle time, averaging and limit entry (08 R178). -/
def itemChan (it : List Byte) : Nat := field it 0 2
/-- MODE of an item. -/
def itemMode (it : List Byte) : Nat := field it 2 1
/-- RANGE of an item. -/
def itemRange (it : List Byte) : Nat := field it 3 1
/-- VALUE of an item. -/
def itemValue (it : List Byte) : Int := fieldS it 4 4

/-- Whether an item breaks the lane-group limit under an image (08 R179 test 4). -/
def itemOver (img : List (Nat × Int)) (it : List Byte) : Bool :=
  let ch := itemChan it
  lgBound img (ch / 8) (some ch) + forceBound img ch (itemMode it) (itemRange it) (itemValue it) > lgLimit

/-- Items of admitted lists that have not started, with the lane group of each (08 R172). -/
def waitingItems (s : State) : List (List Byte) :=
  s.pmu.flatMap fun run => ((run.items.zip run.results).zipIdx.filter fun p =>
      p.1.2.isNone && (s.lg (itemChan p.1.1 / 8)).item != some (run.slot, p.2)).map fun p => p.1.1

/-- The lane-group current test, with admitted items (08 R172). -/
def lgFails (s : State) (img : List (Nat × Int)) (lg : Nat) : Bool :=
  lgBound img lg none > lgLimit ||
    (waitingItems s).any fun it => itemChan it / 8 == lg && itemOver img it

/-! ### Timing sets (04 R81) -/

/-- A timing-set value in edge steps. -/
def tsSteps (img : List (Nat × Int)) (ts par : Nat) : Int := stepsOf (imgGet img (targetOf 4 ts par))

/-- The window order rule of 04 R81 for one channel of one timing set. -/
def windowFails (img : List (Nat × Int)) (ts c : Nat) : Bool :=
  let e (k : Nat) : Int := tsSteps img ts (0x400 + 16 * c + k)
  imgGet img (targetOf 1 (64 * (ts / 64) + c) 0x010) == 1 && (e 5 > e 6 || e 6 - e 5 > tsSteps img ts 1)

/-- The rules of 04 R81 for one channel of one timing set. -/
def tsChanFails (img : List (Nat × Int)) (ts c : Nat) : Bool :=
  let period := tsSteps img ts 1
  let e (k : Nat) : Int := tsSteps img ts (0x400 + 16 * c + k)
  let fmt := imgGet img (targetOf 4 ts (0x400 + 16 * c))
  (List.range 8).any (fun k => e (k + 1) > period + 26214) ||
    (fmt ≤ 3 && e 1 > e 2) || ((fmt == 1 || fmt == 2) && (e 3 - e 2 < 512 || e 2 + period - e 3 < 512)) ||
    (fmt == 3 && (e 2 - e 1 < 512 || e 3 - e 2 < 512 || e 1 + period - e 3 < 512)) || (fmt == 4 && e 2 > e 4) || e 7 > e 8 ||
    windowFails img ts c

/-- Whether any channel of a timing set breaks a rule. -/
def tsFails (img : List (Nat × Int)) (ts : Nat) : Bool := (List.range 64).any fun c => tsChanFails img ts c

/-- A set writes a parameter. -/
def touches (rs : List Rec) (t : Nat) : Bool := rs.any fun r => (expand r).any fun p => p.1 == t

/-- A set has a timing set checked: it touches it, or the COMPARE_MODE of a channel of its sector (04 R81). -/
def checksTs (rs : List Rec) (ts : Nat) : Bool :=
  rs.any fun r => (tCls r.target == 4 && tIdx r.target == ts) ||
    (tCls r.target == 1 && tPar r.target == 0x010 && tIdx r.target / 64 == ts / 64)

/-- A channel takes part in a window order that fails, of a timing set that its record, or its COMPARE_MODE, has checked (04
R81). -/
def chanWindowFails (img : List (Nat × Int)) (rs : List Rec) (ch : Nat) : Bool :=
  (List.range 64).any fun t =>
    let ts := 64 * (ch / 64) + t
    (touches rs (targetOf 1 ch 0x010) || rs.any fun r => tCls r.target == 4 && tIdx r.target == ts) &&
      windowFails img ts (ch % 64)

/-- The checks of a channel but those of its timing sets (03 R71, 08 R171, R172). -/
def chanFails (s : State) (img : List (Nat × Int)) (ch : Nat) : Bool :=
  let g (p : Nat) : Int := imgGet img (targetOf 1 ch p)
  g 3 > g 2 || g 6 > g 5 || (g 0x304).natAbs > pmuFs (g 0x302).toNat || g 0x307 - g 0x308 < 200000 ||
    lgFails s img (ch / 8)

/-! ### Sources, digitizers, trigger units, synthesizers, the sweep -/

/-- The channel that a routed source drives (10 R222). -/
def routeOf (img : List (Nat × Int)) (n : Nat) : Option Nat :=
  if imgGet img (targetOf 6 n 4) == 1 then some (128 * (n / 4) + (imgGet img (targetOf 6 n 5)).toNat) else none

/-- The checks of a source (10 R241). -/
def awgFails (s : State) (img0 img : List (Nat × Int)) (n : Nat) : Bool :=
  let g (p : Nat) : Int := imgGet img (targetOf 6 n p)
  let st := (s.awg n).st
  (g 1 != imgGet img0 (targetOf 6 n 1) && !(st == .idle || st == .cleared || st == .isolated)) ||
    (List.range 16).any (fun m => m != n && (routeOf img n).isSome && routeOf img m == routeOf img n) ||
    (g 4 == 1 && g 3 == 2) || (bitOf (g 8).toNat 2 && g 11 == 0)

/-- The checks of a digitizer (09 R190). -/
def digFails (s : State) (img0 img : List (Nat × Int)) (n : Nat) : Bool :=
  let g (p : Nat) : Int := imgGet img (targetOf 7 n p)
  g 6 > g 7 || (g 5 != imgGet img0 (targetOf 7 n 5) && (s.dig n).dec.isOpen)

/-- Whether a source code is a channel or a digitizer (09 R192). -/
def srcIsSignal (src : Int) : Bool := src < 0x44
/-- Whether a source code is a trigger bus line (09 R192). -/
def srcIsLine (src : Int) : Bool := 0x58 ≤ src

/-- The SEL column of 09 R194 for a KIND and a source. -/
def selOk (kind src sel : Int) : Bool :=
  if kind == 0 then sel == 0
  else if kind == 1 then (if srcIsSignal src then sel ≤ 3 else if srcIsLine src then sel ≤ 1 else sel == 0)
  else if kind == 2 then sel ≤ 3
  else if kind == 4 then sel ≤ 2
  else sel ≤ 1

/-- The checks of a trigger unit (09 R202). -/
def tuFails (img : List (Nat × Int)) (n : Nat) : Bool :=
  let g (p : Nat) : Int := imgGet img (targetOf 8 n p)
  let slot (m k : Nat) : Int := g (0x100 + 16 * m + k)
  let bad (m : Nat) : Bool :=
    !selOk (slot m 0) (slot m 1) (slot m 2) ||
    (slot m 0 > 1 && !srcIsSignal (slot m 1)) ||
    (slot m 3 != 0 && slot m 4 > slot m 5) ||
    (slot m 0 == 4 && (slot m 3 == 0 || slot m 5 == 0 || slot m 4 != 0))
  let gateBad :=
    if g 2 == 0 then g 3 != 0
    else if g 2 ≤ 2 then g 3 > 7
    else if g 2 == 3 then g 3 ≥ 192
    else g 3 > 3
  let acts := (g 5).toNat
  (g 1 == 1 && (List.range 4).all fun m => slot m 0 == 0) || (List.range 4).any bad || gateBad ||
    (bitOf acts 0 && g 6 == 0) || (bitOf acts 3 && g 11 == 0) || (bitOf acts 4 && g 12 == 0)

/-- Loop bandwidth in hertz (11 R244). -/
def dcsBwHz (bw : Int) : Int :=
  if bw == 0 then 100000 else if bw == 1 then 300000 else if bw == 2 then 1000000 else if bw == 3 then 2500000 else 30000

/-- The checks of a synthesizer on M, N, O and BW (11 R245). -/
def dcsRatiosFail (m n o bw : Int) : Bool :=
  n < 80 * m || n > 160 * m || 50 * n < 4 * m * o || 50 * n > 1000 * m * o || dcsBwHz bw * 20 * m > 50000000

/-- The checks of a synthesizer (11 R245). -/
def dcsFails (img : List (Nat × Int)) (n : Nat) : Bool :=
  let g (p : Nat) : Int := imgGet img (targetOf 9 n p)
  dcsRatiosFail (g 1) (g 2) (g 3) (g 4)

/-- The checks of the sweep (02 R30). -/
def sweepFails (img : List (Nat × Int)) : Bool :=
  let g (p : Nat) : Int := imgGet img (targetOf 10 0 p)
  (g 4 != 1 && g 3 == 0) || (g 4 == 1 && g 3 != 0) || (g 5 > 1 && g 4 == 0) || g 2 - g 3 < 3

/-! ### Regions (21 R465, R466) -/

/-- TYPE, BASE and SIZE of a region. -/
def regionOf (img : List (Nat × Int)) (n : Nat) : Nat × Nat × Nat :=
  let g (p : Nat) : Nat := (imgGet img (targetOf 11 n p)).toNat
  (g 1, g 2, g 3)

/-- Two ranges of bytes share a byte. -/
def overlap (a la b lb : Nat) : Bool := a < b + lb && b < a + la && la != 0 && lb != 0

/-- Bytes of one item of a space (12 R261, R275). -/
def engItemBytes (space : Nat) : Nat := if space ≤ 1 then 8 else if space ≤ 3 then 4 else 16

/-- The DDR5 ranges of a running MEM_COPY, MEM_FILL, SEG_LOAD, AWG_WRITE or ENG_LOAD; CAL_USER has none (21 R466). -/
def routineRanges (s : State) : List (Nat × Nat) :=
  s.csq.slots.flatMap fun p => match p.2 with
    | some sl => match sl.st with
      | .running _ => match sl.opc with
        | 0x02 => (if sl.op 8 1 == 0 then [] else [(sl.op 16 8, sl.op 32 8)]) ++
            if sl.op 8 1 == 1 then [] else [(sl.op 24 8, sl.op 32 8)]
        | 0x03 => [(sl.op 16 8, sl.op 24 8)]
        | 0x10 => if sl.op 10 1 != 2 && sl.op 11 1 == 1 then [(sl.op 16 8, 36 * sl.op 12 4)] else []
        | 0x31 => if sl.op 9 1 != 2 && sl.op 12 1 == 1 then [(sl.op 16 8, 2 * sl.op 24 8)] else []
        | 0x40 => if sl.op 10 1 == 1 then [(sl.op 24 8, engItemBytes (sl.op 9 1) * sl.op 16 4)] else []
        | _ => []
      | _ => []
    | none => []

/-- The DDR5 ranges that keep a region in use (21 R466). -/
def rangesInUse (s : State) : List (Nat × Nat) :=
  let segs := (List.range 8).flatMap fun n => (s.sec n).dir.filterMap fun p => match p.2 with
    | some g => if g.kind == 2 then some (g.base, 36 * g.len) else none
    | none => none
  let awgs := (List.range 16).flatMap fun n => (s.awg n).dir.filterMap fun p => match p.2 with
    | some g => if g.kind == 2 then some (g.base, 2 * g.len) else none
    | none => none
  let bursts := s.bursts.filterMap fun p => p.2.map fun b =>
    (b.captureBase, b.captureSize * popcount 8 b.mask)
  let streams := (List.range 16).filterMap fun n =>
    let x := s.stream n
    if x.isOpen then some (x.base, x.size * x.count) else none
  let flows := (List.range 16).flatMap fun n =>
    let d := s.dig n
    [d.raw, d.dec].filterMap fun f => if f.isOpen then some (f.base, f.size) else none
  let outs := (List.range 16).flatMap fun n =>
    let e := s.eng n
    if e.slot.isSome then (List.range 4).map fun p => ((Tab.get {} e.outs p).base, (Tab.get {} e.outs p).size) else []
  let lists := s.pmu.filterMap fun r => match s.slot r.slot with
    | some sl => if sl.op 10 1 == 1 then some (sl.op 24 8, 4 * r.items.length) else none
    | none => none
  segs ++ awgs ++ bursts ++ streams ++ flows ++ outs ++ lists ++ routineRanges s

/-- The checks of a region (21 R466). -/
def regionFails (s : State) (img0 img : List (Nat × Int)) (n : Nat) : Bool :=
  let (t, b, z) := regionOf img n
  let (_, b0, z0) := regionOf img0 n
  (t == 0 && (b != 0 || z != 0)) || (t != 0 && (z == 0 || b + z > s.mem.capacity * 2 ^ 30)) ||
    (List.range 64).any (fun m => m != n && overlap b z (regionOf img m).2.1 (regionOf img m).2.2) ||
    (regionOf img0 n != regionOf img n && (rangesInUse s).any fun r => overlap b0 z0 r.1 r.2)

/-- The region of a type whose bytes hold a range, if one does. -/
def regionHolding (s : State) (types : List Nat) (a len : Nat) : Option Nat :=
  (List.range 64).find? fun n =>
    let (t, b, z) := regionOf s.stg.image n
    types.contains t && b ≤ a && a + len ≤ b + z

/-- Any region type but NONE. -/
def anyType : List Nat := [1, 2, 3, 4, 5, 6]

/-! ### The whole set (15 R348, R350) -/

/-- Whether a check of the object of a TARGET fails with the values of an image. -/
def targetFails (s : State) (img0 img : List (Nat × Int)) (t : Nat) : Bool :=
  let n := tIdx t
  match tCls t with
  | 0x01 => chanFails s img n
  | 0x02 => lgFails s img n
  | 0x04 => tsFails img n
  | 0x06 => awgFails s img0 img n
  | 0x07 => digFails s img0 img n
  | 0x08 => tuFails img n
  | 0x09 => dcsFails img n
  | 0x0A => sweepFails img
  | 0x0B => regionFails s img0 img n
  | _ => false

/-- A record that later ones override in everything it writes takes no part (15 R350). -/
def overridden (r : Rec) (later : List Rec) : Bool :=
  (expand r).all fun p => later.any fun q => (expand q).any fun x => x.1 == p.1

/-- The records that set a value, with their indices in staging order (15 R346, R350). -/
def effective : Nat → List Rec → List (Nat × Rec)
  | _, [] => []
  | i, r :: rest => if overridden r rest then effective (i + 1) rest else (i, r) :: effective (i + 1) rest

/-- A check fails in which the object of a record takes part (15 R350). -/
def recFails (s : State) (img0 img : List (Nat × Int)) (rs : List Rec) (t : Nat) : Bool :=
  targetFails s img0 img t || (tCls t == 1 && chanWindowFails img rs (tIdx t))

/-- A check of any object fails with the values after the set; of the timing sets only those that the set has checked (15 R348; 03
R71; 04 R81; 08 R172). An object whose values are all reset values fails none. -/
def anyFails (s : State) (img0 img : List (Nat × Int)) (rs : List Rec) : Bool :=
  img.any fun p => (tCls p.1 != 4 || checksTs rs (tIdx p.1)) && targetFails s img0 img p.1

/-- The index of the lowest record whose object takes part in a failing check; none when every check passes. Where a check fails in
which no record's object takes part, the index is 0 (DESIGN CHOICE, log entry 82). -/
def checkSet (s : State) (img0 : List (Nat × Int)) (rs : List Rec) : Option Nat :=
  let img := imgRecs img0 rs
  match (effective 0 rs).find? fun p => recFails s img0 img rs p.2.target with
  | some p => some p.1
  | none => if anyFails s img0 img rs then some 0 else none

/-! ### Claims of a set (14 R326) -/

/-- Sectors that hold a channel of a site. -/
def siteSectors (s : State) (site : Nat) : Nat :=
  s.chans.foldl (fun m p => if p.2.site == some site then m ||| 2 ^ (p.1 / 64) else m) 0

/-- CLASS_MASK bit and SECTOR_MASK that a record needs (14 R326). -/
def recClaim (s : State) (t : Nat) : Nat × Nat :=
  let n := tIdx t
  match tCls t with
  | 0x01 => (0, 2 ^ (n / 64))
  | 0x02 => (0, 2 ^ (n / 8))
  | 0x03 => (0, 2 ^ n)
  | 0x04 => (0, 2 ^ (n / 64))
  | 0x05 => (0, siteSectors s n)
  | 0x06 => (1, 0)
  | 0x07 => (2, 0)
  | 0x08 => (0, 2 ^ (n / 2))
  | 0x09 => (3, 0)
  | 0x0A => (0, 255)
  | 0x0B => (5, 0)
  | _ => (4, 0)

/-- The claim covers every record of a set (14 R326). -/
def claimsRecs (s : State) (sl : Slot) (rs : List Rec) : Bool :=
  rs.all fun r =>
    let (b, m) := recClaim s r.target
    if b == 0 then sl.covers0 m else sl.coversBit b

end Sys2Proof.Machine
end

