-- ==== Sys2Proof/Machine/Sched.lean ====
section
/-! DEFINITION. The sweep scheduler: lateness, admission and the ordering of scheduled actions (02 R39 to R42), budgets
(01 R17 to R20), and the fault domains' relation (18 R404, R406). -/

namespace Sys2Proof.Machine

open Sys2Proof

/-! ### Leads (02 R39) -/

/-- The distance that the sweep covers in a lead of `ns`, rounded up: the rate is in 2^-8 fraction units per tick of
0.625 ns (02 R32, R33, R38). -/
def leadUnits (s : State) (ns : Nat) : Nat := (ns * s.sweep.rate + 159) / 160

/-- The position one lead after the present one: IMMEDIATE (14 R327, R329, R330). -/
def afterLead (s : State) (ns : Nat) : Pos := s.sweep.pos + BitVec.ofNat 64 (leadUnits s ns)

/-- The sweep holds in NO_SYNC, LOST or HOLDOVER: only the past test applies (02 R39). -/
def onlyPast (s : State) : Bool :=
  s.sweep.st == .noSync || s.sweep.st == .lost || s.sweep.st == .holdover

/-- The action is late: its position is past, or closer than its lead (02 R39). -/
def isLate (s : State) (p : Pos) (ns : Nat) : Bool :=
  isPast s.sweep.pos p || (!onlyPast s && ahead s.sweep.pos p * 160 < ns * s.sweep.rate)

/-- The scheduler holds 512 pending actions (02 R42). -/
def schedFull (s : State) : Bool := s.stg.sched.length ≥ 512

/-- The place of a request among those of one cycle: priority class, ring, TAG; one without a descriptor goes first (02 R41;
13 R302). -/
def actKey (s : State) (slot : Option Nat) : Nat :=
  match slot.bind s.slot with
  | some sl => ((s.ring .sq sl.ring).cls * 256 + sl.ring) * 65536 + sl.tag + 1
  | none => 0

/-- An action goes before a new one: admitted in an earlier cycle, or of a lower place in the same one (02 R41). -/
def admittedBefore (s : State) (key : Nat) (b : Action) : Bool := !(b.at' == s.now && key < b.key)

/-- Enter an action in the scheduler, in the order of admission (02 R41). -/
def schedule (s : State) (a : Action) : State :=
  let a := { a with at' := s.now, key := actKey s a.slot }
  { s with stg.sched := s.stg.sched.filter (admittedBefore s a.key) ++ a :: s.stg.sched.filter fun b => !admittedBefore s a.key b }

/-- The pending action of a kind. -/
def findAct (s : State) (k : ActKind) : Option Action := s.stg.sched.find? fun a => a.kind == k

/-- Take an action out of the scheduler. -/
def unschedule (s : State) (k : ActKind) : State :=
  { s with stg.sched := s.stg.sched.filter fun a => a.kind != k }

/-- An action is due when its position is no longer in the future, and a start admitted late when its lead has passed as well
(02 R39, R40). -/
def isDue (s : State) (a : Action) : Bool :=
  !isFuture s.sweep.pos a.pos && match a.startAt with
    | some t => decide (t ≤ s.now)
    | none => true

/-- Refuse by the first failing test, or go on into the scheduler; a full scheduler holds the descriptor back before its
lead is checked (02 R42). -/
def guardedSched (s : State) (id : Nat) (scheduled : Bool) (tests : List (Bool × Nat × Nat)) (ok : State) : State :=
  let full := scheduled && schedFull s
  match firstFail tests with
  | some (st, d) => if full && st == Status.late then park s id .scheduler else refuse s id st d
  | none => if full then park s id .scheduler else ok

/-- Rank of an action among those due on one tick: applies, starts and openings, daymarks (02 R41). -/
def actRank : ActKind → Nat
  | .apply _ => 0
  | .daymark => 2
  | .groupDaymark _ => 2
  | _ => 1

/-- A group apply that is not committed on this device: it cannot act (16 R376). -/
def uncommitted (s : State) : ActKind → Bool
  | .apply k =>
    (s.set k).group && !(match s.grp.op with
      | some o => o.committed
      | none => false) && !(match s.grp.worker with
      | some w => w.committed
      | none => false)
  | _ => false

/-- A due action that stays listed without holding any other back: a group apply that is not committed, and a ramp start
whose first step waits for its PFD cycle (11 R251). -/
def waitsAlone (s : State) : ActKind → Bool
  | .dcs _ => true
  | k => uncommitted s k

/-- An action may take effect now: it is due, and no due action goes before it: an earlier rank, or for applies an earlier
admission (02 R40, R41). -/
def mayAct (s : State) (a : Action) : Bool :=
  isDue s a && s.stg.sched.all fun b =>
    waitsAlone s b.kind || !(isDue s b && actRank b.kind < actRank a.kind) &&
    !(actRank a.kind == 0 && actRank b.kind == 0 && isDue s b && b != a &&
      s.stg.sched.findIdx (· == b) < s.stg.sched.findIdx (· == a))

/-- How far the sweep has gone beyond a position, in 2^-8 fraction units, with the part of a unit it carries (02 R33). -/
def beyond (s : State) (p : Pos) : Nat := ahead p s.sweep.pos * 256 + s.sweep.acc

/-- The edge step at which a start at P takes effect: the instant at which the sweep passed P by its present rate, to the
nearest edge step, ties to even; no earlier than the last jump (02 R27, R39). -/
def startStep (s : State) (p : Pos) : Int :=
  if s.sweep.rate = 0 then s.now * 256
  else max (s.now * 256 - roundDiv (beyond s p * 256) s.sweep.rate) (roundDiv s.sweep.jumpAt 256)

/-- The first edge step at or after the instant at which the sweep passed P: by its present rate, no earlier than the last
jump (02 R27, R39). -/
def passStep (s : State) (p : Pos) : Int :=
  let jump : Int := ((s.sweep.jumpAt + 255) / 256 : Nat)
  if s.sweep.rate = 0 then jump
  else max (s.now * 256 - ((beyond s p * 256 / s.sweep.rate : Nat) : Int)) jump

/-- The instant at which the sweep passed P, in 2^-16 ticks of `now`: by its present rate, no earlier than the last jump
(02 R27, R40; 07 R151). -/
def passTime (s : State) (p : Pos) : Int :=
  if s.sweep.rate = 0 then s.now * 65536
  else max (s.now * 65536 - roundDiv (beyond s p * 65536) s.sweep.rate) s.sweep.jumpAt

/-- The edge step at which an action takes effect; of a late start the first one at or after the later of P and its lead
(02 R37, R39). -/
def actStep (s : State) (a : Action) : Int :=
  if a.late then max ((a.startAt.getD 0) * 256) (passStep s a.pos) else startStep s a.pos

/-- The sweep position at an edge step, by the present rate. -/
def posAtStep (s : State) (step : Int) : Pos :=
  s.sweep.pos + BitVec.ofInt 64 (((step - s.now * 256) * s.sweep.rate + s.sweep.acc * 256) / 65536)

/-- The sweep position at a stamp time (2^-16 tick), by the present rate. -/
def posAtStamp (s : State) (t : Nat) : Pos :=
  s.sweep.pos + BitVec.ofInt 64 ((((t : Int) - stampNow s) * s.sweep.rate + s.sweep.acc * 65536) / 2 ^ 24)

/-! ### Bandwidth (01 R17 to R20), in bytes per second -/

/-- The class budgets scale with the trained rate (01 R17). -/
def scaleBudget (s : State) (b : Nat) : Nat :=
  match s.mem.rate with
  | 3 => b
  | 2 => b * 7 / 8
  | 1 => b * 3 / 4
  | _ => 0

/-- Pattern streaming fits. -/
def fitsPattern (s : State) (r : Nat) : Bool := s.mem.pattern + r ≤ scaleBudget s 40000000000
/-- Waveform streaming fits. -/
def fitsWaveform (s : State) (r : Nat) : Bool := s.mem.waveform + r ≤ scaleBudget s 8000000000
/-- Capture and digitizer writes fit. -/
def fitsCapture (s : State) (r : Nat) : Bool := s.mem.capture + r ≤ scaleBudget s 12000000000
/-- Stamp writes fit. -/
def fitsStamp (s : State) (r : Nat) : Bool := s.mem.stamp + r ≤ scaleBudget s 8000000000

/-- A rate towards PE die d fits its link of 48 GB/s (01 R11, R18). -/
def fitsDown (s : State) (d r : Nat) : Bool := Tab.get 0 s.mem.down d + r ≤ 48000000000
/-- A rate from PE die d fits its link of 24 GB/s (01 R11, R18). -/
def fitsUp (s : State) (d r : Nat) : Bool := Tab.get 0 s.mem.up d + r ≤ 24000000000
/-- Take a rate towards die d. -/
def takeDown (s : State) (d r : Nat) : State := { s with mem.down := Tab.set 0 s.mem.down d (Tab.get 0 s.mem.down d + r) }
/-- Take a rate from die d. -/
def takeUp (s : State) (d r : Nat) : State := { s with mem.up := Tab.set 0 s.mem.up d (Tab.get 0 s.mem.up d + r) }
/-- Return a rate towards die d. -/
def giveDown (s : State) (d r : Nat) : State := { s with mem.down := Tab.set 0 s.mem.down d (Tab.get 0 s.mem.down d - r) }
/-- Return a rate from die d. -/
def giveUp (s : State) (d r : Nat) : State := { s with mem.up := Tab.set 0 s.mem.up d (Tab.get 0 s.mem.up d - r) }

/-- The link rate in GT/s by its code (13 R308). -/
def linkGts (code : Nat) : Nat :=
  match code with
  | 2 => 5
  | 3 => 8
  | 4 => 16
  | 5 => 32
  | 6 => 64
  | _ => 0

/-- STREAM_CAP in bytes per second: 0.625 × rate × lanes / 8, at most 40 GB/s (01 R20). Code 1 is 2.5 GT/s. -/
def streamCapBytes (s : State) : Nat :=
  if !s.host.up then 0
  else min 40000000000 ((if s.host.rate == 1 then 2500 else 1000 * linkGts s.host.rate) * s.host.width * 78125)

/-- STREAM_CAP as LINK_STATUS shows it, in whole units of 1,000,000 bytes per second (13 R308). -/
def streamCap (s : State) : Nat := streamCapBytes s / 1000000

/-- A host stream fits STREAM_CAP in total and the single-stream limit (01 R20). -/
def fitsHost (s : State) (r : Nat) : Bool :=
  r ≤ 24000000000 && r ≤ streamCapBytes s && s.mem.host + r ≤ streamCapBytes s

/-! ### Domains (18 R404) -/

/-- The parent of a domain; the device has none. -/
def domParent (d : Nat) : Option Nat :=
  if d < 0x200 then some (0x200 + d / 8)
  else if d < 0x240 then some (0x240 + (d - 0x200) / 8)
  else if d < 0x248 then some (0x248 + (d - 0x240) / 2)
  else if d < 0x24C then some 0x2FF
  else if 0x250 ≤ d && d < 0x260 then some (0x248 + (d - 0x250) / 4)
  else if 0x260 ≤ d && d < 0x270 then some (0x248 + (d - 0x260) / 4)
  else if 0x270 ≤ d && d < 0x278 then some 0x278
  else if d == 0x278 then some 0x2FF
  else if 0x280 ≤ d && d < 0x290 then some 0x2FF
  else if d == 0x290 || d == 0x291 then some 0x2FF
  else none

/-- Whether a number is a domain (18 R404). -/
def domUsed (d : Nat) : Bool := (domParent d).isSome || d == 0x2FF

/-- The class of a domain (18 R404). -/
def domClass (d : Nat) : Nat :=
  if d < 0x200 || (0x250 ≤ d && d < 0x278) then 1 else if d == 0x2FF then 3 else 2

/-- The domains that enclose a domain, itself first; the tree has five levels. -/
def domChain : Nat → Nat → List Nat
  | 0, d => [d]
  | n + 1, d => match domParent d with
    | some p => d :: domChain n p
    | none => [d]

/-- `a` encloses `b` or is `b` (18 R404). -/
def encloses (a b : Nat) : Bool := (domChain 5 b).contains a

/-- Two domains overlap (18 R404). -/
def domOverlap (a b : Nat) : Bool := encloses a b || encloses b a

/-- The recovery that covers a domain: its own, or an enclosing one (18 R406, R426). -/
def recOf (s : State) (d : Nat) : Option Recovery := s.flt.recs.find? fun r => encloses r.domain d

/-- A domain is in recovery (18 R406). -/
def inRecovery (s : State) (d : Nat) : Bool := (recOf s d).isSome

/-- A domain is held still: in recovery, ISOLATED, or the device is HALTED or in SHUTDOWN (18 R409, R410). -/
def isContained (s : State) (d : Nat) : Bool :=
  inRecovery s d || s.stopped || s.flt.isolated.any fun i => encloses i d

/-- Domain of a channel (18 R404). -/
def domChan (n : Nat) : Nat := n
/-- Domain of a lane group. -/
def domLg (n : Nat) : Nat := 0x200 + n
/-- Domain of a sector. -/
def domSec (n : Nat) : Nat := 0x240 + n
/-- Domain of a PE die. -/
def domDie (n : Nat) : Nat := 0x248 + n
/-- Domain of a source. -/
def domAwg (n : Nat) : Nat := 0x250 + n
/-- Domain of a digitizer. -/
def domDig (n : Nat) : Nat := 0x260 + n
/-- Domain of a synthesizer. -/
def domDcs (n : Nat) : Nat := 0x270 + n
/-- Domain of an engine. -/
def domEng (n : Nat) : Nat := 0x280 + n
/-- Domain of a memory channel. -/
def domMem (n : Nat) : Nat := 0x290 + n
/-- Domain of the device. -/
def domDev : Nat := 0x2FF

/-- Some sensor's reading holds THROTTLE in force (19 R433). -/
def throttled (s : State) : Bool := s.thm.sensors.any fun p => p.2.level ≥ 2

end Sys2Proof.Machine
end

