-- ==== Sys2Proof/Machine/ClkOps.lean ====
section
/-! DEFINITION. The outputs of the clock synthesizers in edge steps: divided clock, gate and pins (11 R243, R246, R250; 25,
duty cycle). -/

namespace Sys2Proof.Machine

open Sys2Proof

/-- The least whole number not below num / den. -/
def ceilDiv (num : Int) (den : Nat) : Int := -((-num) / (den : Int))

/-- Edge steps of N output cycles: 20 ns are 8,192 steps, and f_OUT = 50 MHz × N / (M × O) (11 R243). -/
def clkSpan (c : DcsClk) : Nat := 8192 * c.m * c.o

/-- The divided clock that a synthesizer's present ratios give. -/
def Dcs.clk (d : Dcs) : DcsClk := { m := d.m, o := d.o, n := d.nNow, fallAt := d.anchor }

/-- Edge steps of N output cycles at the present ratios (11 R243). -/
def dcsSpan (d : Dcs) : Nat := clkSpan d.clk

/-- The first falling edge of a clock at or after edge step t. -/
def clkFallAt (c : DcsClk) (t : Int) : Int :=
  let k := ceilDiv ((t - c.fallAt) * c.n) (max 1 (clkSpan c))
  c.fallAt + ceilDiv (k * clkSpan c) (max 1 c.n)

/-- The first falling edge of the divided output at or after edge step t; before the edge at which the present ratios divide it
follows those before them (11 R246, R250). -/
def dcsFall (d : Dcs) (t : Int) : Int := if t ≤ d.anchor then min d.anchor (clkFallAt d.was t) else clkFallAt d.clk t

/-- The high part of an output cycle of synthesizer n, in 1/10,000: 50 % ± 2 % (25; a part's own value, log entry 5). -/
def dcsDuty (n : Nat) : Nat := 4800 + Config.dcsDuty n % 401

/-- The first rising edge of a clock at or after edge step t; `low` 10,000ths of its cycle are low. -/
def clkRiseAt (c : DcsClk) (low : Nat) (t : Int) : Int :=
  let k := ceilDiv ((t - c.fallAt) * c.n * 10000 - low * clkSpan c) (max 1 (10000 * clkSpan c))
  c.fallAt + ceilDiv ((k * 10000 + low) * clkSpan c) (max 1 (10000 * c.n))

/-- The first rising edge of the divided output of synthesizer n at or after edge step t. -/
def dcsRise (d : Dcs) (n : Nat) (t : Int) : Int :=
  let low := 10000 - dcsDuty n
  let r := clkRiseAt d.was low t
  if t < d.anchor && r < d.anchor then r else clkRiseAt d.clk low (max t d.anchor)

/-- A clock is high at edge step t. -/
def clkHighAt (c : DcsClk) (low : Nat) (t : Int) : Bool :=
  let x := ((t - c.fallAt) * c.n) % (max 1 (clkSpan c) : Nat)
  x * 10000 ≥ low * clkSpan c

/-- The divided output of synthesizer n is high at edge step t. -/
def dcsLevel (d : Dcs) (n : Nat) (t : Int) : Bool :=
  clkHighAt (if t < d.anchor then d.was else d.clk) (10000 - dcsDuty n) t

/-- The gate is open at edge step t (11 R250). -/
def dcsOpen (d : Dcs) (t : Int) : Bool := if t < d.gateAt then d.gate else d.gateTo

/-- The gated output of synthesizer n, which feeds channels and the pins, is high at edge step t (11 R250; 03 R51, R52). -/
def dcsHigh (s : State) (n : Nat) (t : Int) : Bool := dcsOpen (s.dcs n) t && dcsLevel (s.dcs n) n t

/-- DCS_OUT[n]_P and DCS_OUT[n]_N: PIN_EN 0 holds them low and high (11 R250). -/
def dcsPins (s : State) (n : Nat) (t : Int) : Bool × Bool :=
  let p := s.setting 9 n 6 == 1 && dcsHigh s n t
  (p, !p)

/-- What DCS_OUT[n] drives: nothing while every pin is high-impedance (23 R491). -/
def dcsOut (s : State) (n : Nat) (t : Int) : Option (Bool × Bool) := if pinsDriven s then some (dcsPins s n t) else none

/-- What opens the gate of synthesizer n: OUT_EN, and none of the causes that close it (11 R250). -/
def gateWant (s : State) (n : Nat) : Bool :=
  let d := s.dcs n
  s.setting 9 n 5 == 1 && d.locked && d.refOk && d.retune.isNone && d.st != .contained

/-- The first falling edge of the output at or after edge step t: of the divided clock, or without lock a free instant within one
output period of a VCO at 3 GHz (11 R246, R250; log entry 3). -/
def outFall (s : State) (n : Nat) (t : Int) : Int × State :=
  let d := s.dcs n
  if d.locked then (dcsFall d t, s)
  else
    let (v, s) := s.fresh
    (t + (v.toNat % (max 1 (d.o * 4096 / 30)) : Nat), s)

/-- Bring the gate of synthesizer n in line with its causes, from the next falling edge on; a change before the edge of the one
before it meets that edge too (11 R250). -/
def setGate (s : State) (n : Nat) : State :=
  let d := s.dcs n
  if gateWant s n == d.gateTo then s
  else if s.now * 256 ≤ d.gateAt then s.updDcs n fun d => { d with gateTo := !d.gateTo }
  else
    let (e, s) := outFall s n (s.now * 256)
    s.updDcs n fun d => { d with gate := d.gateTo, gateTo := !d.gateTo, gateAt := e }

/-- After lock the divided output has a falling edge at a free instant (11 R247; log entry 3). -/
def freshAnchor (s : State) (n : Nat) : State :=
  let (v, s) := s.fresh
  s.updDcs n fun d =>
    let e := s.now * 256 + (v.toNat % (max 1 (dcsSpan d)) : Nat)
    { d with anchor := e, was := { d.clk with fallAt := e } }

/-- The present divided clock ends at its falling edge e, from which the ratios set beside this divide; one that has not begun
leaves the clock before it and its edge (11 R246, R250, R251). -/
def endClk (s : State) (d : Dcs) (e : Int) : Dcs :=
  if s.now * 256 < d.anchor then d else { d with was := d.clk, anchor := e }

/-- A change of N goes on from the next falling edge (11 R251; log entry 18). -/
def moveN (s : State) (n k : Nat) : State :=
  s.updDcs n fun d => { endClk s d (dcsFall d (s.now * 256)) with nNow := k }

/-- A new O divides from the first falling edge after the apply tick (11 R246). -/
def changeO (s : State) (n o : Nat) : State :=
  let (e, s) := outFall s n (s.now * 256 + 256)
  s.updDcs n fun d => { d with oNext := some (o, e) }

/-- A new O comes into force once its falling edge has passed (11 R246). -/
def takeO (s : State) (n : Nat) : State :=
  match (s.dcs n).oNext with
  | some (o, e) =>
    if e ≤ s.now * 256 + 255 then s.updDcs n fun d => { endClk s d e with o := o, oNext := none } else s
  | none => s

end Sys2Proof.Machine
end

