-- ==== Sys2Proof/Machine/BurstOps.lean ====
section
/-! DEFINITION. Shared operations of the sector sequencers: vector words, segments and closures (05), sites, fail capture,
the ending of a burst and the holding of a sector (06). -/

namespace Sys2Proof.Machine

open Sys2Proof

/-! ### Routes of the waveform sources (10 R222) -/

/-- A source may drive its routed channel (10 R222). -/
def routeAllowed (s : State) (n : Nat) : Bool :=
  match routeOf s.stg.image n with
  | none => false
  | some ch =>
    let c := s.chan ch
    (s.awg n).st != .isolated && !(s.awg n).checking && !isContained s (domAwg n) &&
      ((c.st == .idle && s.setting 1 ch 0x011 == 0 && s.setting 1 ch 0x00B == 0) ||
       (c.st == .pmu && (match c.force with
         | some f => f.mode == 2
         | none => s.setting 1 ch 0x301 == 2)))

/-- Bring the route switch of a source in line with its channel. An opening for which the channel is the cause, not a change of
route, is counted and told (10 R222; log entry 17). -/
def refreshRoute (s : State) (n : Nat) : State :=
  let ok := routeAllowed s n
  let upTo := routeOf s.stg.image n
  let a := s.awg n
  if a.routed == ok && a.routedTo == upTo then s
  else
    let s := s.updAwg n fun a => { a with routed := ok, routedTo := upTo }
    if a.routed && !ok && upTo.isSome && a.routedTo == upTo && a.st != .isolated && !a.checking && !isContained s (domAwg n) then
      notice (s.updAwg n fun a => { a with routeBlocked := incSat 32 a.routeBlocked }) (0x0400 + n) 0
    else s

/-- Bring the route switches of a die in line with its channels. -/
def refreshDie (s : State) (d : Nat) : State := forEach ((List.range 4).map (4 * d + ·)) s fun n s => refreshRoute s n

/-- Bring every route switch in line. -/
def refreshRoutes (s : State) : State := forEach (List.range 16) s fun n s => refreshRoute s n

/-! ### Vector words (05 R88 to R91) -/

/-- The pin code of channel c of the sector. -/
def pinCode (w : BitVec 288) (c : Nat) : Nat := (w.toNat / 16 ^ c) % 16
/-- OPERAND. -/
def vOperand (w : BitVec 288) : Nat := bits w.toNat 275 256
/-- OPC. -/
def vOpc (w : BitVec 288) : Nat := bits w.toNat 281 276
/-- TSET. -/
def vTset (w : BitVec 288) : Nat := bits w.toNat 287 282
/-- The word that 36 bytes hold (05 R89). -/
def vWord (bs : List Byte) : BitVec 288 := BitVec.ofNat 288 (leNat (bs.take 36))

/-- A count OPERAND is in its range (06 R112). -/
def countOk (o : Nat) : Bool := if bitOf o 19 then bits o 18 6 == 0 else bits o 18 0 ≥ 1

/-- An OPERAND is in the range its opcode allows, closers and nesting apart (06 R111). -/
def operandOk (opc o : Nat) : Bool :=
  match opc with
  | 0x00 => o == 0
  | 0x01 => 1 ≤ o && o ≤ 1048575
  | 0x02 => countOk o
  | 0x03 => true
  | 0x04 => o ≤ 1023
  | 0x05 => o == 0
  | 0x06 => o ≤ 1023
  | 0x07 => countOk o
  | 0x08 => true
  | 0x09 => bits o 19 18 ≤ 1 && bits o 17 6 == 0
  | 0x0A => bits o 18 16 != 0 && !bitOf o 19
  | 0x0B => o == 0
  | 0x0C => o == 0
  | _ => false

/-- The word passes the content test 7 of 05 R96 on its own. -/
def wordOk (w : BitVec 288) : Bool :=
  (List.range 64).all (fun c => pinCode w c ≤ 10) && vOpc w ≤ 0x0C && operandOk (vOpc w) (vOperand w)

/-- Opcodes that a streamed segment may not hold (05 R91). -/
def refusedStreamed (opc : Nat) : Bool := (2 ≤ opc && opc ≤ 5) || opc == 7 || opc == 8

/-! ### Segments and closures (05 R92, R100) -/

/-- The directory entry of a sector. -/
def segOf (s : State) (n seg : Nat) : Option Segment := Tab.get none (s.sec n).dir seg

/-- Segments reached from a list of segments by JMP and CALL operands, by `fuel` rounds. -/
def closureGo (s : State) (n : Nat) : Nat → List Nat → List Nat
  | 0, acc => acc
  | k + 1, acc =>
    let next := acc.flatMap fun g => match segOf s n g with
      | some x => x.jumps ++ x.calls
      | none => []
    let fresh := (next.filter fun g => !acc.contains g).eraseDups
    if fresh.isEmpty then acc else closureGo s n k (acc ++ fresh)

/-- The closure of segments of sector n (05 R100). -/
def closure (s : State) (n : Nat) (start : List Nat) : List Nat := closureGo s n 1024 start.eraseDups

/-- The segment is streamed. -/
def segStreamed (s : State) (n g : Nat) : Bool := (segOf s n g).any fun x => x.kind == 2
/-- The segment is resident. -/
def segResident (s : State) (n g : Nat) : Bool := (segOf s n g).any fun x => x.kind == 1

/-- Tests 2 to 5 of 05 R100 on a closure of sector n, with FOLLOW and PAD: whether one fails. -/
def closureFails (s : State) (n : Nat) (c : List Nat) (follow : Option Nat) (pad : Bool) : Bool :=
  c.any (fun g => (segOf s n g).isNone) ||
  c.any (fun g => (segOf s n g).any fun x => x.kind == 2 && x.refused) ||
  c.any (fun g => (segOf s n g).any fun x => x.calls.any (segStreamed s n)) ||
  follow.any (segResident s n) ||
  (pad && c.any fun g => (segOf s n g).any fun x => x.kind == 2 && !x.stallSafe)

/-- The burst that last started a sector, while it has not completed (06 R109, R123). -/
def burstOf (s : State) (n : Nat) : Option Burst := (s.sec n).own.bind s.burst

/-- The sectors that a burst started. -/
def lockSectors (b : Burst) : List Nat := maskList 8 b.mask

/-- The sectors of a burst that no later burst has started again (06 R109). -/
def members (s : State) (b : Burst) : List Nat := (lockSectors b).filter fun n => (s.sec n).own == some b.slot

/-- The leader of a burst: its lowest sector (06 R123). -/
def leaderOf (b : Burst) : Nat := lowestBit 8 b.mask

/-- A SEG_ID lies in the closure of an admitted or running burst of the sector (05 R96 test 4). -/
def segActive (s : State) (n seg : Nat) : Bool :=
  s.bursts.any fun p => p.2.any fun b => bitOf b.mask n && b.closure.contains (n, seg)

/-! ### Sites (06 R129 to R134) -/

/-- The sites that take part in a burst. -/
def sitesOf (s : State) (id : Nat) : List Nat :=
  (s.sites.filter fun p => p.2.burst == some id).map Prod.fst

/-- Site i is active in a burst: it takes part and is not masked (06 R132). -/
def siteActive (s : State) (i id : Nat) : Bool := (s.site i).burst == some id && !(s.site i).masked

/-- A site has a channel in sector n. -/
def siteIn (s : State) (i n : Nat) : Bool := bitOf (siteSectors s i) n

/-- Mask a site from a vector on (06 R132); a masked site keeps its mask. -/
def maskSite (s : State) (i vector : Nat) : State :=
  s.updSite i fun x => if x.masked then x else { x with masked := true, maskVector := some vector }

/-- Mark a site TESTER_FAULT if it is still active in a burst (03 R67, 05 R104, 06 R132). -/
def faultSite (s : State) (i id vector : Nat) : State :=
  if siteActive s i id then (maskSite s i vector).updSite i fun x => { x with verdict := 4 } else s

/-- The number of the first vector of sector n issued after edge step t (06 R132): 96 ns before its period (01 R14). -/
def nextVector (s : State) (n : Nat) (t : Int) : Nat :=
  (((s.sec n).ahead.find? fun i => i.num.isSome && t < i.start - 39321).bind Issued.num).getD (s.sec n).vecNum

/-- Mark every site with a channel in sector n that is still active (05 R104). -/
def faultSectorSites (s : State) (n : Nat) : State :=
  match (s.sec n).own with
  | some id => forEach ((sitesOf s id).filter fun i => siteIn s i n) s fun i s =>
      faultSite s i id (nextVector s n (s.now * 256 + 255))
  | none => s

/-- The verdict of a site when its burst ends (06 R133); `cut` says that the burst ended early. -/
def verdictOf (x : SiteRun) (cut : Bool) : Nat :=
  if x.verdict == 4 then 4
  else if x.verdict == 3 then 3
  else if x.failCount > 0 then 2
  else if x.verdict == 0 then 0
  else if cut then 5
  else 1

/-- The 32-byte site result record (06 R134). -/
def siteRecord (i : Nat) (x : SiteRun) (verdict : Nat) : List Byte :=
  let ones (w : Nat) : Nat := 2 ^ w - 1
  leBytes 2 i ++ leBytes 1 verdict ++
    leBytes 1 (b2n x.masked + 2 * b2n x.limitHit + 4 * b2n x.lostRecs) ++
    leBytes 4 (satTo 32 x.failCount) ++ leBytes 8 (x.firstFail.getD (ones 64)) ++
    leBytes 2 (x.firstChannel.getD 0xFFFF) ++ leBytes 2 0 ++ leBytes 4 x.matchExit ++
    leBytes 8 (x.maskVector.getD (ones 64))

/-! ### Fail capture (06 R135, R136) -/

/-- Word 0 of a fail capture record (06 R135). -/
def capWord0 (vec tset sector type : Nat) : Nat :=
  vec % 2 ^ 48 + tset * 2 ^ 48 + sector * 2 ^ 54 + type * 2 ^ 57

/-- Queue a record at the next place of the area, if queue and area have room. -/
def pushCapRaw (x : Sector) (slot : Nat) (bytes : List Byte) : Option Sector :=
  if x.capQueue.length < 1024 && x.capFill + 32 ≤ x.capSize then
    some { x with capQueue := x.capQueue ++ [(x.capBase + x.capFill, slot, bytes)], capFill := x.capFill + 32 }
  else none

/-- Enter a record of sector n for the BURST in a slot: a pending LOST record goes first; one that finds no room is lost (06
R136). With no area, records are neither written nor counted (14 R330). The Boolean says whether the record was entered. -/
def pushCap (s : State) (n slot vec tset : Nat) (pos : Pos) (bytes : List Byte) : State × Bool :=
  let x := s.sec n
  let slot := slotPlace s slot
  if x.capSize = 0 then (s, true)
  else
    let lose (y : Sector) : Sector :=
      { y with capLost := y.capLost + 1, capLostFirst := some (y.capLostFirst.getD (vec, tset, pos)) }
    let flushed : Option Sector :=
      match x.capLostFirst with
      | none => some x
      | some (v, t, p) =>
        (pushCapRaw x slot (leBytes 8 (capWord0 v t n 3) ++ leBytes 8 p.toNat ++ leBytes 8 x.capLost ++ zeros 8)).map
          fun y => { y with capLost := 0, capLostFirst := none }
    match flushed with
    | none => (s.setSec n (lose x), false)
    | some y =>
      match pushCapRaw y slot bytes with
      | some z => (s.setSec n z, true)
      | none => (s.setSec n (lose y), false)

/-! ### Factory values (20 R439 to R441): keyed by byte offset from the CAL base -/

/-- CAL offset of the record of channel n (20 R440). -/
def chanRecOff (n : Nat) : Nat := 0x40000 + 0x40000 * (n / 128) + 0x400 * (n % 128)

/-- The nominal value at an offset of the CAL block: 0, but for the interpolator table (20 R439). -/
def factoryNominal (off : Nat) : Int :=
  if off < 0x40000 || off ≥ 0x140000 then 0
  else
    let o := (off - 0x40000) % 0x40000
    let f := o % 0x400
    if o < 0x20000 && 0x68 ≤ f && f < 0xEC then
      let j := (f - 0x68) / 4
      if j == 32 then 131072 else 65536 + roundDiv (128 * j * 65536) 4095
    else 0

/-- The factory value in force at an offset of the CAL block. -/
def factoryVal (s : State) (off : Nat) : Int := Tab.get (factoryNominal off) s.cal.factory off

/-! ### Level DACs and deskew (03 R69; 04 R85, R87) -/

/-- The parameters of the level DACs: VIH, VIL, VTT, VOH, VOL, VCOM (03 R69). -/
def levelPars : List Nat := [2, 3, 4, 5, 6, 0x00A]

/-- Drive deskew of a channel in edge steps (04 R85, R87). -/
def driveDeskew (s : State) (n : Nat) : Int := factoryVal s (chanRecOff n + 0x50) + stepsOf (s.setting 1 n 0x101)
/-- Compare deskew of a channel. -/
def compareDeskew (s : State) (n : Nat) : Int := factoryVal s (chanRecOff n + 0x54) + stepsOf (s.setting 1 n 0x103)
/-- Fall deskew of a channel. -/
def fallDeskew (s : State) (n : Nat) : Int := factoryVal s (chanRecOff n + 0x58) + stepsOf (s.setting 1 n 0x102)

/-! ### Clock mode at the pin (03 R51, R52; 04 R85) -/

/-- The synthesizer that DCS_SEL names. -/
def clkSrc (s : State) (n : Nat) : Nat := s.settingN 1 n 0x012

/-- Drive and fall deskew of the clock-mode output of a channel: those of the period under way, and those of the image in IDLE
(04 R85, R87). -/
def clkDeskew (s : State) (n : Nat) : Int × Int := (s.chan n).clkDesk.getD (driveDeskew s n, fallDeskew s n)

/-- The output of synthesizer `src` as it stands at the pin of channel n, high at edge step t: late by the drive deskew, and
its falling edges by DESKEW_FALL as well (04 R85). -/
def clkHigh (s : State) (n src : Nat) (t : Int) : Bool :=
  let (d, f) := clkDeskew s n
  let u := t - d
  if f ≥ 0 then dcsHigh s src u || dcsHigh s src (u - f) else dcsHigh s src u && dcsHigh s src (u - f)

/-- The first rising edge of a synthesizer at the pin, at or after t. -/
def clkRise (s : State) (n src : Nat) (t : Int) : Int :=
  let (d, _) := clkDeskew s n
  dcsRise (s.dcs src) src (t - d) + d

/-- The first falling edge of a synthesizer at the pin, at or after t. -/
def clkFall (s : State) (n src : Nat) (t : Int) : Int :=
  let (d, f) := clkDeskew s n
  dcsFall (s.dcs src) (t - d - f) + d + f

/-- A running clock is high at t: each source that a change of DCS_SEL has left runs to its first falling edge from the end of
the apply tick on, and VIL stands until the first rising edge of the next one (03 R51). -/
def clkWave (s : State) (n : Nat) : List (Nat × Int) → Int → Int → Bool
  | [], t0, t => clkRise s n (clkSrc s n) t0 ≤ t && clkHigh s n (clkSrc s n) t
  | (a, p) :: rest, t0, t =>
    let f := clkFall s n a (max p t0)
    if t < f then clkRise s n a t0 ≤ t && clkHigh s n a t else clkWave s n rest f t

/-- The source whose first rising edge starts the clock. -/
def clkFirst (s : State) (n : Nat) (c : Chan) : Nat := (c.clkPast.head?.map Prod.fst).getD (clkSrc s n)

/-- The edge step at which a stop at p takes effect: the first falling edge at or after p of the source then in force, of those
that changes of DCS_SEL have left and the present one (03 R51). -/
def clkStop (s : State) (n : Nat) : List (Nat × Int) → Int → Int → Int
  | [], _, p => clkFall s n (clkSrc s n) p
  | (a, q) :: rest, t0, p =>
    let f := clkFall s n a (max q t0)
    if clkFall s n a p ≤ f then clkFall s n a p else clkStop s n rest f p

/-- The instant from which a running clock or a pending park of a channel counts. -/
def clkFromAt (c : Chan) : Int := (c.clkFrom.map Prod.fst).getD 0

/-- A stop or park at p has taken effect by t: at the first falling edge at or after p (03 R50, R51). -/
def clkOver (s : State) (n : Nat) (p t : Int) : Bool := clkStop s n (s.chan n).clkPast (clkFromAt (s.chan n)) p ≤ t

/-- The code of the level that a driver state holds; none for off and for a clock (03 R46, R49). -/
def drvCode (s : State) (n : Nat) : Drv → Option Int
  | .vih => some (levelCode (s.setting 1 n 2))
  | .vil => some (levelCode (s.setting 1 n 3))
  | .vtt => some (levelCode (s.setting 1 n 4))
  | _ => none

/-- The code at the pin of a clock at t: until its first rising edge the driver keeps what it did before (03 R51). -/
def clkCode (s : State) (n : Nat) (c : Chan) (t : Int) : Option Int :=
  let t0 := clkFromAt c
  if t < clkRise s n (clkFirst s n c) t0 then (c.clkFrom.bind fun q => if q.2 == .clock then drvCode s n .vil else drvCode s n q.2)
  else if clkWave s n c.clkPast t0 t then drvCode s n .vih else drvCode s n .vil

/-- The code that a driver under a stop or park at p holds at t: that of before until the falling edge, then VIL (03 R51). -/
def parkCode (s : State) (n : Nat) (p t : Int) : Option Int :=
  let c := s.chan n
  if clkOver s n p t then drvCode s n .vil
  else match c.parkFrom with
    | some d => drvCode s n d
    | none => clkCode s n c t

/-! ### Drivers between bursts (03 R50, R63, R64) -/

/-- What the driver does in IDLE (03 R63). -/
def idleDrv (s : State) (n : Nat) : Drv :=
  match s.setting 1 n 0x011 with
  | 1 => .vil
  | 2 => .vih
  | 3 => .vtt
  | 4 => .clock
  | _ => .off

/-- What the driver of a channel stood at before something new at t: a stop or park that is over has left VIL (03 R50, R51). -/
def drvHeld (s : State) (n : Nat) (t : Int) : Drv :=
  let c := s.chan n
  match c.clkTo with
  | some p => if clkOver s n p t then .vil else c.parkFrom.getD c.drv
  | none => c.drv

/-- The driver of channel n takes a state at edge step t: a clock starts where none runs, a clock whose stop or park waits for
its falling edge runs on whole, and anything else ends one (03 R50, R51). -/
def Chan.drive (c : Chan) (s : State) (n : Nat) (d : Drv) (t : Int) : Chan :=
  if d == .clock then
    if c.drv == .clock && c.clkTo.isNone then c
    else if c.parkFrom.isNone && c.clkTo.any (fun p => !clkOver s n p t) then { c with drv := .clock, clkTo := none }
    else { c with drv := .clock, clkFrom := some (t, drvHeld s n t), clkTo := none, parkFrom := none, clkPast := [] }
  else { c with drv := d, clkFrom := none, clkTo := none, parkFrom := none, clkPast := [] }

/-- A park at t: VIL from the first falling edge of the synthesizer on; until then a clock runs on, and any other driver state
stays (03 R51). -/
def Chan.park (c : Chan) (s : State) (n : Nat) (t : Int) : Chan :=
  let held := drvHeld s n t
  if c.drv == .clock && c.clkTo.isNone then { c with drv := .vil, clkTo := some t, parkFrom := none }
  else { c with drv := .vil, clkTo := some t, parkFrom := some held }

/-- A channel leaves its pattern: nothing of a period is left, and the driver is per IDLE_DRIVE from edge step t (03 R63,
R64). -/
def leavePattern (s : State) (n : Nat) (t : Int) (c : Chan) : Chan :=
  { c with edges := [], compares := [], lastCode := none, lastEdge := none, slipTold := false, blanksDue := [],
           hist := [], clkDesk := none }.drive s n (idleDrv s n) t

/-- The channels of a sector leave ACTIVE for IDLE at the end of its burst, and an IDLE one loses the edges of a period 0 that
does not come (03 R64; 04 R86). -/
def idleChannels (s : State) (n : Nat) : State :=
  let s := forEach (List.range 64) s fun c s =>
    let ch := 64 * n + c
    let x := s.chan ch
    if x.st == .active then s.setChan ch { leavePattern s ch (s.now * 256) x with st := .idle }
    else if x.st == .idle && !x.edges.isEmpty then s.setChan ch (leavePattern s ch (s.now * 256) x)
    else s
  refreshDie s (n / 2)

/-! ### The ending of a burst (06 R109, R126, R127, R137) -/

/-- Complete the BURST_CTL of a jump that has been taken: OK, with the start of the target's first period (06 R126). -/
def landJump (s : State) (id : Nat) (step : Int) : State :=
  match (s.burst id).bind Burst.landing with
  | some (k, _) => complete (s.updBurst id fun b => { b with landing := none }) k Status.ok 0 (posAtStep s step)
  | none => s

/-- Complete the pending jump of a burst ABORTED (06 R126, R127). -/
def dropJump (s : State) (id : Nat) : State :=
  match (s.burst id).bind Burst.jump with
  | some j =>
    let s := s.updBurst id fun b => { b with jump := none }
    match j.slot with
    | some k => done s k Status.aborted 0
    | none => s
  | none => s

/-- The completion status of a burst (06 R137). -/
def burstStatus (e : BurstEnd) (anyTimeout : Bool) : Nat :=
  match e with
  | .fault => Status.testerFault
  | .underrun => Status.underrun
  | .aborted => Status.aborted
  | .lockMismatch => Status.consistency
  | .normal => if anyTimeout then Status.matchTimeout else Status.ok

/-- Rank of an ending in the order of 06 R137. -/
def endRank : BurstEnd → Nat
  | .fault => 0
  | .underrun => 1
  | .aborted => 2
  | .lockMismatch => 3
  | .normal => 4

/-- The first of two endings in the order of 06 R137. -/
def worseEnd (a b : BurstEnd) : BurstEnd := if endRank a ≤ endRank b then a else b

/-- Set the ending of a burst. -/
def setEnding (s : State) (id : Nat) (e : BurstEnd) : State :=
  s.updBurst id fun b => { b with ending := worseEnd b.ending e }

/-- Return the budget of a burst (05 R100). -/
def returnBudget (s : State) (b : Burst) : State :=
  let s := { s with mem.pattern := s.mem.pattern - b.budget }
  forEach b.dieRate.zipIdx s fun p s => giveDown s p.2 p.1

/-- The part of a site in a burst: its present one, or the one kept when a later burst took the site over (06 R134). -/
def sitePart (s : State) (b : Burst) (i : Nat) : SiteRun :=
  if (s.site i).burst == some b.slot then s.site i
  else ((b.kept.find? fun p => p.1 == i).map Prod.snd).getD {}

/-- A site whose burst has not completed is taken over by a later one: its part stays with its burst (06 R109, R134). -/
def keepSite (s : State) (i : Nat) : State :=
  match (s.site i).burst with
  | some id => s.updBurst id fun b => { b with kept := (i, { s.site i with burst := none }) :: b.kept }
  | none => s

/-- The sites with a result record at a burst's completion (06 R134). -/
def resultSites (s : State) (b : Burst) : List Nat :=
  if b.begun then
    (List.range 256).filter fun i => (s.site i).burst == some b.slot || b.kept.any fun p => p.1 == i
  else (List.range 256).filter fun i => s.setting 5 i 1 == 1 && (siteSectors s i &&& b.mask) != 0

/-- Write the site records and complete a BURST, its pending jump and its stops (06 R126, R128, R134, R137). -/
def completeBurst (s : State) (id : Nat) : State :=
  match s.burst id with
  | none => s
  | some b =>
    let cut := b.ending == .aborted || b.ending == .lockMismatch || b.ending == .fault
    let active := resultSites s b
    let part (i : Nat) : SiteRun := if b.begun then sitePart s b i else {}
    let verdict (i : Nat) : Nat := verdictOf (part i) cut
    let recs := active.map fun i => (i, siteRecord i (part i) (verdict i))
    let fails := (active.filter fun i => verdict i == 2 || verdict i == 3).length
    let timeouts := active.any fun i => verdict i == 3
    let s := landJump (dropJump s id) id (s.sec (leaderOf b)).nextStart
    let s := s.updSec (leaderOf b) fun x => { x with siteRecs := recs }
    let s := { s with bursts := Tab.erase s.bursts id }
    let s := forEach (sitesOf s id) s fun i s => s.updSite i fun x => { x with burst := none }
    let s := returnBudget s b
    let s := unschedule s (.burst id)
    let s := if b.resultAddr = 0 then s
      else forEach recs s fun r s => emit s (.data (b.resultAddr + 32 * r.1) r.2 (slotPlace s id))
    let s := complete s id (burstStatus b.ending timeouts) fails b.startPos b.late
    forEach b.stops s fun k s => done s k Status.ok 0

/-- Reset the run of a sector whose burst has ended; its counters, directory, store and queue stay. -/
def clearRun (x : Sector) : Sector :=
  { x with rpt := 0, calls := [], loops := [], issued := none, boundary := false, ending := false, goTo := none,
           ahead := [], base := none, wait := none, waitFrom := none, waitTo := none, waitEnd := none, fillNext := 0,
             buf := [], bufAt := none,
           bufBad := false, missing := false, keepAlive := none, results := [], periods := [], matches' := [],
           nextMatch := 0 }

/-- The sectors of a burst return to IDLE before its period 0 (06 R109, ARMED to IDLE). -/
def disarm (s : State) (b : Burst) : State :=
  forEach (members s b) s fun n s => (idleChannels s n).updSec n fun x => { clearRun x with st := .idle }

/-- End a burst that has not begun its period 0 (06 R109, ARMED to IDLE). -/
def endArmed (s : State) (id : Nat) (e : BurstEnd) : State :=
  match s.burst id with
  | none => s
  | some b => completeBurst (disarm (setEnding s id e) b) id

/-- Every running sector of a burst enters DRAINING (06 R104, R123, R128). -/
def drainLock (s : State) (id : Nat) (e : BurstEnd) : State :=
  match s.burst id with
  | none => s
  | some b =>
    forEach (members s b) (setEnding s id e) fun n s =>
      s.updSec n fun x =>
        if x.st == .running || x.st == .padding || x.st == .waiting then
          { x with st := .draining, issued := none, wait := none, waitEnd := none, missing := false,
                   waitTo := if x.st == .waiting then some (s.now * 256) else x.waitTo }
        else x

/-- Some sector of a burst is not IDLE. -/
def lockBusy (s : State) (b : Burst) : Bool := (members s b).any fun n => (s.sec n).st != .idle

/-- Hold sector n and every sector locked with it: the burst completes TESTER_FAULT (06 R109, R123). The sites of the
contained sector are TESTER_FAULT; those of the others end INCOMPLETE under R133. -/
def holdSector (s : State) (n : Nat) : State :=
  if (s.sec n).st == .idle || (s.sec n).st == .held then s
  else
    match burstOf s n with
    | none => s.updSec n fun x => { clearRun x with st := .held }
    | some b =>
      let s := setEnding (faultSectorSites s n) b.slot .fault
      let s := forEach (members s b) s fun m s =>
        (idleChannels s m).updSec m fun x => if x.st == .idle then x else { clearRun x with st := .held }
      completeBurst s b.slot

/-- A stop request to a burst (06 R109, R121, R125, R127, R128): an armed burst ends at once; a running one at the next issue
point, a waiting one at once. -/
def stopBurst (s : State) (id : Nat) : State :=
  match s.burst id with
  | none => s
  | some b =>
    let s := dropJump s id
    let some' (p : SeqSt → Bool) : Bool := (members s b).any fun n => p (s.sec n).st
    if some' (· == .armed) then endArmed s id .aborted
    else if some' (· == .waiting) then drainLock s id .aborted
    else if some' fun st => st == .running || st == .padding then s.updBurst id fun b => { b with stop := true }
    else s

/-- A stop request to sector n acts on its whole burst (06 R125). -/
def requestStop (s : State) (n : Nat) : State :=
  match (s.sec n).own with
  | some id => stopBurst s id
  | none => s

/-- A pending jump of the same cycle whose request comes later in the order of 06 R127. -/
def Burst.laterJump (b : Burst) (now key : Nat) : Bool := b.jump.any fun j => j.at' == now && key < j.key

/-- A jump request to the burst of sector n: its target and closure join the burst's, and it replaces a pending one; `key` is
its place among the requests of one cycle, of which the last one stands (06 R125, R127). -/
def requestJump (s : State) (n target key : Nat) (slot : Option Nat) : State :=
  match burstOf s n with
  | none => s
  | some b =>
    let more := (lockSectors b).flatMap fun m => (closure s m [target]).map fun g => (m, g)
    let s := s.updBurst b.slot fun b => { b with closure := (b.closure ++ more).eraseDups }
    if b.laterJump s.now key then
      match slot with
      | some k => done s k Status.aborted 0
      | none => s
    else
      (dropJump s b.slot).updBurst b.slot fun b =>
        { b with jump := some { target := target, issued := 0, slot := slot, at' := s.now, key := key } }

/-- The place of a trigger unit's request, and of a descriptor's, among the requests of one cycle (06 R127). -/
def tuKey (u : Nat) : Nat := u
/-- The place of a descriptor's request (06 R127; 13 R302). -/
def descKey (s : State) (id : Nat) : Nat := 16 + actKey s (some id)

/-- A jump target passes tests 2 to 5 of 05 R100 in every locked sector (06 R125). -/
def jumpOk (s : State) (n target : Nat) : Bool :=
  match burstOf s n with
  | none => false
  | some b => (members s b).all fun m =>
      (s.sec m).st == .idle || !closureFails s m (closure s m [target]) b.follow b.pad

/-- A sequencer takes jump requests while RUNNING, PADDING or WAITING (14 R332). -/
def takesJump (s : State) (n : Nat) : Bool :=
  let st := (s.sec n).st
  st == .running || st == .padding || st == .waiting

/-- A request to any sector of a burst reaches the sectors that take jump requests (06 R125). -/
def burstTakesJump (s : State) (n : Nat) : Bool :=
  match burstOf s n with
  | none => false
  | some b => (members s b).any (takesJump s)

end Sys2Proof.Machine
end

