-- ==== Sys2Proof/Machine/ChanOps.lean ====
section
/-! DEFINITION. Shared operations of the channels: history records of notices, factory values, driver edges, comparison,
blanking, the compare latch and the channel states (03, 04). -/

namespace Sys2Proof.Machine

open Sys2Proof

/-! ### History records and class 0 notices (18 R405, R419, R420) -/

/-- PHASE code of 18 R408. -/
def phaseCode : Phase → Nat
  | .start => 0
  | .selftest => 1
  | .service => 2
  | .recovery => 3
  | .shutdown => 4
  | .halted => 5

/-- Enter a history record; the queue holds 32 and freezes at KIND 6, 7 or 8 (18 R419, R420). -/
def record (s : State) (source domain kind cNow cOpen merges recovery : Nat) (cause : BitVec 64) : State :=
  if s.flt.frozen then s
  else
    let r : HistRec := ⟨s.flt.seq, source, domain, kind, cNow, cOpen, phaseCode s.flt.phase, merges, recovery, cause,
      s.sweep.pos⟩
    let h := s.flt.hist ++ [r]
    let h := if h.length > 32 then h.drop 1 else h
    let s := { s with flt.hist := h, flt.seq := addWrap 32 s.flt.seq 1 }
    if kind ≥ 6 then notice { s with flt.frozen := true } 0x04EC r.seq else s

/-- A class 0 fault: recorded and routed, nothing else happens (18 R405, R416). -/
def notice0 (s : State) (source causeBit data : Nat) : State :=
  post (record s source 0xFFFF 0 0 0 0 0 (BitVec.ofNat 64 (2 ^ causeBit))) source 1 causeBit data

/-! ### Positions in time -/

/-- The edge step of a stamp time (2^-16 tick of the tick number). -/
def stepOfStamp (s : State) (t : Nat) : Int := ((t : Int) - stampNow s) / 256 + (s.now : Int) * 256

/-- Something at an edge step has fallen due by the end of the present tick. -/
def stepDue (s : State) (t : Int) : Bool := t ≤ s.now * 256 + 255

/-! ### Driver (03 R49 to R52; 04 R82, R83) -/

/-- The data level of a pin code. -/
def dataLevel (code : Nat) : Drv := if code == 1 then .vih else .vil
/-- The complement of the data level. -/
def dataBar (code : Nat) : Drv := if code == 1 then .vil else .vih

/-- The drive edges that a period's format and pin code give (03 R50, R51). -/
def edgeKinds (fmt code : Nat) : List EdgeKind :=
  if fmt == 4 then
    (if code ≤ 1 || code == 3 then [.d1] else if code == 9 then [] else [.d3])
  else if code ≤ 1 then (if fmt == 0 then [.d0, .d1] else [.d0, .d1, .d2])
  else if code == 3 then [.d0, .d1]
  else if code == 9 then []
  else [.d3]

/-- What an edge makes of the driver (03 R50, R51). -/
def edgeResult (fmt code : Nat) (k : EdgeKind) (drv : Drv) : Drv :=
  match k with
  | .d0 =>
    if code == 3 then (if drv == .off then .vtt else drv)
    else if fmt == 3 then dataBar code
    else if drv == .off then dataLevel code else drv
  | .d1 =>
    if code == 3 then .vtt
    else if fmt == 4 then (if code == 1 then .clock else .vil)
    else dataLevel code
  | .d2 => if fmt == 1 then .vil else if fmt == 2 then .vih else dataBar code
  | .d3 => .off

/-- Rank of the edge kinds on one step (04 R82). -/
def kindRank : EdgeKind → Nat
  | .d0 => 0
  | .d1 => 1
  | .d2 => 2
  | .d3 => 3

/-- Parameter number of an edge in its timing set (04 R79). -/
def kindPar (k : EdgeKind) : Nat := kindRank k + 1

/-- One edge goes before another on the same step: the order of 04 R82 within a period; of two periods the older one (DESIGN
CHOICE, log entry 65), but of two delayed edges the younger, since the older one has passed it (04 R83). -/
def edgeFirst (e f : PinEdge) : Bool :=
  if e.period == f.period then kindRank e.kind < kindRank f.kind
  else if e.delayed && f.delayed then f.period < e.period else e.period < f.period

/-- Insert an edge in time order. -/
def insertEdge (e : PinEdge) : List PinEdge → List PinEdge
  | [] => [e]
  | f :: rest =>
    if e.at' < f.at' || (e.at' == f.at' && edgeFirst e f)
    then e :: f :: rest else f :: insertEdge e rest

/-- What the driver does at t: a clock that a period 0 stops counts as on at VIL from its falling edge on (03 R50). -/
def drvAt (s : State) (n : Nat) (t : Int) : Drv :=
  let c := s.chan n
  match c.drv, c.clkTo with
  | .clock, some p => if clkOver s n p t then .vil else .clock
  | d, _ => d

/-- The level code that the driver holds at edge step t; none while it is off (03 R49 to R51). -/
def heldCode (s : State) (n : Nat) (t : Int) : Option Int :=
  let c := s.chan n
  match c.drv, c.clkTo with
  | .clock, some p => parkCode s n p t
  | .vil, some p => parkCode s n p t
  | .clock, none => clkCode s n c t
  | d, _ => drvCode s n d

/-- The level code that the driver drives into the pin at edge step t; none while it is off, while every pin is
high-impedance, and during a self-check, which holds the pin so even where a burst starts on the channel (03 R49 to R51; 20 R454; 23
R491). -/
def drivenCode (s : State) (n : Nat) (t : Int) : Option Int := if (s.chan n).checking || !pinsDriven s then none else heldCode s n t

/-- An edge moves the driver at t from one level to a lower one, by the codes held: it takes DESKEW_FALL. A park leaves the pin
to the clock's own falling edge (03 R51; 04 R85). -/
def edgeFalls (s : State) (n : Nat) (e : PinEdge) (next : Drv) (t : Int) : Bool :=
  if e.format == 4 && e.code ≤ 1 then false
  else match heldCode s n t, drvCode s n next with
    | some x, some y => y < x
    | _, _ => false

/-- Count slips of a channel; the first of a burst raises EDGE_SLIP (04 R83). -/
def countSlips (s : State) (n k : Nat) : State :=
  if k = 0 then s
  else
    let told := (s.chan n).slipTold
    let s := s.updChan n fun c => { c with slips := satTo 16 (c.slips + k), slipTold := true }
    if told then s else notice0 s n 6 0

/-! ### Classification and blanking (03 R53, R57 to R59) -/

/-- Classification: 0 BELOW, 1 BETWEEN, 2 ABOVE (03 R53). -/
def classOf (c : Chan) : Nat := if c.voh then 2 else if !c.vol then 0 else 1

/-- A classification violates a compare code (03 R54). -/
def violates (code cls : Nat) : Bool :=
  match code with
  | 4 => cls != 0
  | 5 => cls != 2
  | 6 => cls != 1
  | 7 => cls == 1
  | _ => false

/-- The channel is blanked at an edge step (03 R57, R58). -/
def blankedAt (s : State) (n : Nat) (t : Int) : Bool :=
  let m := s.setting 1 n 0x00C
  let timer := match (s.lg (n / 8)).blankEnd with
    | some e => (s.lg (n / 8)).blankFrom ≤ t && t < e
    | none => false
  let edges := (s.chan n).blanksDue.any fun p => p.1 ≤ t && t < p.2
  ((m == 1 || m == 3) && timer) || ((m == 2 || m == 3) && edges)

/-! ### Crossings (03 R53) -/

/-- TYPE code of a crossing (07 R147). -/
def crossType : Cross → Nat
  | .volFall => 0
  | .volRise => 1
  | .vohFall => 2
  | .vohRise => 3

/-- The comparator bits after a crossing (03 R53). -/
def crossBits (c : Chan) : Cross → Chan
  | .volFall => { c with vol := false }
  | .volRise => { c with vol := true }
  | .vohFall => { c with voh := false }
  | .vohRise => { c with voh := true }

/-- The comparator bits before a crossing. -/
def crossBack (c : Chan) : Cross → Chan
  | .volFall => { c with vol := true }
  | .volRise => { c with vol := false }
  | .vohFall => { c with voh := true }
  | .vohRise => { c with voh := false }

/-- The crossing changes its bit: otherwise it is none (03 R53). -/
def crossMoves (c : Chan) : Cross → Bool
  | .volFall => c.vol
  | .volRise => !c.vol
  | .vohFall => c.voh
  | .vohRise => !c.voh

/-- The voltage at which the bit of VOH (or VOL) sets (or clears), T + h or T − h with h = HYS / 2, in µV × 7,710 (03 R46,
R53). -/
def crossLevel (s : State) (n : Nat) (voh rise : Bool) : Int :=
  let t := levelCode (s.setting 1 n (if voh then 5 else 6)) * 1000000 - 1500000 * 7710
  let h := s.setting 1 n 7 / 2 * 7710
  if rise then t + h else t - h

/-- The crossing that a pin voltage of `uv` µV makes on a bit that stands at `set`, if it makes one (03 R53). -/
def crossOf (s : State) (n : Nat) (voh set : Bool) (uv : Int) : Option Cross :=
  if !set && crossLevel s n voh true < uv * 7710 then some (if voh then .vohRise else .volRise)
  else if set && uv * 7710 < crossLevel s n voh false then some (if voh then .vohFall else .volFall)
  else none

/-- The bit of a threshold without hysteresis: set if the pin voltage is above it (03 R53). -/
def bitWithout (s : State) (n : Nat) (voh : Bool) (uv : Int) : Bool :=
  levelCode (s.setting 1 n (if voh then 5 else 6)) * 1000000 - 1500000 * 7710 < uv * 7710

/-- The classification at edge step t: the crossings after t have not happened, one on the step itself has (03 R54). -/
def classAt (c : Chan) (t : Int) : Nat :=
  classOf (c.hist.reverse.foldl (fun c h => if t < h.1 then crossBack c h.2 else c) c)

/-- The edge step before which no undecided compare of a channel looks: 10 ns back, or the first C0 that is not reached, or
4 ns before the first period of its sector that has not started (03 R54; 04 R86). -/
def histFrom (s : State) (n : Nat) : Int :=
  let back : Int := s.now * 256 - 4096
  let due := (s.chan n).compares.foldl (fun m k => if k.opened then m else min m k.c0) back
  match (s.sec (n / 64)).ahead.head? with
  | some i => min due (i.start - 1639)
  | none => due

/-- Enter a crossing that moves its bit: the bits, and what later compares look behind (03 R53, R54). -/
def takeCross (s : State) (n : Nat) (x : Cross) (t : Int) : State :=
  let from' := histFrom s n
  s.updChan n fun c => { crossBits c x with hist := (c.hist.filter fun h => from' ≤ h.1) ++ [(t, x)] }

/-! ### The compare latch (03 R60 to R62) -/

/-- The comparator event of an armed channel, when a bit goes from 0 to 1 (03 R62). -/
def latchEvent (s : State) (n : Nat) (was : Bool) : State :=
  let c := s.chan n
  if !was && c.armed && s.setting 1 n 0x013 == 1 then
    event (s.updChan n fun c => { c with armed := false }) (0x0200 + n) 0
  else s

/-- A fail decided in tick `t` sets the latch in WINDOW_LATCH mode; a clear in a later tick, met before the decision came in,
has already removed it (03 R60, R61). -/
def setLatch (s : State) (n t : Nat) : State :=
  let c := s.chan n
  if s.setting 1 n 0x00D == 0 && c.st == .active then
    latchEvent (if t < c.clearedAt then s
      else s.updChan n fun c => { c with latch := true, setAt := Tab.set 0 c.setAt 4 t }) n c.latch
  else s

/-- A crossing in tick `t` sets its flag in EDGE_FLAG mode, unless a clear in a later tick has removed it (03 R60, R61). -/
def setFlag (s : State) (n x t : Nat) : State :=
  let c := s.chan n
  if s.setting 1 n 0x00D == 1 && (c.st == .idle || c.st == .active || c.st == .pmu) then
    latchEvent (if t < c.clearedAt then s
      else s.updChan n fun c => { c with flags := c.flags ||| BitVec.ofNat 4 (2 ^ x), setAt := Tab.set 0 c.setAt x t })
      n (c.flags.getLsbD x)
  else s

/-- Clear every latch bit (03 R60). -/
def clearLatch (s : State) (n : Nat) : State :=
  s.updChan n fun c => { c with latch := false, flags := 0, clearedAt := max c.clearedAt s.now }

/-- Clear the latch in tick `t`: the clear comes before any set of that tick, so a bit set in it or later stays (03 R61). -/
def clearLatchIn (s : State) (n t : Nat) : State :=
  s.updChan n fun c =>
    let late (x : Nat) : Bool := t ≤ Tab.get 0 c.setAt x
    { c with clearedAt := max c.clearedAt t,
             latch := c.latch && late 4,
             flags := (List.range 4).foldl (fun m x => if c.flags.getLsbD x && late x then m ||| BitVec.ofNat 4 (2 ^ x) else m) 0 }

/-! ### Compare decisions (03 R54, R59; 04 R84) -/

/-- A period of the sector of channel n owes one result less. -/
def oweLess (s : State) (n period : Nat) : State :=
  s.updSec (n / 64) fun x =>
    { x with periods := x.periods.map fun p => if p.num == period then { p with owed := p.owed - 1 } else p }

/-- Deliver the result of a compare, decided at edge step t, to the sector (03 R54; 01 R14). A failing compare of a match body,
no fail for its site under 06 R117, sets WINDOW_LATCH as well (DESIGN CHOICE, log entry 76). -/
def deliver (s : State) (n period : Nat) (fail : Bool) (capture : Option Nat) (t : Int) : State :=
  let sec := n / 64
  let r : Result := ⟨period, n, fail, capture, nextVector s sec t, t⟩
  let s := oweLess (s.updSec sec fun x => { x with results := x.results ++ [r] }) n period
  if fail then setLatch s n (t / 256).toNat else s

/-- Replace the compare of a period on a channel. -/
def putCompare (s : State) (n : Nat) (k : Compare) : State :=
  s.updChan n fun c => { c with compares := c.compares.map fun j => if j.period == k.period then k else j }

/-- Remove the compare of a period from a channel. -/
def dropCompare (s : State) (n period : Nat) : State :=
  s.updChan n fun c => { c with compares := c.compares.filter fun j => j.period != period }

/-- Decide a fail of an open window, once, at t (03 R54). -/
def failWindow (s : State) (n : Nat) (k : Compare) (t : Int) : State :=
  if k.failed then s else deliver (putCompare s n { k with failed := true, between := none }) n k.period true none t

/-- The instant at which a run of BETWEEN of a CV window, up to t, has lasted 1.25 ns (03 R54). -/
def runFails (k : Compare) (t : Int) : Option Int :=
  k.between.bind fun t0 => if t - t0 ≥ 512 then some (t0 + 512) else none

/-- The instant at which a run of BETWEEN that is still open at t has ended: edge blanking that began before t broke it
(03 R54). -/
def runStop (s : State) (n : Nat) (k : Compare) (t : Int) : Int :=
  let m := s.setting 1 n 0x00C
  match k.between with
  | some t0 => if m == 2 || m == 3 then
      (s.chan n).blanksDue.foldl (fun t p => if t0 < p.1 && p.1 < t then p.1 else t) t else t
  | none => t

/-- End the run of BETWEEN at t; a long enough run is a violation. -/
def endRun (s : State) (n : Nat) (k : Compare) (t : Int) : State :=
  match runFails k (runStop s n k t) with
  | some u => failWindow s n k u
  | none => putCompare s n { k with between := none }

/-- Evaluate an open window at an unblanked instant t with the classification then (03 R54, R59). -/
def evalWindow (s : State) (n : Nat) (k : Compare) (t : Int) : State :=
  if k.failed then s
  else
    let cls := classAt (s.chan n) t
    if k.code == 7 then
      if cls == 1 then
        match k.between with
        | some _ => putCompare s n { k with seen := true }
        | none => putCompare s n { k with seen := true, between := some t }
      else endRun s n { k with seen := true } t
    else if violates k.code cls then failWindow s n { k with seen := true } t
    else putCompare s n { k with seen := true }

/-- The open window of a channel, if one is open (04 R84). -/
def openWindow (c : Chan) : Option Compare := c.compares.find? (·.opened)

/-- The sector of channel n is, or was, WAITING at edge step t: no window opens and nothing is compared (06 R121). -/
def inWait (s : State) (n : Nat) (t : Int) : Bool :=
  let x := s.sec (n / 64)
  x.waitFrom.any (· ≤ t) && x.waitTo.all (t < ·)

/-- Where an open window ends: at its C1, or at the C0 of a window yet to open that truncates it (04 R84). -/
def windowEnd (c : Chan) (k : Compare) : Int :=
  c.compares.foldl (fun m j => if !j.opened && j.window && j.c0 < j.c1 && k.c0 < j.c0 then min m j.c0 else m) k.c1

/-- Evaluate the open window of a channel at t, if it is unblanked and t lies before its end. -/
def evalOpen (s : State) (n : Nat) (t : Int) : State :=
  match openWindow (s.chan n) with
  | some k => if k.c0 ≤ t && t < windowEnd (s.chan n) k && !blankedAt s n t && !inWait s n t then evalWindow s n k t else s
  | none => s

/-- End the run of BETWEEN of the open window of a channel at t. -/
def breakRun (s : State) (n : Nat) (t : Int) : State :=
  match openWindow (s.chan n) with
  | some k => if k.between.isSome then endRun s n k t else s
  | none => s

/-- Decide a run of BETWEEN that has lasted 1.25 ns by edge step t (03 R54). -/
def settleRun (s : State) (n : Nat) (t : Int) : State :=
  match openWindow (s.chan n) with
  | some k => match runFails k (runStop s n k (min t (windowEnd (s.chan n) k))) with
    | some u => failWindow s n k u
    | none => s
  | none => s

/-- Open a window at its C0 and evaluate it there and at the crossings since (03 R54, R59). -/
def openAt (s : State) (n : Nat) (k : Compare) : State :=
  let s := evalOpen (putCompare s n { k with opened := true }) n k.c0
  forEach ((s.chan n).hist.filter fun h => k.c0 < h.1) s fun h s => evalOpen s n h.1

/-- Close a window: truncated at t, or at its C1; one with no unblanked instant is evaluated there as a strobe, unless it ends
in a wait (03 R54, R59; 04 R84; 06 R121). -/
def closeWindow (s : State) (n : Nat) (k : Compare) (t : Int) (truncated : Bool) : State :=
  let s1 := dropCompare s n k.period
  if k.failed then s1
  else match runFails k (runStop s n k t) with
    | some u => deliver s1 n k.period true none u
    | none =>
      if k.seen || truncated || inWait s n t then deliver s1 n k.period false none t
      else deliver s1 n k.period (violates k.code (classAt (s.chan n) t)) none t

/-! ### Channel states (03 R63, R64) -/

/-- MODE of the image as a state (03 R64). -/
def modeState (m : Int) : ChanSt := if m == 1 then .idle else if m == 2 then .pmu else .hold

/-- Clear the pending starts of the slots of a sector's trigger units whose source has a code (09 R197). -/
def clearTuSource (s : State) (sector code : Nat) : State :=
  forEach [2 * sector, 2 * sector + 1] s fun u s =>
    s.updTu u fun x => { x with slots := (List.range 4).foldl (fun t m =>
      if s.setting 8 u (0x101 + 16 * m) == (code : Int) then Tab.upd {} t m fun k => { k with cut := stampNow s } else t) x.slots }

/-- What the PPMU forces by the static settings (08 R166 to R168). -/
def staticForce (s : State) (n : Nat) : PmuForce :=
  let m := s.settingN 1 n 0x301
  ⟨m, s.settingN 1 n 0x302, if m == 0 then s.setting 1 n 0x303 else if m == 1 then s.setting 1 n 0x304 else 0⟩

/-- The next item that a lane group has to run: of the first admitted list that names it (08 R180). -/
def nextItem (s : State) (lg : Nat) : Option (Nat × Nat) :=
  s.pmu.findSome? fun r =>
    if r.aborted then none
    else ((r.items.zip r.results).zipIdx.find? fun p => p.1.2.isNone && itemChan p.1.1 / 8 == lg).map fun p => (r.slot, p.2)

/-- The scan of a lane group: with SCAN_ENABLE and no item left it goes on with the channel under scan, or begins with the
next one that is in PMU state, in order of number; else it stops (08 R176). -/
def scanGo (s : State) (lg : Nat) : State :=
  let l := s.lg lg
  let inPmu (j : Nat) : Bool := (s.chan (8 * lg + j)).st == .pmu
  let last := l.scanCur.getD l.scan
  if l.item.isSome then s
  else if s.setting 2 lg 0x101 == 1 && (nextItem s lg).isNone then
    if l.scanCur.any inPmu then s
    else
      let cur := ((List.range 8).map fun j => (last + 1 + j) % 8).find? inPmu
      s.updLg lg fun l => { l with scanCur := cur, scan := last, due := s.now }
  else s.updLg lg fun l => { l with scanCur := none, scan := last }

/-- Put a channel in HOLD or ISOLATED: driver and PPMU off, no latch sets, open windows yield no result, pending trigger
starts cleared, no edge left (03 R54, R63, R64; 09 R197). -/
def holdChan (s : State) (n : Nat) (st : ChanSt) : State :=
  let s := settleRun s n (s.now * 256)
  let s := forEach ((s.chan n).compares.filter fun k => !k.failed) s fun k s => oweLess s n k.period
  let s := s.updChan n fun c =>
    ({ c with
        st := st, heldAt := if c.st == ChanSt.hold || c.st == ChanSt.isolated then c.heldAt else s.now, edges := [],
        compares := [], lastCode := none, lastEdge := none, slipTold := false, force := none,
        rangeBusy := none, blanksDue := [], hist := [], clkDesk := none }).drive s n .off 0
  scanGo (clearTuSource s (n / 64) (n % 64)) (n / 8)

/-- Put a channel in the state that a MODE names, by an applied record or by restoration (03 R64). -/
def enterMode (s : State) (n : Nat) (m : Int) : State :=
  let s := s.updChan n fun c => if c.st == .hold then { c with freeAt := s.now } else c
  match modeState m with
  | .hold => holdChan s n .hold
  | .idle =>
    scanGo (s.updChan n fun c =>
      ({ c with st := .idle, force := none, rangeBusy := none }).drive s n (idleDrv s n) (s.now * 256)) (n / 8)
  | _ =>
    scanGo (s.updChan n fun c =>
      ({ c with st := .pmu, force := some (staticForce s n), rangeBusy := none }).drive s n .off 0) (n / 8)

/-- Contain a channel: HOLD, or it stays ISOLATED; its site is TESTER_FAULT if it was ACTIVE (03 R64, R67). -/
def containChan (s : State) (n : Nat) : State :=
  let c := s.chan n
  if c.st == .isolated then s
  else
    let s := match c.st, c.site, (s.sec (n / 64)).own with
      | .active, some i, some id => faultSite s i id (nextVector s (n / 64) (s.now * 256 + 255))
      | _, _, _ => s
    holdChan s n .hold

end Sys2Proof.Machine
end

