-- ==== Sys2Proof/Machine/EccOps.lean ====
section
/-! DEFINITION. The error correction of DDR5 as its readers and writers meet it: single-bit errors corrected, uncorrectable beats
met and poisoned, and the read of a read-modify-write (21 R464, R468, R470, R472). -/

namespace Sys2Proof.Machine

open Sys2Proof

/-- The memory channel of an address: bit 7 (21 R464). -/
def memChanOf (a : Nat) : Nat := a / 128 % 2

/-- Corrected beats: counted, and told by 0x0464 at most once per second per channel (21 R468, R472). -/
def countCorrected (s : State) (line n : Nat) : State :=
  if n == 0 then s
  else
    let m := memChanOf (64 * line)
    let tell := match (s.memChan m).toldAt with
      | some t => decide (s.now - t ≥ secTicks)
      | none => true
    let s := s.updMemChan m fun c =>
      { c with corrected := satTo 32 (c.corrected + n), toldAt := if tell then some s.now else c.toldAt }
    if tell then notice s 0x0464 line else s

/-- A read corrects the single-bit errors of a range: the lines are written back, and each beat counts (21 R468, R472). -/
def correctRead (s : State) (a n : Nat) : State :=
  let bs := (s.mem.single.filter fun b => a ≤ 4 * b + 3 && 4 * b < a + n).mergeSort (· ≤ ·)
  forEach bs { s with mem.single := s.mem.single.filter fun b => !bs.contains b } fun b s => countCorrected s (b / 16) 1

/-- The uncorrectable beats of a range, in address order. -/
def badBeats (s : State) (a n : Nat) : List Nat :=
  ((s.mem.poison ++ s.mem.bad).filter fun b => a ≤ 4 * b + 3 && 4 * b < a + n).mergeSort (· ≤ ·)

/-- An uncorrectable beat is read: counted, told by 0x0463; one without the poison syndrome is poisoned and counts toward the fault
of its channel, which the eighth in 1 ms owes (21 R468, R470, R471). -/
def meetBeat (s : State) (b : Nat) : State :=
  let a := 4 * b
  let m := memChanOf a
  let isNew := s.mem.bad.contains b
  let s := s.updMemChan m fun c =>
    let recent := if isNew then s.now :: c.recent.filter fun t => s.now - t < 1000 * usTicks else c.recent
    { c with uncorrected := incSat 32 c.uncorrected, lastUe := some (a / 64 * 64),
             recent := if recent.length ≥ 8 then [] else recent, owed := c.owed || recent.length ≥ 8 }
  let s := notice s 0x0463 (a / 64)
  if !isNew then s
  else { s with mem.bad := s.mem.bad.filter (· != b),
                mem.poison := if s.mem.poison.contains b then s.mem.poison else b :: s.mem.poison }

/-- The read of a write of less than a line: single-bit errors of its lines are corrected, and uncorrectable beats that the write
does not supply are met (21 R468). The Boolean says that one was. -/
def meetModify (s : State) (a n : Nat) : State × Bool :=
  let lo := a / 64 * 64
  let hi := (a + n + 63) / 64 * 64
  let bs := (badBeats s lo (hi - lo)).filter fun b => !(a ≤ 4 * b && 4 * b + 4 ≤ a + n)
  if a % 64 == 0 && n % 64 == 0 then (s, false)
  else (forEach bs (correctRead s lo (hi - lo)) fun b s => meetBeat s b, !bs.isEmpty)

/-- Write bytes to DDR5, with the read of a write of less than a line; the Boolean says that it met an uncorrectable beat (21
R468). -/
def rmwWrite (s : State) (a : Nat) (bs : List Byte) : State × Bool :=
  let (s, bad) := meetModify s a bs.length
  (ddrWrite s a bs, bad)

end Sys2Proof.Machine
end

