-- ==== Sys2Proof/Machine/StampOps.lean ====
section
/-! DEFINITION. Shared operations of the streams: staging of stream blocks (13 R309, R310), engine input ports (12 R272,
R273), stamp records, their queues and destinations, and window generators (07). -/

namespace Sys2Proof.Machine

open Sys2Proof

/-! ### Staging of stream blocks (13 R309, R310) -/

/-- The staging of an STR ring has room: 32 blocks. -/
def stageRoom (s : State) (r : Nat) : Bool := (s.ring .str r).staged.length < 32

/-- Blocks of a ring that are not visible yet: in staging, or waiting at the source for room there. -/
def Ring.unseen (x : Ring) : Nat := x.staged.length + x.source.length

/-- Blocks that wait at their source enter staging as far as it has room (13 R310). -/
def Ring.restage (x : Ring) : Ring :=
  { x with staged := x.staged ++ x.source.take (32 - x.staged.length), source := x.source.drop (32 - x.staged.length) }

/-- Stage a block of 4 KiB for an STR ring; `last` marks LAST. A block of a stream that ends waits at its source while staging is
full (13 R309, R310). -/
def stageBlock (s : State) (r : Nat) (bytes : List Byte) (last : Bool) : State :=
  s.updRing .str r fun x =>
    Ring.restage { x with source := x.source ++ [(bytes ++ zeros (4096 - bytes.length), last)] }

/-- Bind an STR ring to a stream: both indices 0 (13 R309). -/
def bindStr (s : State) (r : Nat) : State :=
  s.updRing .str r fun x => { x with inUse := true, prod := 0, cons := 0, staged := [], source := [], closing := none }

/-- The STR ring is set up and free (07 R158 test 3). -/
def strFree (s : State) (r : Nat) : Bool := (s.ring .str r).enable && !(s.ring .str r).inUse

/-- Release an STR ring when its staging is empty, and complete the STREAM_CLOSE that waits for it (13 R310, 14 R334). -/
def strRelease (s : State) (r : Nat) : State :=
  let x := s.ring .str r
  match x.closing with
  | some (id, detail) =>
    if x.unseen = 0 then
      done (s.setRing .str r { x with inUse := false, closing := none }) id Status.ok detail
    else s
  | none => s

/-! ### Engine input ports (12 R272, R273, R281) -/

/-- Input port p of engine e. -/
def State.inPort (s : State) (e p : Nat) : InPort := Tab.get {} (s.eng e).ins p
/-- Update input port p of engine e. -/
def State.updIn (s : State) (e p : Nat) (f : InPort → InPort) : State :=
  s.updEng e fun x => { x with ins := Tab.upd {} x.ins p f }

/-- PORT_GATE is closed for a word of stamp time t: as the last change at or before t left it (12 R281). -/
def gateClosed (s : State) (e p t : Nat) : Bool :=
  let gs := (s.inPort e p).gates
  match gs.find? fun g => g.1 ≤ t, gs.getLast? with
  | some g, _ => !g.2
  | none, some g => g.2
  | none, none => s.setting 12 (16 * e + p) 1 == 0

/-- Set the sticky GAP bit of an engine (12 R258, R273). -/
def setGap (s : State) (e : Nat) : State := s.updEng e fun x => { x with stReg := x.stReg ||| 0x200 }

/-- The port takes k words of stamp time t: it holds 1,024, and a closed gate discards what comes (12 R272, R281). -/
def portTakes (s : State) (e p t k : Nat) : Bool := gateClosed s e p t || (s.inPort e p).words.length + k ≤ 1024

/-- Put words in a port that takes them; a closed gate discards them and counts them (12 R281). -/
def portPut (s : State) (e p t : Nat) (ws : List (Word × Bool)) : State :=
  if gateClosed s e p t then s.updEng e fun x => { x with discarded := satTo 32 (x.discarded + ws.length) }
  else s.updIn e p fun x => { x with words := x.words ++ ws }

/-- A GAP or LOST record passes a port, whose gate is open at t: GAP (12 R273). -/
def passGap (s : State) (e p t : Nat) : State := if gateClosed s e p t then s else setGap s e

/-- Count words lost at a port, with GAP (12 R273). -/
def portLose (s : State) (e p k : Nat) : State :=
  setGap (s.updIn e p fun x => { x with lost := satTo 32 (x.lost + k) }) e

/-! ### Stamp records (07 R145, R147 to R149) -/

/-- 1 µs in stamp units: longer than any path of 01 R14 that an event takes to its unit. -/
def usStamp : Nat := 1600 * 65536

/-- Round a division to nearest, ties to even (07 R145). -/
def tableStep (s : State) (n j : Nat) : Int := factoryVal s (chanRecOff n + 0x68 + 4 * j)

/-- Stamp time of a crossing by its ADC code and stop tick (07 R145), in stamp units. -/
def stampTime (s : State) (n kStop code : Nat) : Int :=
  let j := code / 128
  let w := if j = 31 then 127 else 128
  let delta := tableStep s n j + roundDiv ((tableStep s n (j + 1) - tableStep s n j) * ((code : Int) - 128 * j)) w
  65536 * (kStop : Int) + s.tickFrac.toNat - delta - factoryVal s (chanRecOff n + 0x60) - 256 * stepsOf (s.setting 1 n 0x206)

/-- A stamp record of a type at a stamp time (07 R147); a time before tick 0 wraps like the tick number. -/
def stampRec (type : Nat) (t : Int) : Stamp :=
  let u := fromSigned 80 t
  ⟨type, u / 65536 % 2 ^ 64, u % 65536⟩

/-- The 64-bit stamp record (07 R147). -/
def stampWord (r : Stamp) : Nat := r.type * 2 ^ 61 + (r.tick % 2 ^ 45) * 2 ^ 16 + r.fine

/-- The EPOCH record of a tick number (07 R148). -/
def epochWord (tick : Nat) : Nat := 6 * 2 ^ 61 + (tick / 2 ^ 45 % 2 ^ 19) * 2 ^ 16

/-- The LOST record of a channel (07 R149). -/
def lostWord (first count : Nat) : Nat := 7 * 2 ^ 61 + (first % 2 ^ 45) * 2 ^ 16 + satTo 16 count

/-- The open stamp stream that holds channel n (07 R158). -/
def streamOf (s : State) (n : Nat) : Option Nat :=
  (List.range 16).find? fun k =>
    let x := s.stream k
    x.isOpen && x.first ≤ n && n < x.first + x.count

/-- A stamp record is lost: counted, reported by LOST, and told once per stream (07 R149, R161). -/
def loseStamp (s : State) (n : Nat) (r : Stamp) : State :=
  match streamOf s n with
  | none => s
  | some k =>
    let told := (s.chan n).lostTold
    let s := s.updChan n fun c =>
      { c with lostStamps := incSat 32 c.lostStamps, lostCount := c.lostCount + 1,
               lostFirst := if c.lostCount = 0 then r.tick else c.lostFirst, lostTold := true }
    let s := s.updStream k fun x => { x with lost := incSat 32 x.lost }
    if told then s else notice0 s n 7 0

/-- A record goes before another of its channel: by its instant, a window record before a stamp of the same instant (07
R154, R157). -/
def recBefore (a b : Stamp) : Bool :=
  let key (r : Stamp) : Nat := 2 * (r.tick * 65536 + (if r.type ≤ 3 then r.fine else r.fine / 256 * 256)) + b2n (r.type ≤ 3)
  key a < key b

/-- Enter a record in the channel queue, whose records leave in time order: a stamp is lost at 120 entries, a window record at
128 (07 R157). -/
def queueStamp (s : State) (n : Nat) (r : Stamp) : State :=
  let c := s.chan n
  let limit := if r.type ≤ 3 then 120 else 128
  if c.queue.length ≥ limit then loseStamp s n r
  else s.updChan n fun c =>
    { c with queue := c.queue.takeWhile (fun q => !recBefore r q) ++ r :: c.queue.dropWhile (fun q => !recBefore r q),
             queuePeak := max c.queuePeak (c.queue.length + 1),
             stamps := if r.type ≤ 3 then addWrap 48 c.stamps 1 else c.stamps }

/-! ### Destinations of stamps (07 R159, R160; 12 R272) -/

/-- Write one 8-byte record to a channel's DDR5 area; LINEAR keeps its last 8 bytes for a LOST record. An uncorrectable beat that
the read of the write meets is a class 0 notice (07 R159; 21 R468, R470). -/
def areaPut (s : State) (k n : Nat) (w : Nat) (r : Stamp) : State :=
  let x := s.stream k
  let c := s.chan n
  let base := x.base + (n - x.first) * x.size
  if !x.ringMode && c.wrOff + 8 ≥ x.size then loseStamp (s.updChan n fun c => { c with areaFull := true }) n r
  else
    let (s, bad) := rmwWrite s (base + c.wrOff) (leBytes 8 w)
    let s := if bad then notice0 s n 57 0 else s
    s.updChan n fun c =>
      if c.wrOff + 8 ≥ x.size then { c with wrOff := 0, wraps := c.wraps + 1 } else { c with wrOff := c.wrOff + 8 }

/-- The words of a record for an engine port in RAW mode (12 R272). The words of stamp records, EPOCH and LOST among them, are no
record words that set IM, which are those of R207's records (12 R273; DESIGN CHOICE, log entry 79). -/
def rawWords (w : Nat) : List (Word × Bool) := [(BitVec.ofNat 32 w, false), (BitVec.ofNat 32 (w / 2 ^ 32), false)]

/-- Deliver a record to the engine port bound to a stream; an unbound or full port loses it (07 R159; 12 R272, R273). -/
def portStamp (s : State) (k n : Nat) (r : Stamp) (epoch lost : Option Nat) : State :=
  match (s.stream k).port with
  | none => loseStamp s n r
  | some (e, p) =>
    let t := r.tick * 65536 + r.fine
    let raw := (s.inPort e p).mode == 0
    if raw then
      let pre := (epoch.toList ++ lost.toList).flatMap rawWords
      let ws := pre ++ rawWords (stampWord r)
      if portTakes s e p t ws.length then
        let s := portPut s e p t ws
        let s := if lost.isSome then passGap s e p t else s
        s.updChan n fun c => { c with lostCount := 0, epochSent := some (r.tick / 2 ^ 45) }
      else loseStamp (portLose s e p 2) n r
    else if portTakes s e p t 2 then
      let c := s.chan n
      let isStamp := r.type ≤ 3
      let diff : Int := match c.prevStamp with
        | some q => (t : Int) - q
        | none => 0
      let sat := diff.natAbs > 2 ^ 31 - 1
      let d : Int := if sat then (if diff < 0 then -(2 ^ 31 - 1) else 2 ^ 31 - 1) else diff
      let w0 := n + r.type * 2 ^ 9 + b2n (isStamp && c.prevStamp.isNone) * 2 ^ 12 + b2n (isStamp && sat) * 2 ^ 13 +
        b2n lost.isSome * 2 ^ 14
      let w1 := if isStamp then fromSigned 32 d else r.fine % 256
      let s := portPut s e p t [(BitVec.ofNat 32 w0, false), (BitVec.ofNat 32 w1, false)]
      let s := if lost.isSome then passGap s e p t else s
      s.updChan n fun c =>
        { c with lostCount := 0, epochSent := some (r.tick / 2 ^ 45),
                 prevStamp := if isStamp then some t else c.prevStamp }
    else loseStamp (portLose s e p 2) n r

/-- The host block of a channel: header, EPOCH, records (07 R160). -/
def stampBlock (n : Nat) (words : List Nat) (tick seq : Nat) : List Byte :=
  let count := words.length + 1
  leBytes 8 (n + count * 2 ^ 16 + seq * 2 ^ 32) ++ leBytes 8 (epochWord tick) ++ words.flatMap (leBytes 8)

/-- The words that the records of a block in progress make, EPOCH records between them where bits [63:45] change. -/
def blockWords : Nat → List Stamp → List Nat
  | _, [] => []
  | up, r :: rest =>
    if r.type == 7 then lostWord r.tick r.fine :: blockWords up rest
    else if r.tick / 2 ^ 45 == up then stampWord r :: blockWords up rest
    else epochWord r.tick :: stampWord r :: blockWords (r.tick / 2 ^ 45) rest

/-- Stage the block in progress of a channel, if staging has room (07 R160). -/
def flushStampBlock (s : State) (k n : Nat) (last : Bool) : State :=
  let c := s.chan n
  let x := s.stream k
  match c.block with
  | [] => s
  | r :: _ =>
    if !stageRoom s x.str then s
    else
      let b := stampBlock n (blockWords (r.tick / 2 ^ 45) c.block) r.tick x.blockSeq
      let s := stageBlock s x.str b last
      let s := s.updStream k fun x => { x with blockSeq := addWrap 32 x.blockSeq 1 }
      s.updChan n fun c => { c with block := [] }

/-- Record slots that a block in progress uses, of 510. -/
def blockUsed (b : List Stamp) : Nat :=
  match b with
  | [] => 0
  | r :: _ => (blockWords (r.tick / 2 ^ 45) b).length

/-- Place one item in the block in progress of a channel; a block that cannot take it goes to staging first, and with no
room there the item is not placed (07 R160). -/
def placeStamp (s : State) (k n : Nat) (r : Stamp) : Option State :=
  let tooBig (s : State) : Bool := blockUsed ((s.chan n).block ++ [r]) > 510
  let s := if tooBig s then flushStampBlock s k n false else s
  if tooBig s then none
  else
    let s := s.updChan n fun c =>
      { c with block := c.block ++ [r], blockAt := if c.block.isEmpty then s.now else c.blockAt }
    some (if blockUsed (s.chan n).block = 510 then flushStampBlock s k n false else s)

/-- Deliver a record to the host block of its channel, a LOST record before it where one is due (07 R149, R160, R161). -/
def hostStamp (s : State) (k n : Nat) (r : Stamp) (lost : Bool) : State :=
  let c := s.chan n
  let s1 := if lost then placeStamp s k n ⟨7, c.lostFirst, satTo 16 c.lostCount⟩ else some s
  match s1 with
  | none => loseStamp s n r
  | some s1 =>
    let s1 := if lost then s1.updChan n fun c => { c with lostCount := 0 } else s1
    match placeStamp s1 k n r with
    | none => loseStamp s1 n r
    | some s2 => s2.updChan n fun c => { c with epochSent := some (r.tick / 2 ^ 45) }

/-- Deliver a record of channel n, with the EPOCH and LOST records it needs; one for DDR5 is lost while DDR5 is out of service (07
R148, R149, R159, R160; 21 R471). -/
def sendStamp (s : State) (n : Nat) (r : Stamp) : State :=
  match streamOf s n with
  | none => s
  | some k =>
    let c := s.chan n
    let epoch := if c.epochSent == some (r.tick / 2 ^ 45) then none else some (epochWord r.tick)
    let lost := if c.lostCount > 0 then some (lostWord c.lostFirst c.lostCount) else none
    match (s.stream k).dest with
    | 0 =>
      let x := s.stream k
      let need := 8 * (1 + epoch.toList.length + lost.toList.length)
      if !s.memUp then loseStamp s n r
      else if !x.ringMode && c.wrOff + need + 8 > x.size then
        loseStamp (s.updChan n fun c => { c with areaFull := true }) n r
      else
        let s := forEach (epoch.toList ++ lost.toList) s fun w s => areaPut s k n w r
        let s := s.updChan n fun c => { c with lostCount := 0, epochSent := some (r.tick / 2 ^ 45) }
        areaPut s k n (stampWord r) r
    | 1 => hostStamp s k n r lost.isSome
    | _ => portStamp s k n r epoch lost

/-! ### Window generators (07 R150 to R156) -/

/-- A crossing at stamp time t passes the window test of a channel (07 R150, R152). -/
def windowPass (s : State) (n t : Nat) : Bool :=
  let g := s.wg (n / 64) (s.settingN 1 n 0x205)
  let inside (w : Option (Nat × Nat)) : Bool := match w with
    | some (o, c) => o ≤ t && t < c
    | none => false
  inside g.win || g.past.any fun w => inside (some w)

/-- The next sweep start of an arming enters the scheduler, after `m` more starts than before: starts go on every STRIDE until
the arming ends (07 R151, R153). -/
def nextSweepStart (s : State) (n g : Nat) (a : Action) (m : Nat) : State :=
  let s := (unschedule s a.kind).updWg n g fun x => { x with starts := x.starts + m }
  let x := s.wg n g
  if x.stride = 0 then s else schedule s { a with pos := x.pos + BitVec.ofNat 64 (x.starts * x.stride) }

/-- The channels that follow a generator (07 R150). -/
def followers (s : State) (n g : Nat) : List Nat :=
  (List.range 64).filterMap fun c =>
    let ch := 64 * n + c
    if s.setting 1 ch 0x201 == 2 && s.setting 1 ch 0x205 == (g : Int) then some ch else none

/-- A WIN_OPEN or WIN_CLOSE record: the instant with the flag byte (07 R154). -/
def winRec (type t flags : Nat) : Stamp := ⟨type, t / 65536, t % 65536 / 256 * 256 + flags⟩

/-- The stamp time of a tick of `now`. -/
def stampOfNow (s : State) (t : Nat) : Int := (stampNow s : Int) + ((t : Int) - s.now) * 65536

/-- Queue WIN_CLOSE for the followers of a generator whose window opened at W_O, INTERRUPTED where the channel was in HOLD or
was restored since; one that entered HOLD in the window and is still in HOLD or ISOLATED owes it until it leaves (07 R154). -/
def closeRecords (s : State) (n g opened t : Nat) (uncertain last cut : Bool) : State :=
  forEach (followers s n g) s fun ch s =>
    let c := s.chan ch
    let rec' (i : Bool) : Stamp := winRec 5 t (g + 4 * b2n uncertain + 8 * b2n last + 16 * b2n i)
    if c.st == .hold || c.st == .isolated then
      (if (opened : Int) ≤ stampOfNow s c.heldAt then s.updChan ch fun c => { c with winOwed := c.winOwed ++ [rec' true] } else s)
    else queueStamp s ch (rec' (cut || decide ((opened : Int) < stampOfNow s c.freeAt)))

/-- The past windows that a decision may still ask for: those of the last µs, and those that a crossing still in the 64 ns
alignment may lie in (07 R139, R152; 09 R196). -/
def keptWins (s : State) (n : Nat) (past : List (Nat × Nat)) : List (Nat × Nat) :=
  past.filter fun w => w.2 + usStamp > stampNow s ||
    (List.range 64).any fun c => (s.chan (64 * n + c)).aligning.any fun q => q.2.tick * 65536 + q.2.fine < w.2

/-- End an arming: an open window closes at t, and the ARM completes (07 R153, R156). -/
def endArming (s : State) (n g status : Nat) : State :=
  let x := s.wg n g
  match x.armed with
  | none => s
  | some id =>
    let t := stampNow s
    let s := if x.isOpen then closeRecords s n g ((x.win.map Prod.fst).getD t) t x.uncertain true true else s
    let past := match x.win with
      | some w => if w.1 < t then keptWins s n x.past ++ [(w.1, min w.2 t)] else x.past
      | none => x.past
    let doneN := if x.isOpen then x.done + 1 else x.done
    let s := s.updWg n g fun x => { x with armed := none, isOpen := false, win := none, past := past, uncertain := false }
    let s := unschedule s (.window n g)
    complete s id status (satTo 32 doneN) (x.firstPos.getD x.checkPos)

/-- A fault of class 2 or 3 that touches the sector ends its armings TESTER_FAULT (07 R156). -/
def endArmings (s : State) (n : Nat) : State :=
  forEach (List.range 4) s fun g s => endArming s n g Status.testerFault

/-- A channel that leaves HOLD or ISOLATED queues the WIN_CLOSE records it owes (07 R154). -/
def payWindows (s : State) (n : Nat) : State :=
  let owed := (s.chan n).winOwed
  forEach owed (s.updChan n fun c => { c with winOwed := [] }) fun r s => queueStamp s n r

end Sys2Proof.Machine
end

