-- ==== Sys2Proof/Machine/DigOps.lean ====
section
/-! DEFINITION. Shared operations of the digitizers: sample times, flows, blocks and records, stop causes and mask tests
(09 R188 to R218). -/

namespace Sys2Proof.Machine

open Sys2Proof

/-! ### Sample times (09 R188) -/

/-- Stamp time of raw sample G. -/
def sampleTime (g : Nat) : Nat := g * 4194304 / 5

/-- S(t): the lowest sample whose time is not before stamp time t. -/
def sampleAt (t : Nat) : Nat := (5 * t + 4194303) / 4194304

/-- DEC_K of a digitizer. -/
def decK (s : State) (n : Nat) : Nat := s.settingN 7 n 5

/-! ### Records (09 R207, R208) -/

/-- Order of the record types at one sample: GAP, STATUS, MARK by unit, MASK (09 R208). -/
def recRank (r : FlowRec) : Nat :=
  let t := field r.bytes 0 1
  let u := field r.bytes 1 1
  if t == 2 then 0 else if t == 3 then 1 else if t == 1 then 2 + u else 40

/-- Insert a record in ascending SAMPLE, then by rank. -/
def insertRec (r : FlowRec) : List FlowRec → List FlowRec
  | [] => [r]
  | x :: rest =>
    if r.sample < x.sample || (r.sample == x.sample && recRank r < recRank x) then r :: x :: rest
    else x :: insertRec r rest

/-- A record of 16 bytes: TYPE, SOURCE, FLAGS, CAUSE, SAMPLE, OFFSET, SEQ (09 R207). -/
def mkRec (type source flags cause sample offset seq : Nat) : FlowRec :=
  ⟨sample, leBytes 1 type ++ leBytes 1 source ++ leBytes 1 flags ++ leBytes 1 cause ++ leBytes 6 sample ++
    leBytes 4 offset ++ leBytes 2 seq, 0⟩

/-- The GAP record of a loss (09 R207). -/
def gapRec (first count reason : Nat) (marksLost : Bool) : FlowRec :=
  ⟨first, leBytes 1 2 ++ leBytes 1 reason ++ leBytes 1 (b2n marksLost) ++ leBytes 1 0 ++ leBytes 6 first ++
    leBytes 6 count, 0⟩

/-! ### Flows -/

/-- A flow of a digitizer. -/
def getFlow (d : Dig) (dec : Bool) : Flow := if dec then d.dec else d.raw
/-- Replace a flow. -/
def putFlow (d : Dig) (dec : Bool) (f : Flow) : Dig := if dec then { d with dec := f } else { d with raw := f }
/-- Update a flow of digitizer n. -/
def State.updFlow (s : State) (n : Nat) (dec : Bool) (f : Flow → Flow) : State :=
  s.updDig n fun d => putFlow d dec (f (getFlow d dec))

/-- The most samples that a block holds beside its records (09 R206). -/
def blockCap (dec : Bool) (recs : Nat) : Nat := if dec then 1008 - 4 * recs else 2016 - 8 * recs

/-- The 4,096 bytes of a block (09 R206). -/
def flowBlock (n : Nat) (dec : Bool) (f : Flow) (last : Bool) : List Byte :=
  let w := if dec then 4 else 2
  let body := f.samples.flatMap (leBytes w)
  let recs := f.block.flatMap (·.bytes)
  let flags := b2n f.gapInBlock + 2 * b2n f.uncertain + 4 * b2n f.saturated + 8 * b2n last
  let head := leBytes 4 f.blockSeq ++ leBytes 1 (n + 16 * b2n dec) ++ leBytes 1 f.block.length ++
    leBytes 2 f.samples.length ++ leBytes 8 f.first ++ leBytes 8 f.firstPos.toNat ++ leBytes 8 f.lostTotal ++
    leBytes 1 flags ++ zeros 31
  head ++ body ++ zeros (4096 - 64 - body.length - recs.length) ++ recs

/-- What one sample adds to the credit of its flow: its share of a block that holds one record (09 R208; log entry 74). -/
def sampleCredit (dec : Bool) : Int := (if dec then 2 else 1) * 4096 * 1600000000

/-- A block's cost in credit. -/
def blockCost : Nat := 4096 * 2008 * 1600000000

/-- Count the capture capacity that admitted items have left unused since the last count, of the device and of each die link; what
nothing has used is not banked beyond one block (09 R208; 01 R17, R18; log entry 74). -/
def countSpare (s : State) : State :=
  let dt := s.now - s.mem.spareAt
  let more (was left : Nat) : Nat := min blockCost (was + 2008 * dt * left)
  { s with mem.spare := more s.mem.spare (scaleBudget s 12000000000 - s.mem.capture),
           mem.spareUp := (List.range 4).map fun d =>
             (d, more (Tab.get 0 s.mem.spareUp d) (24000000000 - Tab.get 0 s.mem.up d)),
           mem.spareAt := s.now }

/-- Pay a block of a DDR5 flow of digitizer n from the credit of its rate; what that lacks comes from the capacity that others
leave unused (09 R208). -/
def payBlock (s : State) (n : Nat) (dec : Bool) : State :=
  let f := getFlow (s.dig n) dec
  let need := (-f.credit).toNat
  { s with mem.spare := s.mem.spare - need, mem.spareUp := Tab.upd 0 s.mem.spareUp (n / 4) (· - need) }.updFlow n dec fun f =>
    { f with credit := max 0 f.credit - blockCost }

/-- The destination has a place for a block: the final block of a host stream waits in staging (09 R209; 13 R310). -/
def lastRoom (s : State) (f : Flow) : Bool :=
  match f.dest with
  | 0 => s.memUp && (f.ringMode || f.wrOff + 4096 ≤ f.size)
  | _ => true

/-- The destination can take a block of a flow of digitizer n now (09 R208 to R210); an engine port takes no blocks. -/
def blockRoom (s : State) (n : Nat) (f : Flow) : Bool :=
  match f.dest with
  | 0 => lastRoom s f && decide ((-f.credit).toNat ≤ min s.mem.spare (Tab.get 0 s.mem.spareUp (n / 4)))
  | 1 => stageRoom s f.str
  | _ => true

/-- The reason of a loss at a destination (09 R207; 21 R471: 4 while DDR5 is out of service). -/
def lossReason (s : State) (f : Flow) : Nat :=
  match f.dest with
  | 0 => if !s.memUp then 4 else if !lastRoom s f then 2 else 1
  | 1 => 0
  | _ => 3

/-- A block is in progress. -/
def Flow.begun (f : Flow) : Bool := !(f.samples.isEmpty && f.block.isEmpty)

/-- The block in progress cannot take one more sample with `k` more records (09 R206, R208). -/
def blockOver (dec : Bool) (f : Flow) (k : Nat) : Bool :=
  f.samples.length + 1 > blockCap dec (f.block.length + k) || f.block.length + k > 15

/-- Deliver the block in progress of a flow and start an empty one; a GAP record counts when it is written (09 R206, R209, R215,
R218). -/
def deliverBlock (s : State) (n : Nat) (dec last : Bool) : State :=
  let f := getFlow (s.dig n) dec
  let b := flowBlock n dec f last
  let s := match f.dest with
    | 0 => ddrWrite (payBlock s n dec) (f.base + f.wrOff) b
    | 1 => stageBlock s f.str b last
    | _ => s
  let s := if f.gapInBlock then s.updDig n fun d => { d with gaps := incSat 32 d.gaps, gapCount := d.gapCount + 1 } else s
  s.updFlow n dec fun f =>
    { f with blockSeq := addWrap 32 f.blockSeq 1, samples := [], block := [], uncertain := false, saturated := false,
             gapInBlock := false,
             wrOff := if f.dest = 0 then (if f.ringMode && f.wrOff + 8192 > f.size then 0 else f.wrOff + 4096)
               else f.wrOff }

/-- A record marked IN_GAP (09 R207, R210). -/
def inGap (r : FlowRec) : FlowRec := { r with bytes := setNth r.bytes 2 (BitVec.ofNat 8 (field r.bytes 2 1 ||| 4)) }

/-- A MARK or a STATUS record. -/
def isMark (r : FlowRec) : Bool := field r.bytes 0 1 == 1 || field r.bytes 0 1 == 3

/-- Hold a mark or a STATUS record of a lost sample, of 14 per flow; a MASK record is lost with its sample, and no counter shows it
(09 R210; DESIGN CHOICE, log entry 77). -/
def holdRec (s : State) (n : Nat) (dec : Bool) (r : FlowRec) : State :=
  if !isMark r then s
  else if (getFlow (s.dig n) dec).held.length < 14 then s.updFlow n dec fun f => { f with held := insertRec (inGap r) f.held }
  else (s.updFlow n dec fun f => { f with heldLost := true }).updDig n fun d =>
    { d with lostMarks := incSat 32 d.lostMarks }

/-- A flow loses sample g, and holds the records that stand at it (09 R210, R218); a raw sample that waits for its pair at an
engine port has lost it, and is lost as well (12 R272). The reason of a gap is that of its first lost sample (DESIGN CHOICE, log
entry 77). -/
def loseSample (s : State) (n : Nat) (dec : Bool) (g reason : Nat) : State :=
  let k := if dec then 2 ^ decK s n else 1
  let due := (getFlow (s.dig n) dec).recs.filter fun r => r.sample ≤ g
  let s := s.updDig n fun d =>
    let f := getFlow d dec
    let m := 1 + b2n f.half.isSome
    let gap := match f.gap with
      | some (a, c, r) => some (a, c + m, r)
      | none => some (g + 1 - m, m, reason)
    let recs := f.recs.filter fun r => r.sample > g
    { putFlow d dec { f with gap := gap, lostTotal := f.lostTotal + m, recs := recs, half := none } with
      lostSamples := satTo 48 (d.lostSamples + k * m) }
  forEach due s fun r s => holdRec s n dec r

/-- Close a loss: the new block begins with its GAP record and the records held; the next sample is g, at sweep position `pos`
(09 R206, R210). -/
def openAfterGap (s : State) (n : Nat) (dec : Bool) (g : Nat) (pos : Pos) : State :=
  match (getFlow (s.dig n) dec).gap with
  | none => s
  | some (a, c, r) =>
    s.updDig n fun d =>
      let f := getFlow d dec
      putFlow d dec { f with gap := none, block := gapRec a c r f.heldLost :: f.held, held := [], heldLost := false,
                             gapInBlock := true, first := g, firstPos := pos, firstAt := s.now }

/-- Words of a record for an engine port (12 R272). -/
def recWords (r : FlowRec) : List (Word × Bool) :=
  (List.range 4).map fun i => (BitVec.ofNat 32 (field r.bytes (4 * i) 4), true)

/-- Place a sample in a flow that goes to an engine port (09 R209; 12 R272, R273): two raw samples make one word. -/
def portSample (s : State) (n : Nat) (dec : Bool) (g v : Nat) : State :=
  let f := getFlow (s.dig n) dec
  match f.port with
  | none => loseSample s n dec g 3
  | some (e, p) =>
    let t := sampleTime (if dec then g * 2 ^ decK s n else g)
    match dec, f.half with
    | false, none => s.updFlow n dec fun f => { f with half := some v }
    | _, h =>
      let word : Word := if dec then BitVec.ofNat 32 v else BitVec.ofNat 32 (h.getD 0 + v * 65536)
      let gapW := match f.gap with
        | some (a, c, r) => [gapRec a c r f.heldLost]
        | none => []
      let due := f.recs.filter fun r => r.sample ≤ g
      let markers := (s.inPort e p).mode == 1
      let ws := (if markers then (gapW ++ f.held ++ due).flatMap recWords else []) ++ [(word, false)]
      if portTakes s e p t ws.length then
        let s := if f.gap.isSome then passGap s e p t else s
        let s := portPut s e p t ws
        let s := if f.gap.isSome then s.updDig n fun d => { d with gaps := incSat 32 d.gaps, gapCount := d.gapCount + 1 }
          else s
        s.updFlow n dec fun f =>
          { f with half := none, gap := none, held := [], heldLost := false,
                   recs := f.recs.filter fun r => r.sample > g }
      else
        loseSample (portLose s e p 1) n dec g 3

/-- Put sample g in the block in progress, with the records that stand at it (09 R206, R208). -/
def putSample (s : State) (n : Nat) (dec : Bool) (g v : Nat) (sat unc : Bool) (pos : Pos) (at' : Nat) : State :=
  s.updFlow n dec fun f =>
    let start := f.samples.isEmpty
    let due := f.recs.filter fun r => r.sample ≤ g
    { f with samples := f.samples ++ [v], block := due.foldl (fun b r => insertRec r b) f.block,
             recs := f.recs.filter fun r => r.sample > g,
             first := if start then g else f.first, firstPos := if start then pos else f.firstPos,
             firstAt := if f.begun then f.firstAt else at',
             saturated := f.saturated || sat, uncertain := f.uncertain || unc }

/-- Place sample g with value v in a flow. The present block closes before it where it is full, cannot hold the sample's records
beside its own, or a gap ends; a sample that no block can take is lost (09 R206, R208 to R210). -/
def flowSample (s : State) (n : Nat) (dec : Bool) (g v : Nat) (sat unc : Bool) (pos : Pos) (at' : Nat) : State :=
  let s := (countSpare s).updFlow n dec fun f => { f with credit := min blockCost (f.credit + sampleCredit dec) }
  let f := getFlow (s.dig n) dec
  if f.dest = 2 then portSample s n dec g v
  else
    let due := (f.recs.filter fun r => r.sample ≤ g).length
    let breaks := f.begun && (blockOver dec f due || f.gap.isSome)
    if breaks && !blockRoom s n f then loseSample s n dec g (lossReason s f)
    else
      let s := if breaks then deliverBlock s n dec false else s
      let f := getFlow (s.dig n) dec
      if !f.begun && !blockRoom s n f then loseSample s n dec g (lossReason s f)
      else
        let s := openAfterGap s n dec g pos
        let f := getFlow (s.dig n) dec
        if !blockOver dec f due then putSample s n dec g v sat unc pos at'
        else
          let s := deliverBlock s n dec false
          let f := getFlow (s.dig n) dec
          if blockRoom s n f then putSample s n dec g v sat unc pos at' else loseSample s n dec g (lossReason s f)

/-- The next sample that a flow places or loses. -/
def nextPlace (d : Dig) (dec : Bool) : Nat :=
  if dec then d.q else match d.line with
    | x :: _ => x.g
    | [] => d.g

/-- Add a record to an open flow: it waits for its sample; one of a lost sample is held (09 R208, R210). -/
def addRec (s : State) (n : Nat) (dec : Bool) (r : FlowRec) : State :=
  let f := getFlow (s.dig n) dec
  let lost : Bool := match f.gap with
    | some (a, _, _) => a ≤ r.sample && r.sample < nextPlace (s.dig n) dec
    | none => false
  if !f.isOpen then s
  else if lost then holdRec s n dec r
  else s.updFlow n dec fun f => { f with recs := insertRec r f.recs }

/-- Add a record to every open flow of a digitizer; in the DEC flow it counts decimated samples (09 R207). -/
def addRecs (s : State) (n : Nat) (mk : Nat → FlowRec) (g : Nat) : State :=
  let k := decK s n
  addRec (addRec s n false (mk g)) n true (mk ((g + 2 ^ k - 1) / 2 ^ k))

/-! ### Acquisitions (09 R212 to R215) -/

/-- The acquisition keeps samples. -/
def acqRuns (d : Dig) : Bool := d.acq == .running || d.acq == .post

/-- The STATUS stop record of a cause, at the last kept sample (09 R207, R214). -/
def stopRec (cause last : Nat) : FlowRec := mkRec 3 1 0 cause last 0 0

/-- Samples after the last kept one leave the line, and SAMPLES_KEPT counts them no longer (09 R214, R218). -/
def trimLine (s : State) (n last : Nat) : State :=
  s.updDig n fun d =>
    let line := d.line.filter fun x => x.g ≤ last
    let stop := max (last + 1) d.g0
    { d with line := line, kept := (d.kept + 2 ^ 48 - (d.keptTo - stop)) % 2 ^ 48, keptTo := min d.keptTo stop }

/-- A stop cause at sample g; the first stands (09 R214). `post` more samples are kept. The STATUS stop record stands at
the last kept sample, in a DEC flow at the last Q whose label is kept. -/
def stopCause (s : State) (n cause g post : Nat) : State :=
  let d := s.dig n
  if d.acq != .running || d.cause != 0 then s
  else
    let last := g + post
    let s := trimLine (s.updDig n fun d => { d with acq := .post, cause := cause, last := some last }) n last
    addRec (addRec s n false (stopRec cause last)) n true (stopRec cause (last / 2 ^ decK s n))

/-- Place the raw samples of the line that every mark has reached, 240 ns after them, or all of them (09 R197, R208; 01
R14). -/
def drainLine (s : State) (n : Nat) (all : Bool) : State :=
  let d := s.dig n
  let go (x : DigSample) : Bool := all || x.g + 30 ≤ d.g
  forEach (d.line.filter go) (s.updDig n fun d => { d with line := d.line.filter fun x => !go x }) fun x s =>
    if x.lost then loseSample s n false x.g 4 else flowSample s n false x.g x.v.toNat x.sat false x.pos x.at'

/-- Deliver the block in progress where `c` asks for it and there is a place. -/
def flushIf (s : State) (n : Nat) (dec c : Bool) : State :=
  if c && lastRoom s (getFlow (s.dig n) dec) then deliverBlock s n dec false else s

/-- Marks and STATUS records among some records: those that a loss counts in LOST_MARKS (09 R210). -/
def markCount (rs : List FlowRec) : Nat := (rs.filter isMark).length

/-- The end of a flow at an engine port: with MARKERS 1 a gap at its end and the records that no sample word has followed go to the
port, or are lost; a gap sets GAP in either mode (09 R210; 12 R272, R273). A last raw sample without a pair makes no word. -/
def portTail (s : State) (n : Nat) (dec : Bool) : State :=
  let f := getFlow (s.dig n) dec
  let gapW := match f.gap with
    | some (a, c, r) => [gapRec a c r f.heldLost]
    | none => []
  let lose (s : State) : State := s.updDig n fun d => { d with lostMarks := satTo 32 (d.lostMarks + markCount (f.held ++ f.recs)) }
  match f.port with
  | some (e, p) =>
    let t := stampNow s
    let markers := (s.inPort e p).mode == 1
    let ws := if markers then (gapW ++ f.held ++ f.recs).flatMap recWords else []
    let s := if f.gap.isSome then passGap s e p t else s
    if portTakes s e p t ws.length then
      let s := portPut s e p t ws
      if f.gap.isSome then s.updDig n fun d => { d with gaps := incSat 32 d.gaps, gapCount := d.gapCount + 1 } else s
    else lose (portLose s e p ws.length)
  | none => lose s

/-- A STATUS record of the start or the stop of an acquisition: it stands whichever samples are kept (09 R207, R212, R214). -/
def isStartStop (r : FlowRec) : Bool := field r.bytes 0 1 == 3 && field r.bytes 1 1 ≤ 1

/-- A flow ends: it delivers the samples placed, a gap at its end and the records of kept samples, the last block marked LAST;
what has no place to go is lost (09 R208 to R210). -/
def lastBlock (s : State) (n : Nat) (dec : Bool) : State :=
  let s := if dec then s else drainLine s n true
  let f := getFlow (s.dig n) dec
  if !f.isOpen then s
  else
    let d := s.dig n
    let next := match d.last with
      | some l => if dec then d.q else l + 1
      | none => if dec then d.q else d.g
    let bound := match d.last with
      | some l => min (if dec then l / 2 ^ decK s n else l) (next - 1)
      | none => next - 1
    let s := s.updFlow n dec fun f => { f with recs := f.recs.filter fun r => r.sample ≤ bound || isStartStop r }
    if f.dest = 2 then portTail s n dec else
    let s := flushIf s n dec (f.begun && f.gap.isSome)
    let pos := posAtStamp s (sampleTime (if dec then next * 2 ^ decK s n else next))
    let s := if (getFlow (s.dig n) dec).begun then s else
      openAfterGap (s.updFlow n dec fun f => { f with first := next, firstPos := pos }) n dec next pos
    let f := getFlow (s.dig n) dec
    let s := flushIf s n dec (f.samples.length > blockCap dec (f.block.length + f.recs.length) || f.block.length + f.recs.length > 15)
    let s := s.updFlow n dec fun f =>
      { f with block := f.recs.foldl (fun b r => insertRec r b) f.block, recs := [], first := if f.begun then f.first else next,
               firstPos := if f.begun then f.firstPos else pos }
    if lastRoom s (getFlow (s.dig n) dec) then deliverBlock s n dec true
    else s.updDig n fun d =>
      let f := getFlow d dec
      let k := f.samples.length
      { putFlow d dec { f with samples := [], block := [], lostTotal := f.lostTotal + k } with
        lostSamples := satTo 48 (d.lostSamples + k * (if dec then 2 ^ decK s n else 1)),
        lostMarks := satTo 32 (d.lostMarks + markCount (f.block ++ f.held)) }

/-- A block of an STR ring is visible: the ended acquisitions wait for one block less (09 R215). -/
def ackOwed (s : State) (r : Nat) : State :=
  let seen (w : Nat × Nat) : Nat × Nat := if w.1 == r then (w.1, w.2 - 1) else w
  forEach (List.range 16) s fun n s =>
    let s := if (s.dig n).closing.isEmpty then s else s.updDig n fun d => { d with closing := d.closing.map seen }
    if (s.dig n).owed.isEmpty then s
    else s.updDig n fun d => { d with owed := d.owed.map fun o => { o with waits := o.waits.map seen } }

/-- Complete the ARMs whose acquisitions have ended and whose LAST blocks are all visible (09 R215). -/
def tryFinishAcq (s : State) (n : Nat) : State :=
  let ready (o : OwedArm) : Bool := o.waits.all fun w => w.2 == 0
  let d := s.dig n
  if d.owed.isEmpty then s
  else forEach (d.owed.filter ready) (s.updDig n fun d => { d with owed := d.owed.filter fun o => !ready o }) fun o s =>
    complete s o.slot o.status o.detail o.pos

/-- End an acquisition: its flows end with their LAST blocks, and the ARM completes (09 R215). -/
def endAcq (s : State) (n status : Nat) : State :=
  let d := s.dig n
  if d.acq == .idle then s
  else
    let s := if acqRuns d then lastBlock (lastBlock s n false) n true else s
    let gapN := (s.dig n).gapCount
    let s := s.updDig n fun d =>
      { d with acq := .idle, slot := none, cause := 0, last := none, startG := none, test := none, mask := [], touched := false,
               gapCount := 0, line := [], closing := [] }
    let s := s.updFlow n false fun f => { f with gap := none, held := [], heldLost := false, recs := [], half := none }
    let s := s.updFlow n true fun f => { f with gap := none, held := [], heldLost := false, recs := [], half := none }
    let s := unschedule s (.acq n)
    let status := if d.touched then Status.testerFault else status
    let waits := d.closing ++
      (([d.raw, d.dec].filter fun f => f.isOpen && f.dest == 1).map fun f => (f.str, (s.ring .str f.str).unseen))
    match d.slot with
    | some id =>
      tryFinishAcq (s.updDig n fun x => { x with owed := x.owed ++ [⟨id, status, satTo 32 gapN, d.startPos, waits⟩] }) n
    | none => s

/-! ### Trigger bus pulses (09 R200) -/

/-- Drive a trigger bus line for `len` × 20 ns from now; a running pulse is extended, and none is cut: drivers combine
wired-OR (09 R200). -/
def pulseLine (s : State) (line len : Nat) : State :=
  s.updLine line fun x => { x with pulseEnd := some (max (x.pulseEnd.getD 0) (s.now + 32 * len)) }

/-! ### Mask tests (09 R216, R217) -/

/-- Fields of a mask table. -/
def maskUp (m : List Byte) : Nat := field m 0 2
/-- Lower points. -/
def maskLo (m : List Byte) : Nat := field m 2 2
/-- Raw samples between points. -/
def maskSpacing (m : List Byte) : Nat := field m 4 2
/-- Anchor source. -/
def maskAnchor (m : List Byte) : Nat := field m 6 1
/-- Actions. -/
def maskAct (m : List Byte) : Nat := field m 7 1
/-- Raw samples from the anchor to point 0. -/
def maskOffset (m : List Byte) : Nat := field m 8 4

/-- A mask table is well formed (09 R216). -/
def maskOk (m : List Byte) : Bool :=
  maskUp m ≤ 4096 && maskLo m ≤ 4096 && maskUp m + maskLo m ≥ 1 && maskSpacing m ≥ 1 && maskAnchor m ≤ 4 &&
    maskAct m ≤ 15 && field m 16 1 ≤ 3 && field m 17 1 ≤ 7 && field m 18 1 ≥ 1 && zeroBytes m 19 32 &&
    m.length ≥ 32 + 2 * (maskUp m + maskLo m)

/-- An anchor at sample g starts a test, or is ignored (09 R217). -/
def maskStart (s : State) (n g : Nat) : State :=
  let d := s.dig n
  if d.mask.isEmpty || !acqRuns d then s
  else if d.test.isSome then s.updDig n fun d => { d with maskIgnored := incSat 32 d.maskIgnored }
  else s.updDig n fun d =>
    { d with test := some (g, 0, false), maskTests := incSat 32 d.maskTests, testSeq := d.testSeq + 1 }

/-- Test sample g of value v against the mask; `lost` says that the sample was lost (09 R217). SEQ of the MASK record counts the
tests before this one (09 R207; DESIGN CHOICE, log entry 77). -/
def maskSample (s : State) (n g : Nat) (v : Int) (lost : Bool) : State :=
  let d := s.dig n
  match d.test with
  | none => s
  | some (a, i, inc) =>
    let m := d.mask
    if g != a + maskOffset m + i * maskSpacing m then s
    else
      let points := max (maskUp m) (maskLo m)
      let next := if i + 1 ≥ points then none else some (a, i + 1, inc || lost)
      if lost then s.updDig n fun d => { d with test := next }
      else
        let up := i < maskUp m && v > fieldS m (32 + 2 * i) 2
        let lo := i < maskLo m && v < fieldS m (32 + 2 * (maskUp m + i)) 2
        if !(up || lo) then s.updDig n fun d => { d with test := next }
        else
          let s := s.updDig n fun d => { d with test := none, maskViolations := incSat 32 d.maskViolations }
          let flags := b2n up + 2 * b2n lo + 4 * b2n inc
          let s := addRecs s n (fun q => mkRec 4 0 flags 0 q i ((d.testSeq - 1) % 65536)) g
          let act := maskAct m
          let s := if bitOf act 0 then stopCause s n 3 g (field m 12 4) else s
          let s := if bitOf act 1 then
              forEach (maskList 2 (field m 16 1)) s fun j s => requestStop s (2 * (n / 4) + j) else s
          let s := if bitOf act 2 then pulseLine s (field m 17 1) (field m 18 1) else s
          if bitOf act 3 then event s (0x0410 + n) 0 else s

/-- The points of a test that lie at samples already taken are tested at once (09 R217): an anchor is decided up to 240 ns after
its sample. -/
def maskBack (s : State) (n : Nat) : State :=
  let d := s.dig n
  let first := d.g - d.recent.length
  forEach d.recent.zipIdx s fun p s =>
    let g := first + p.2
    if d.g0 ≤ g && (match d.last with
      | some l => g ≤ l
      | none => true) then maskSample s n g p.1.1.toInt p.1.2.1 else s

end Sys2Proof.Machine
end

