-- ==== Sys2Proof/Machine/TuOps.lean ====
section
/-! DEFINITION. Shared operations of the trigger units: events, slots, qualifiers, the gate and firing (09 R192 to R203). -/

namespace Sys2Proof.Machine

open Sys2Proof

/-- A setting of unit u as a decision instant t reads it: the value before the first change after t (09 R197). -/
def tuSet (s : State) (u par t : Nat) : Int :=
  match (s.tu u).past.find? fun h => h.2.1 == par && t < h.1 with
  | some h => h.2.2
  | none => s.setting 8 u par

/-- A parameter of slot m of unit u at time t (09 R201): 0 KIND, 1 SOURCE, 2 SEL, 3 QUAL, 4 T_MIN, 5 T_MAX. -/
def slotPar (s : State) (u m k t : Nat) : Int := tuSet s u (0x100 + 16 * m + k) t

/-- QUAL of a time v measured at t; an EDGE event without one satisfies only NONE (09 R195). -/
def qualOk (s : State) (u m t : Nat) (v : Option Nat) : Bool :=
  let q := slotPar s u m 3 t
  if q == 0 then true
  else match v with
    | none => false
    | some v =>
      let inside := stampUnits (slotPar s u m 4 t) ≤ (v : Int) && (v : Int) ≤ stampUnits (slotPar s u m 5 t)
      if q == 1 then inside else !inside

/-- A trigger-bus line is asserted at time t; an edge at t counts as already made (09 R196). -/
def lineAt (s : State) (k t : Nat) : Bool :=
  let x := s.line k
  match (x.edges.filter fun e => e.1 ≤ t).getLast?, x.edges with
  | some e, _ => e.2
  | none, e :: _ => !e.2
  | none, [] => x.asserted

/-- The bits of a channel after an accepted crossing. -/
def accBits (b : Bool × Bool) (ev : Nat) : Bool × Bool :=
  match ev with
  | 0 => (false, b.2)
  | 1 => (true, b.2)
  | 2 => (b.1, false)
  | _ => (b.1, true)

/-- The classification of a channel at time t by its accepted crossings: 0 BELOW, 1 BETWEEN, 2 ABOVE (09 R196; 03 R53). -/
def accClass (s : State) (n t : Nat) : Nat :=
  let c := s.chan n
  let b := (c.accepted.filter fun e => e.1 ≤ t).foldl (fun b e => accBits b e.2) (c.accVol, c.accVoh)
  if b.2 then 2 else if b.1 then 1 else 0

/-- Enter an accepted crossing: those of the last µs stand with their times (09 R196). -/
def noteAccepted (s : State) (n ev t : Nat) : State :=
  s.updChan n fun c =>
    let old := c.accepted.filter fun e => e.1 + usStamp ≤ t
    let b := old.foldl (fun b e => accBits b e.2) (c.accVol, c.accVoh)
    { c with accVol := b.1, accVoh := b.2, accepted := (c.accepted.filter fun e => !(e.1 + usStamp ≤ t)) ++ [(t, ev)] }

/-- The gate of a unit holds at stamp time t (09 R196). -/
def gateHolds (s : State) (u t : Nat) : Bool :=
  let sel := (tuSet s u 3 t).toNat
  match (tuSet s u 2 t).toNat with
  | 0 => true
  | 1 => lineAt s sel t
  | 2 => !lineAt s sel t
  | 3 => accClass s (64 * (u / 2) + sel % 64) t == sel / 64
  | _ =>
    let g := s.wg (u / 2) (sel % 4)
    (g.past ++ g.win.toList).any fun w => w.1 ≤ t && t < w.2

/-- Update slot m of unit u. -/
def State.updTuSlot (s : State) (u m : Nat) (f : TuSlot → TuSlot) : State :=
  s.updTu u fun x => { x with slots := Tab.upd {} x.slots m f }

/-- A slot completes at stamp time t with measured time v: it stands for the unit's decision where the unit is enabled and QUAL is
true (09 R195, R198). -/
def slotHit (s : State) (u m t : Nat) (v : Option Nat) (coarse : Bool) : State :=
  if tuSet s u 1 t == 1 && qualOk s u m t v then s.updTu u fun x => { x with hits := x.hits ++ [⟨m, t, coarse⟩] } else s

/-- An earlier event at t0 still counts at t: none of the clearings of 09 R197 lies between. -/
def stillCounts (cut t0 t : Nat) : Bool := !(t0 < cut && cut ≤ t)

/-- Complete a slot whose start stands. -/
def slotEnd (s : State) (u m t : Nat) (coarse : Bool) : State :=
  let k := Tab.get {} (s.tu u).slots m
  let s := s.updTuSlot u m fun k => { k with start := none }
  match k.start with
  | some t0 => if stillCounts k.cut t0 t then slotHit s u m t (some (t - t0)) coarse else s
  | none => s

/-- Start a slot: the latest start event counts (09 R194). -/
def slotStart (s : State) (u m t : Nat) : State :=
  s.updTuSlot u m fun k => { k with start := some t, fired := false }

/-- Discard a pending start (09 R194). -/
def slotDrop (s : State) (u m : Nat) : State := s.updTuSlot u m fun k => { k with start := none }

/-- A start, a completing and a breaking event type of a measuring slot. -/
def slotTriple (s : State) (u m ev t : Nat) (coarse : Bool) (start stop : Nat) (brk : Option Nat) : State :=
  if ev = start then slotStart s u m t
  else if ev = stop then slotEnd s u m t coarse
  else if brk = some ev then slotDrop s u m
  else s

/-- Event types that enter a classification (09 R194): 0 BELOW by a fall of L, 2 ABOVE by a rise of H, 1 BETWEEN else. -/
def entersClass (cls ev : Nat) : Bool :=
  match cls with
  | 0 => ev == 0
  | 2 => ev == 3
  | _ => ev == 1 || ev == 2

/-- Event types that leave a classification. -/
def leavesClass (cls ev : Nat) : Bool :=
  match cls with
  | 0 => ev == 1
  | 2 => ev == 2
  | _ => ev == 0 || ev == 3

/-- One event of a slot's source: type 0 to 3 for crossings, 0 and 1 for a line's assertion and release, 0 for a mark
(09 R192, R194). -/
def slotEvent (s : State) (u m ev t : Nat) (coarse : Bool) : State :=
  let sel := (slotPar s u m 2 t).toNat
  let neg := bitOf sel 0
  match (slotPar s u m 0 t).toNat with
  | 1 =>
    if ev = sel then
      let k := Tab.get {} (s.tu u).slots m
      slotHit (s.updTuSlot u m fun k => { k with last := some t }) u m t ((k.last.filter fun l => stillCounts k.cutLast l t).map fun l => t - l) coarse
    else s
  | 2 =>
    let hi := if bitOf sel 1 then 2 else 0
    if neg then slotTriple s u m ev t coarse hi (hi + 1) none else slotTriple s u m ev t coarse (hi + 1) hi none
  | 3 => if neg then slotTriple s u m ev t coarse 2 3 (some 0) else slotTriple s u m ev t coarse 1 0 (some 3)
  | 4 =>
    let (a, b) := if slotPar s u m 3 t == 1 then (entersClass sel ev, leavesClass sel ev)
      else (leavesClass sel ev, entersClass sel ev)
    if a then slotStart s u m t else if b then slotDrop s u m else s
  | 5 => if neg then slotTriple s u m ev t coarse 2 0 (some 3) else slotTriple s u m ev t coarse 1 3 (some 0)
  | _ => s

/-- An event of a source code reaches the slots of unit u (09 R192); a unit held in recovery takes none (09 R197; 01
R24). -/
def tuEvent (s : State) (u code ev t : Nat) (coarse : Bool) : State :=
  if isContained s (domSec (u / 2)) then s
  else forEach (List.range 4) s fun m s =>
    if slotPar s u m 1 t == (code : Int) && slotPar s u m 0 t != 0 then slotEvent s u m ev t coarse else s

/-- An accepted crossing of channel n reaches the two units of its sector, and their gates (07 R142; 09 R196). -/
def tuCrossing (s : State) (n ev t : Nat) (coarse : Bool) : State :=
  forEach [2 * (n / 64), 2 * (n / 64) + 1] (noteAccepted s n ev t) fun u s => tuEvent s u (n % 64) ev t coarse

/-- A derived crossing of digitizer n reaches the four units of its die (09 R192, R193). -/
def tuDerived (s : State) (n ev t : Nat) : State :=
  forEach ((List.range 4).map fun j => 4 * (n / 4) + j) s fun u s => tuEvent s u (0x40 + n % 4) ev t false

/-- A mark or a line edge reaches the units that see it (09 R192). -/
def tuAll (s : State) (units : List Nat) (code ev t : Nat) : State :=
  forEach units s fun u s => tuEvent s u code ev t false

/-- Write the MARK of a firing to one flow; other units' marks at the same sample are COINCIDENT with it (09 R199,
R200). -/
def markFlow (s : State) (n : Nat) (dec : Bool) (u g td cause seq : Nat) (coarse : Bool) : State :=
  let f := getFlow (s.dig n) dec
  if !f.isOpen || !acqRuns (s.dig n) then s
  else
    let k := decK s n
    let q := if dec then (g + 2 ^ k - 1) / 2 ^ k else g
    let same (r : FlowRec) : Bool := r.g == g && field r.bytes 0 1 == 1 && field r.bytes 1 1 < 16
    let others := (f.recs ++ f.held).filter same
    let coin := !others.isEmpty
    let setCoin (r : FlowRec) : FlowRec :=
      if same r then { r with bytes := setNth r.bytes 2 (BitVec.ofNat 8 (field r.bytes 2 1 ||| 1)) } else r
    let s := s.updFlow n dec fun f => { f with recs := f.recs.map setCoin, held := f.held.map setCoin }
    let s := forEach (others.filter fun r => !bitOf (field r.bytes 2 1) 0) s fun r s =>
      s.updTu (field r.bytes 1 1) fun x => { x with coincident := incSat 32 x.coincident }
    let s := if coin then s.updTu u fun x => { x with coincident := incSat 32 x.coincident } else s
    addRec s n dec (mkRec 1 u (b2n coin + 2 * b2n coarse) cause q (sampleTime g - td) (seq % 65536) |> fun r => { r with g := g })

/-- The actions of a firing at sample g, by the settings of its decision instant td (09 R197, R200). -/
def fireActions (s : State) (u g td cause seq : Nat) (coarse : Bool) : State :=
  let die := u / 4
  let par (k : Nat) : Nat := (tuSet s u k td).toNat
  let acts := par 5
  let marks := par 6
  let line := par 7
  let len := par 8
  let mode := par 9
  let seg := par 10
  let awgs := par 11
  let stops := par 12
  let s := if bitOf acts 0 then
      forEach (maskList 4 marks) s fun j s =>
        let n := 4 * die + j
        markFlow (markFlow s n false u g td cause seq coarse) n true u g td cause seq coarse
    else s
  let s := if bitOf acts 1 then pulseLine s line len else s
  let s := if bitOf acts 2 then
      (if mode = 0 then requestStop s (u / 2)
       else if !burstTakesJump s (u / 2) then s
       else if jumpOk s (u / 2) seg then requestJump s (u / 2) seg (tuKey u) none
       else notice s (0x0440 + u / 2) 0)
    else s
  let s := if bitOf acts 3 then
      forEach (maskList 4 awgs) s fun j s => s.updAwg (4 * die + j) fun a => { a with due := a.due ++ [td] }
    else s
  let s := if bitOf acts 4 then
      forEach (maskList 4 stops) s fun j s => stopCause s (4 * die + j) 2 g (s.dig (4 * die + j)).post
    else s
  let s := if bitOf acts 5 then event s (0x0420 + u) 0 else s
  -- acquisitions that start on this unit, and mask tests anchored on it
  forEach (List.range 4) s fun j s =>
    let n := 4 * die + j
    let d := s.dig n
    let s := if d.acq == .armed && d.start = 3 && d.sel = u && d.startG.isNone then s.updDig n fun d => { d with startG := some g } else s
    if !d.mask.isEmpty && maskAnchor d.mask = u % 4 + 1 then
      (if d.test.isSome then maskStart s n g else maskBack (maskStart s n g) n)
    else s

/-- The trigger units of a sector are held in recovery, or its die is contained: they clear their pending starts and do not
fire (01 R24; 09 R197). -/
def clearTu (s : State) (u : Nat) : State :=
  s.updTu u fun x => { x with
    slots := (List.range 4).foldl (fun t m =>
      Tab.upd {} t m fun k => { k with cut := stampNow s, cutLast := stampNow s }) x.slots
    hits := [] }

end Sys2Proof.Machine
end

