-- ==== Sys2Proof/Machine/AwgOps.lean ====
section
/-! DEFINITION. Shared operations of the waveform sources (10) and synthesizers (11). -/

namespace Sys2Proof.Machine

open Sys2Proof

/-! ### Sequence entries (10 R227) -/

/-- SEG of an entry. -/
def eSeg (e : BitVec 64) : Nat := bits e.toNat 9 0
/-- NEXT of an entry. -/
def eNext (e : BitVec 64) : Nat := bits e.toNat 23 12
/-- END of an entry. -/
def eEnd (e : BitVec 64) : Bool := bitOf e.toNat 24
/-- WAIT of an entry. -/
def eWait (e : BitVec 64) : Bool := bitOf e.toNat 25
/-- MARK of an entry. -/
def eMark (e : BitVec 64) : Nat := bits e.toNat 27 26
/-- REPEAT of an entry; 0 is empty. -/
def eRepeat (e : BitVec 64) : Nat := bits e.toNat 55 32

/-- Entry k of the sequence table of a source. -/
def entryOf (a : Awg) (k : Nat) : BitVec 64 := Tab.get 0 a.table k

/-- The directory entry of a segment. -/
def awgSegOf (a : Awg) (g : Nat) : Option AwgSeg := Tab.get none a.dir g

/-- An entry cannot be played: it is empty, or its segment is (10 R231). -/
def entryEmpty (a : Awg) (e : BitVec 64) : Bool := eRepeat e == 0 || (awgSegOf a (eSeg e)).isNone

/-- Read `n` entries from k along NEXT into a look-ahead; none follows END (10 R229). -/
def lookFrom (a : Awg) : Nat → Nat → List (Nat × BitVec 64)
  | 0, _ => []
  | n + 1, k =>
    let e := entryOf a k
    (k, e) :: (if eEnd e || eRepeat e == 0 then [] else lookFrom a n (eNext e))

/-- Move the look-ahead to its second entry and read one more (10 R229). -/
def lookNext (a : Awg) : List (Nat × BitVec 64) :=
  let rest := a.look.drop 1
  match rest.getLast? with
  | some (_, e) => if eEnd e || eRepeat e == 0 then rest else
      (if rest.length < 3 then rest ++ [(eNext e, entryOf a (eNext e))] else rest)
  | none => []

/-- The entries of a pending jump's look-ahead (10 R229). -/
def jumpLook (a : Awg) : List (Nat × BitVec 64) :=
  match a.jump with
  | some j => match j.target with
    | some t => lookFrom a 2 t
    | none => []
  | none => []

/-- A sequence is under way (10 R229). -/
def awgBusy (a : Awg) : Bool := a.st == .armed || a.st == .running || a.st == .waiting || a.st == .holding

/-- Entry k is active (10 R229). -/
def entryActive (a : Awg) (k : Nat) : Bool := awgBusy a && !a.dds && (a.look ++ jumpLook a).any fun p => p.1 == k

/-- Segment g is active (10 R229). -/
def awgSegActive (a : Awg) (g : Nat) : Bool :=
  awgBusy a && !a.dds && (a.look ++ jumpLook a).any fun p => eSeg p.2 == g

/-! ### DAC clocks (10 R238) -/

/-- Stamp time of DAC clock A. -/
def dacTime (a : Nat) : Nat := a * 524288 / 5
/-- The first DAC clock at or after stamp time t. -/
def dacAt (t : Nat) : Nat := (5 * t + 524287) / 524288
/-- The first DAC clock at or after the present tick. -/
def dacNow (s : State) : Nat := dacAt (stampNow s)

/-! ### Direct digital synthesis (10 R238) -/

/-- π × 2^120. -/
def piFix : Int := 4175892906503776358826876457663557747

/-- sin x for x × 2^120 in the first quadrant, by its series. -/
def sinSeries : Nat → Int → Int → Nat → Int → Int
  | 0, _, _, _, acc => acc
  | n + 1, x2, term, k, acc =>
    let next := -(term * x2) / (2 ^ 120 * ((k + 1) * (k + 2) : Nat))
    sinSeries n x2 next (k + 2) (acc + next)

/-- sin (2π × phase / 2^48) × 2^120; exact at the quadrant points. -/
def sinFix (phase : Nat) : Int :=
  let p : Nat := phase % 2 ^ 48
  let neg := p ≥ 2 ^ 47
  let h : Nat := p % 2 ^ 47
  let q : Nat := if h > 2 ^ 46 then 2 ^ 47 - h else h
  let x : Int := piFix * (q : Int) / 2 ^ 47
  let v : Int := if q = 2 ^ 46 then 2 ^ 120 else if q = 0 then 0 else sinSeries 24 (x * x / 2 ^ 120) x 1 x
  if neg then -v else v

/-- Sample k of a DDS source (10 R238). -/
def ddsSample (ftw phase : Nat) (ampl offset : Int) (k : Nat) : Int :=
  let acc := (k * ftw) % 2 ^ 48
  let v := roundDiv (ampl * sinFix ((acc + phase * 2 ^ 32) % 2 ^ 48)) (2 ^ 120) + offset
  min 32767 (max (-32768) v)

/-- Frequency tuning word (10 R238). -/
def ddsFtw (mhz : Int) : Nat := (roundDiv (mhz * 2 ^ 48) (10 ^ 12)).toNat

/-! ### Output and ending (10 R230, R231, R234, R236, R239) -/

/-- The DAC clock at which the present repetition ends. -/
def repEnd (a : Awg) : Nat :=
  match a.look with
  | (_, e) :: _ => match awgSegOf a (eSeg e) with
    | some g => a.clk + a.heldFor + g.len
    | none => a.clk
  | [] => a.clk

/-- The sample that stands at an index of a resident segment. -/
def residentSample (a : Awg) (g : AwgSeg) (k : Nat) : BitVec 16 := Tab.get 0 a.buffer (64 * g.base + k)

/-- Drop the streamed samples that have played, keeping the last as the output value. -/
def dropPlayed (a : Awg) (played : Nat) : Awg :=
  let gone := a.fetch - a.window.length
  let k := min (played - gone) a.window.length
  { a with window := a.window.drop k, last := ((a.window.take k).getLast?).getD a.last }

/-- The output of a source before DAC clock `clk`: the last sample played. -/
def awgOutputAt (s : State) (n clk : Nat) : Awg :=
  let a := s.awg n
  if a.st != .running then a
  else if a.dds then
    if clk ≤ a.ddsClk then a
    else
      { a with last := BitVec.ofInt 16 (ddsSample a.ftw a.ddsPhase (s.setting 6 n 0x10) (s.setting 6 n 0x11)
          (clk - 1 - a.ddsClk)) }
  else match a.look with
    | (_, e) :: _ => match awgSegOf a (eSeg e) with
      | some g =>
        let k := min (clk - a.clk - a.heldFor) g.len
        if k = 0 then a
        else if g.kind == 1 then { a with last := residentSample a g (k - 1) }
        else dropPlayed a k
      | none => a
    | [] => a

/-- The output of a source at the present tick. -/
def awgOutput (s : State) (n : Nat) : Awg := awgOutputAt s n (dacNow s)

/-- The repeats of a running hold so far (10 R233, R242). -/
def heldRepeats (s : State) (a : Awg) : Nat := match a.st, a.heldAt with
  | .holding, some h => dacNow s - h
  | _, _ => 0

/-- UNDERRUN_SAMPLES with the repeats of a running hold (10 R233, R242). -/
def underSamplesNow (s : State) (a : Awg) : Nat := satTo 32 (a.underSamples + heldRepeats s a)

/-! ### Currents (10 R219 to R222, R240) -/

/-- Effective full-scale current in units of 1 / 4,095 nA (10 R220). -/
def awgFullScale (s : State) (n : Nat) : Int :=
  2000000 * 4095 + roundDiv ((s.setting 6 n 2 - 2000000) * 4095) 18000000 * 18000000

/-- IP of a source for sample v, in units of 1 / (4,095 × 65,535) nA (10 R219). -/
def awgIp (s : State) (n : Nat) (v : BitVec 16) : Int := awgFullScale s n * (v.toInt + 32768)
/-- IN, in the same units (10 R219). -/
def awgIn (s : State) (n : Nat) (v : BitVec 16) : Int := awgFullScale s n * 65535 - awgIp s n v

/-- AWG_P/N are disconnected: the source is routed to a channel, under check, contained, ISOLATED or without power, or every pin is
high-impedance (10 R222, R230, R240; 18 R410; 20 R454; 23 R491). -/
def awgPinsOpen (s : State) (n : Nat) : Bool :=
  s.setting 6 n 4 == 1 || (s.awg n).checking || isContained s (domAwg n) || (s.awg n).st == .isolated ||
    s.flt.phase == .shutdown || !pinsDriven s

/-- The currents into AWG_P and AWG_N for the sample at the output; none into pins that are open (10 R219, R222, R240). -/
def awgLegs (s : State) (n : Nat) : Int × Int :=
  if awgPinsOpen s n then (0, 0)
  else
    let v := (awgOutput s n).last
    (awgIp s n v, awgIn s n v)

/-- The current that a routed source drives into its channel's bus line while the route switch is closed (10 R222). -/
def awgRouteCurrent (s : State) (n : Nat) : Int := if (s.awg n).routed then awgIp s n (awgOutput s n).last else 0

/-- The terminations of the two legs by their codes: 0 none, 1 50 Ω to ground, 2 100 Ω between the legs; of a routed source TERM
is that of the P leg, and the N leg ends in 50 Ω on the die (10 R221, R222). -/
def awgTerm (s : State) (n : Nat) : Nat × Nat :=
  (s.settingN 6 n 3, if s.setting 6 n 4 == 1 then 1 else s.settingN 6 n 3)

/-- CLEAR_CODE of a source as a sample. -/
def clearCode (s : State) (n : Nat) : BitVec 16 := BitVec.ofInt 16 (s.setting 6 n 6)

/-- Complete the pending jump or STOP of a source ABORTED (10 R234, R239). -/
def dropAwgJump (s : State) (n : Nat) : State :=
  match (s.awg n).jump with
  | some j => done (s.updAwg n fun a => { a with jump := none }) j.slot Status.aborted 0
  | none => s

/-- Return the stream reservation of a source (10 R233). -/
def returnStream (s : State) (n : Nat) : State :=
  if (s.awg n).streaming then giveDown { s with mem.waveform := s.mem.waveform - 2000000000 } (n / 4) 2000000000 else s

/-- End a sequence whose output stands: its START completes, a pending jump completes ABORTED, a pending STOP OK where the source
reaches IDLE, with DETAIL 1 where it ended the sequence, and the output takes the END_HOLD value or CLEAR_CODE (10 R231,
R233, R234, R236, R239). -/
def endPlayed (s : State) (n status : Nat) (st : AwgSt) (stopped : Bool) : State :=
  let a := s.awg n
  let s := s.updAwg n fun x => { x with underSamples := underSamplesNow s a }
  let s := match a.jump with
    | some j =>
      let s := s.updAwg n fun a => { a with jump := none }
      if j.target.isNone && st == .idle then done s j.slot Status.ok (b2n stopped) else done s j.slot Status.aborted 0
    | none => s
  let s := returnStream s n
  let hold := st == .idle && s.setting 6 n 7 == 1 && !(a.st == .armed && a.atClear)
  let s := s.updAwg n fun x =>
    { x with st := st, slot := none, streaming := false, look := [], jump := none, window := [], fetch := 0,
             release := none, ended := none, dds := false, heldFor := 0, underTold := false, heldAt := none, ddsDue := [],
             markOwed := false,
             last := if hold then a.last else clearCode s n, atClear := !hold }
  let s := unschedule s (.awg n)
  match a.slot with
  | some id => complete s id status (satTo 32 a.total) (a.firstPos.getD s.sweep.pos) a.late
  | none => s

/-- End a sequence at the present tick. -/
def endSequence (s : State) (n status : Nat) (st : AwgSt) (stopped : Bool) : State :=
  endPlayed (s.updAwg n fun _ => awgOutput s n) n status st stopped

/-- Force a source to CLEAR_CODE: a sequence under way ends with `status`; a source that was running raises a NOTICE where
`told` says so (10 R239). -/
def clearAwg (s : State) (n status : Nat) (told : Bool) : State :=
  let a := s.awg n
  if awgBusy a then
    let s := endSequence s n status .cleared false
    if told && a.st != .armed then notice s (0x0400 + n) 0 else s
  else s.updAwg n fun a => { a with last := clearCode s n, atClear := true, st := if a.st == .isolated then .isolated else .cleared }

/-- The RESIDENT writes under way to a source stop between two granules (10 R226). -/
def stopWrites (s : State) (n : Nat) : State :=
  forEach s.csq.slots s fun p s => match p.2 with
    | some sl =>
      if sl.opc == 0x31 && sl.op 8 1 == n && sl.progress > 0 then done s p.1 Status.testerFault sl.progress else s
    | none => s

/-- Contain a source: CLEAR_CODE, route open, START TESTER_FAULT, CLEARED, and writes to it stop (10 R226, R240). -/
def containAwg (s : State) (n : Nat) : State :=
  stopWrites ((clearAwg s n Status.testerFault false).updAwg n fun a => { a with routed := false }) n

/-- A trigger of event time t reaches a source; the Boolean says whether it released a wait: of the triggers that fall in the
wait the one of the first event time does, and every other is ignored (10 R232). -/
def awgTrig (s : State) (n t : Nat) : State × Bool :=
  let a := s.awg n
  if a.st == .waiting && t ≥ a.waitFrom && (a.release.isNone || t < a.relAt) then
    (s.updAwg n fun a =>
      { a with release := some (dacAt (t + 640 * 65536)), relAt := t,
               ignored := if a.release.isSome then incSat 32 a.ignored else a.ignored }, true)
  else (s.updAwg n fun a => { a with ignored := incSat 32 a.ignored }, false)

/-! ### Synthesizers (11) -/

/-- Output frequency in millihertz times O, from M and N: f_VCO (11 R243). -/
def vcoMhz (m n : Nat) : Nat := 50000000000 * n / m

/-- End a ramp: its START completes; a STOP that has not reached its PFD cycle finds no ramp to end (11 R254). -/
def endRamp (s : State) (n status : Nat) : State :=
  match (s.dcs n).ramp with
  | some r =>
    let s := unschedule (s.updDcs n fun d => { d with ramp := none, point := 0 }) (.dcs n)
    let s := complete s r.slot status r.done (r.firstPos.getD s.sweep.pos)
    (match r.stopAt with
     | some (_, id) => done s id Status.ok 0
     | none => s)
  | none => s

/-- Contain a synthesizer: the gate closes and a ramp, one that is armed as well, ends TESTER_FAULT (11 R249; DESIGN CHOICE, log
entry 78). -/
def containDcs (s : State) (n : Nat) : State :=
  setGate ((endRamp s n Status.testerFault).updDcs n fun d =>
    { d with st := .contained, retune := none, retunePending := false, retuneAt := none }) n

end Sys2Proof.Machine
end

