-- ==== Sys2Proof/Machine/UnitOps.lean ====
section
/-! DEFINITION. Shared operations of the parametric units (08), of the end of an engine run (12 R280, R282), and of stream
closing (14 R334). -/

namespace Sys2Proof.Machine

open Sys2Proof

/-! ### Parametric units (08) -/

/-- DEST of a list (08 R177). -/
def pmuDest (s : State) (r : PmuRun) : Nat := match s.slot r.slot with
  | some sl => sl.op 10 1
  | none => 0
/-- RESULT_ADDR of a list. -/
def pmuAddr (s : State) (r : PmuRun) : Nat := match s.slot r.slot with
  | some sl => sl.op 24 8
  | none => 0
/-- PSTREAM of a list. -/
def pmuStream (s : State) (r : PmuRun) : Nat := match s.slot r.slot with
  | some sl => sl.op 11 1
  | none => 0

/-- The engine port that a running engine binds to a source kind and selector (12 R278). -/
def boundPort (s : State) (kind sel : Nat) : Option (Nat × Nat) :=
  ((List.range 16).flatMap fun e => (List.range 8).map fun p => (e, p)).find? fun q =>
    (s.eng q.1).st == .running && (s.inPort q.1 q.2).kind == kind && (s.inPort q.1 q.2).sel == sel

/-- A source that opens meets the engine port bound to it, whose source is then open (12 R273, R278). -/
def meetPort (s : State) (kind sel : Nat) : State :=
  match boundPort s kind sel with
  | some (e, p) => s.updIn e p fun x => { x with closed := false }
  | none => s

/-- The run of a slot. -/
def pmuRun (s : State) (id : Nat) : Option PmuRun := s.pmu.find? fun r => r.slot == id
/-- Update the run of a slot. -/
def State.updRun (s : State) (id : Nat) (f : PmuRun → PmuRun) : State :=
  { s with pmu := s.pmu.map fun r => if r.slot == id then f r else r }

/-- Send the results of a DEST 2 list to its port, in item order, while the port has room; without a port they are lost
(08 R177; 12 R273, R282). -/
def pumpPmu (s : State) (id : Nat) : Nat → State
  | 0 => s
  | n + 1 =>
    match pmuRun s id with
    | none => s
    | some r =>
      let next (s : State) : State := pumpPmu (s.updRun id fun r => { r with sent := r.sent + 1 }) id n
      match r.results[r.sent]? with
      | some none => if r.aborted then next s else s
      | some (some w) =>
        match boundPort s 3 (pmuStream s r) with
        | none => next s
        | some (e, p) =>
          let t := stampNow s
          if portTakes s e p t 1 then next (portPut s e p t [(w, false)]) else s
      | none => s

/-- A list is complete: every result that will be is formed and, for an engine port, sent. -/
def pmuFinished (s : State) (r : PmuRun) : Bool :=
  (r.aborted || r.results.all Option.isSome) && (pmuDest s r != 2 || r.sent ≥ r.items.length)

/-- Items of a list that ran or were skipped (08 R183). -/
def pmuCompleted (r : PmuRun) : Nat :=
  (r.results.filter fun w => match w with
    | some w => !bitOf w.toNat 31
    | none => false).length

/-- Complete a list with a status: DETAIL holds the fails and the items completed (08 R183). -/
def completeRun (s : State) (id status : Nat) : State :=
  match pmuRun s id with
  | none => s
  | some r =>
    let s := { s with pmu := s.pmu.filter fun r => r.slot != id }
    complete s id status (r.fails % 65536 + 65536 * pmuCompleted r) (r.firstPos.getD s.sweep.pos)

/-- Complete a list whose results are all in (08 R183). -/
def finishRun (s : State) (id : Nat) : State :=
  match pmuRun s id with
  | none => s
  | some r =>
    if pmuFinished s r then
      completeRun s id (if r.aborted then Status.aborted else if r.touched then Status.testerFault else Status.ok)
    else s

/-- Form the result of item i of a list: write it at its destination, count it, complete the list at its last (08 R177,
R180, R183). -/
def setResult (s : State) (id i : Nat) (w : Word) : State :=
  match pmuRun s id with
  | none => s
  | some r =>
    let n := w.toNat
    let s := s.updRun id fun r =>
      { r with results := setNth r.results i (some w), touched := r.touched || bitOf n 31,
               fails := r.fails + b2n (bitOf n 28 || bitOf n 29) }
    let s := match pmuDest s r with
      | 0 => emit s (.data (pmuAddr s r + 4 * i) (leBytes 4 n) (slotPlace s id))
      | 1 => (rmwWrite s (pmuAddr s r + 4 * i) (leBytes 4 n)).1
      | _ => pumpPmu s id (r.items.length - r.sent)
    let s := finishRun s id
    match r.items[i]? with
    | some it => scanGo s (itemChan it / 8)
    | none => s

/-- Bytes of item i of a list. -/
def pmuItem (s : State) (id i : Nat) : List Byte := match pmuRun s id with
  | some r => (r.items[i]?).getD []
  | none => []

/-- The range that a channel connects for a setting: in FNMV the one it has (08 R166). -/
def forceRange (c : Chan) (f : PmuForce) : Nat := match c.force with
  | some g => if f.mode = 2 then g.range else f.range
  | none => f.range

/-- A setting makes a channel change its range (08 R170). -/
def rangeChanges (c : Chan) (f : PmuForce) : Bool := c.force.any fun g => g.range != forceRange c f

/-- The ranges that carry the output of a PPMU: the present one, and in the first 2 µs of a change, which lasts 5 µs, the old
one as well (08 R170). -/
def connectedRanges (s : State) (n : Nat) : List Nat :=
  let c := s.chan n
  (c.force.map PmuForce.range).toList ++ match c.rangeBusy with
    | some (old, e) => if s.now + 3 * usTicks < e then [old] else []
    | none => []

/-- A channel takes a PPMU setting; a change of range lasts 5 µs (08 R166, R170), and a route to it follows (10 R222). -/
def forceChan (s : State) (n : Nat) (f : PmuForce) : State :=
  let s := s.updChan n fun c =>
    { c with force := some { f with range := forceRange c f },
             rangeBusy := if rangeChanges c f then c.force.map fun g => (g.range, s.now + 5 * usTicks) else c.rangeBusy }
  refreshDie s (n / 128)

/-- An item of a lane group ends: its channel, if still in PMU, returns to its static settings, unless the lane group's
next item names the same channel (08 R181). -/
def leaveItem (s : State) (lg : Nat) (direct : Bool) : State :=
  match (s.lg lg).item with
  | none => s
  | some (id, i) =>
    let ch := itemChan (pmuItem s id i)
    let s := s.updLg lg fun l => { l with item := none, phase := 0, uncertain := false }
    if direct || (s.chan ch).st != .pmu then s else forceChan s ch (staticForce s ch)

/-- End the running item of a lane group with a flag bit and no measurement (08 R181). -/
def cutItem (s : State) (lg bit : Nat) : State :=
  match (s.lg lg).item with
  | none => s
  | some (id, i) => setResult (leaveItem s lg false) id i (BitVec.ofNat 32 (2 ^ bit))

/-- The channels of a lane group that wait at the settings of an ended item for an item that will not come return to their static
settings (08 R181). -/
def returnStatic (s : State) (lg : Nat) : State :=
  if (s.lg lg).item.isSome then s
  else forEach (List.range 8) s fun j s =>
    let n := 8 * lg + j
    let awaited := (nextItem s lg).any fun p => itemChan (pmuItem s p.1 p.2) == n
    if (s.chan n).st == .pmu && !awaited && (s.chan n).force != some (staticForce s n) then forceChan s n (staticForce s n) else s

/-- Host ABORT of a list: running items end without a result, no later item starts, and the list completes once the results
it has are delivered (08 R181, R183). -/
def abortRun (s : State) (id : Nat) : State :=
  if (pmuRun s id).isNone then s
  else
    let s := forEach (List.range 64) s fun lg s => match (s.lg lg).item with
      | some (j, _) => if j == id then leaveItem s lg false else s
      | none => s
    let s := finishRun (pumpPmu (s.updRun id fun r => { r with aborted := true }) id 4096) id
    forEach (List.range 64) s fun lg s => scanGo (returnStatic s lg) lg

/-- The result of a lane group that waits for room in the full port of its list: the group's next item waits with it (12
R273). -/
def heldResult (s : State) (lg : Nat) : Bool :=
  s.pmu.any fun r => pmuDest s r == 2 &&
    ((r.items.zip r.results).zipIdx.any fun p => r.sent ≤ p.2 && p.1.2.isSome && itemChan p.1.1 / 8 == lg) &&
    match boundPort s 3 (pmuStream s r) with
    | some (e, p) => !portTakes s e p (stampNow s) 1
    | none => false

/-! ### Engine runs (12 R280, R282) -/

/-- The HALT word, which every word of a code store holds at entry to SERVICE (12 R256). -/
def haltWord : BitVec 48 := 0xFC0000000000

/-- Output port p of an engine. -/
def State.outPort (s : State) (e p : Nat) : OutPort := Tab.get {} (s.eng e).outs p
/-- Update output port p of an engine. -/
def State.updOut (s : State) (e p : Nat) (f : OutPort → OutPort) : State :=
  s.updEng e fun x => { x with outs := Tab.upd {} x.outs p f }

/-- Unbind the sources of an engine's input ports (12 R280, R282). -/
def unbindEng (s : State) (e : Nat) : State :=
  let cut (p : Option (Nat × Nat)) : Option (Nat × Nat) := match p with
    | some (x, q) => if x == e then none else some (x, q)
    | none => none
  let s := { s with
    streams := s.streams.map fun x => (x.1, { x.2 with port := cut x.2.port }),
    digs := s.digs.map fun x =>
      (x.1, { x.2 with raw := { x.2.raw with port := cut x.2.raw.port }, dec := { x.2.dec with port := cut x.2.dec.port } }) }
  forEach (s.pmu.map (·.slot)) s fun id s => finishRun (pumpPmu s id 4096) id

/-- Return the rates of an engine's outputs and free its stream rings (01 R18, R20). -/
def releaseOuts (s : State) (e : Nat) : State :=
  forEach (List.range 4) s fun p s =>
    let o := s.outPort e p
    match o.kind with
    | 1 => { s with mem.capture := s.mem.capture - o.rate }
    | 2 => ({ s with mem.host := s.mem.host - o.rate }).updRing .str o.str fun r => { r with inUse := false }
    | _ => s

/-- The consumer ports of an engine's outputs find their source closed (12 R273). -/
def closeConsumers (s : State) (e : Nat) : State :=
  { s with engs := s.engs.map fun x =>
      (x.1, { x.2 with ins := x.2.ins.map fun p =>
        (p.1, if p.2.kind == 4 && p.2.sel % 16 == e then { p.2 with closed := true } else p.2) }) }

/-- End the run of an engine: bindings and rates go, and START completes (12 R280). -/
def endEng (s : State) (e status : Nat) (st : EngSt) : State :=
  let x := s.eng e
  let fails := satTo 32 x.runFails
  let s := releaseOuts s e
  let s := s.updEng e fun x =>
    { x with st := st, slot := none, ending := none, ins := x.ins.map fun p => (p.1, { lost := p.2.lost, gates := p.2.gates }),
             outs := [], dup := none, loop := none }
  let s := closeConsumers (unbindEng s e) e
  match x.slot with
  | some id => complete s id status fails x.startPos
  | none => s

/-- Words of a host block of an engine output (12 R274). -/
def engBlockWords : Nat := 1020

/-- Stage the block in progress of an engine's output (12 R274). -/
def stageEngBlock (s : State) (e p : Nat) (last : Bool) : State :=
  let o := s.outPort e p
  let n := o.block.length
  let head := leBytes 4 o.blockSeq ++ leBytes 1 (e + 16 * p) ++ zeros 1 ++ leBytes 2 n ++ zeros 8
  (stageBlock s o.str (head ++ o.block.flatMap fun w => leBytes 4 w.toNat) last).updOut e p fun o =>
    { o with block := [], blockSeq := addWrap 32 o.blockSeq 1 }

/-- The write of an output port's oldest word reads a line that holds an uncorrectable beat the word does not supply (21
R468, R470). -/
def outBad (s : State) (e p : Nat) : Bool :=
  let o := s.outPort e p
  let a := o.base + o.wrOff
  o.kind == 1 && !o.words.isEmpty && (o.ringMode || o.wrOff + 4 ≤ o.size) &&
    (s.mem.poison ++ s.mem.bad).any fun b => b / 16 == a / 64 && b != a / 4

/-- The oldest word of an output port is placed at its destination, if that can take it (12 R274; 21 R468). A running engine whose
write would meet an uncorrectable beat faults first (12 R282). The Boolean says whether it was placed. -/
def placeWord (s : State) (e p : Nat) : State × Bool :=
  let o := s.outPort e p
  match o.words with
  | [] => (s, false)
  | w :: rest =>
    let pop (s : State) : State := s.updOut e p fun o => { o with words := rest }
    let lose (s : State) : State := s.updEng e fun x => { x with outLost := incSat 32 x.outLost }
    match o.kind with
    | 1 =>
      if !s.memUp || (outBad s e p && (s.eng e).st == .running) then (s, false)
      else if !o.ringMode && o.wrOff + 4 > o.size then (lose (pop s), true)
      else
        let (s, _) := rmwWrite (pop s) (o.base + o.wrOff) (leBytes 4 w.toNat)
        (s.updOut e p fun o => { o with wrOff := if o.ringMode && o.wrOff + 8 > o.size then 0 else o.wrOff + 4 }, true)
    | 2 =>
      if o.block.isEmpty && !stageRoom s o.str then (s, false)
      else
        let s := (pop s).updOut e p fun o =>
          { o with block := o.block ++ [w], blockAt := if o.block.isEmpty then s.now else o.blockAt }
        (if (s.outPort e p).block.length ≥ engBlockWords then stageEngBlock s e p false else s, true)
    | 3 =>
      match boundPort s 4 (e + 16 * p) with
      | none => (lose (pop s), true)
      | some (d, q) =>
        let t := stampNow s
        if portTakes s d q t 1 then (portPut (pop s) d q t [(w, false)], true) else (s, false)
    | _ => (lose (pop s), true)

/-- Place up to `n` words of an output port. -/
def drainOut (s : State) (e p : Nat) : Nat → State
  | 0 => s
  | n + 1 => match placeWord s e p with
    | (s, true) => drainOut s e p n
    | (s, false) => s

/-- Place what the ports of an engine hold, as far as their destinations take it. -/
def drainOuts (s : State) (e : Nat) : State :=
  forEach (List.range 4) s fun p s => drainOut s e p (s.outPort e p).words.length

/-- Drain the outputs of an engine; a run that has ended delivers its last blocks, and completes once every output word is
visible (12 R274, R280). -/
def tryFinishEng (s : State) (e : Nat) : State :=
  let s := drainOuts s e
  match (s.eng e).ending with
  | some st =>
    let s := forEach (List.range 4) s fun p s =>
      let o := s.outPort e p
      if o.kind == 2 && o.words.isEmpty && !o.block.isEmpty then stageEngBlock s e p true else s
    if (List.range 4).all fun p =>
        let o := s.outPort e p
        o.words.isEmpty && o.block.isEmpty && (o.kind != 2 || (s.ring .str o.str).unseen = 0)
    then endEng s e st (if (s.eng e).st == .contained then .contained else .idle) else s
  | none => s

/-- Contain an engine: it stops, the bindings of its inputs end at once, and its START completes TESTER_FAULT after the words that
it has put out are visible (12 R280, R282; 13 R310). -/
def containEng (s : State) (e : Nat) : State :=
  let busy := (s.eng e).st == .running || (s.eng e).ending.isSome
  let s := s.updEng e fun x => { x with st := .contained }
  if !busy then s
  else
    let s := s.updEng e fun x =>
      { x with ending := some Status.testerFault, dup := none, loop := none,
               ins := x.ins.map fun p => (p.1, { lost := p.2.lost, gates := p.2.gates }) }
    tryFinishEng (unbindEng s e) e

/-! ### Self-checks of the ledger (20 R453, R454) -/

/-- The kind of resource that a self-check group names: 0 channels, 1 a digitizer, 2 a source (20 R453). -/
def groupKind (g : Nat) : Nat := if g < 32 then 0 else if g < 48 then 1 else 2

/-- Mark a resource as under check or not. -/
def setChecking (s : State) (kind n : Nat) (b : Bool) : State :=
  match kind with
  | 0 => s.updChan n fun c => { c with checking := b }
  | 1 => s.updDig n fun c => { c with checking := b }
  | _ => s.updAwg n fun c => { c with checking := b }

/-- A resource is still under some group's check. -/
def stillChecked (s : State) (kind n : Nat) : Bool :=
  s.cal.checks.any fun p => groupKind p.1 == kind && p.2.any fun c => c.eligible.contains n && !c.abandoned.contains n

/-- The check of a group ends: its resources return (20 R454). -/
def endCheck (s : State) (g : Nat) : State :=
  match Tab.get none s.cal.checks g with
  | none => s
  | some c =>
    let s := { s with cal.checks := Tab.erase s.cal.checks g }
    let s := forEach c.eligible s fun n s => if stillChecked s (groupKind g) n then s else setChecking s (groupKind g) n false
    refreshRoutes s

/-- A WATCH ends before its checks: its groups are not updated (17 R395). -/
def cancelWatch (s : State) (id : Nat) : State :=
  let gone := s.cal.checks.filterMap fun p => if p.2.any fun c => c.slot == some id then some p.1 else none
  let s := forEach gone s fun g s => endCheck s g
  { s with cal.watches := s.cal.watches.filter fun w => w.1 != id }

/-! ### The AUX port (22 R476, R478) -/

/-- No transfer runs, and no flash action has the port (20 R446; 22 R478). -/
def auxFree (s : State) : Bool := s.aux.busy.isNone && s.aux.flash.isNone

/-- The RX bytes of the first `n` bits: the last byte's missing bits are 0 (22 R476). -/
def rxBytes (n : Nat) (bs : List Byte) : List Byte :=
  let k := (n + 7) / 8
  let got := bs.take k ++ zeros (k - bs.length)
  if n % 8 == 0 then got
  else got.dropLast ++ [BitVec.ofNat 8 (((got.getLast?).getD 0).toNat / 2 ^ (8 - n % 8) * 2 ^ (8 - n % 8))]

/-- Ticks of `ns` nanoseconds, rounded up: one tick is 0.625 ns. -/
def tickCeil (ns : Nat) : Nat := (8 * ns + 4) / 5

/-- The instant t_s of a transfer that starts now: SEL_SETUP after AUX_SEL takes its code, which may change 20 ns after the
last rise of AUX_SELV_N, and no sooner than 100 ns after that rise (22 R476). -/
def auxStart (s : State) : Nat :=
  let set := tickCeil s.aux.selSetup
  match s.aux.freeAt with
  | some t => max (max s.now (t + 32) + set) (t + 160)
  | none => s.now + set

/-- The flash action of slot id starts the next transfer of its script: mode 0, 25 MHz (20 R446). -/
def flashBegin (s : State) (id sel : Nat) : State := match s.aux.script with
  | x :: _ =>
    { s with aux.busy := some ⟨id, auxStart s, 64, 8 * (x.bytes.length + x.reads), 0, [], sel, false, tickCeil s.aux.selSetup⟩,
             aux.tx := x.bytes, aux.bits := 0 }
  | [] => s

/-- The page that is polled was programmed 10 ms ago or earlier (20 R446). -/
def pageLate (s : State) : Bool := match s.aux.pageAt with
  | some t => s.now ≥ t + 10000 * usTicks
  | none => false

/-- A transfer of a flash action has ended: a poll repeats until the flash has finished, and then counts the units of its page; the
next transfer follows, and behind the last poll of a STORE_FLASH its completion (20 R446). -/
def flashNext (s : State) (id sel : Nat) : State := match s.aux.script with
  | [] => s
  | x :: rest =>
    if x.poll.isSome && !s.aux.ready then flashBegin s id sel
    else
      let s := { s with aux.ready := false, aux.script := rest, aux.pageAt := if x.page then some s.now else none }
      let s := s.updSlot id fun y => { y with progress := y.progress + x.poll.getD 0 }
      if !rest.isEmpty then flashBegin s id sel
      else if x.poll.isSome then
        done { s with aux.flash := none } id Status.ok ((s.slot id).elim 0 fun y => y.progress - 1)
      else s

/-- Bit i of the bytes sent: bit 7 − (i mod 8) of byte i div 8 (22 R476). -/
def txBit (tx : List Byte) (i : Nat) : Bool := bitOf (tx.getD (i / 8) 0).toNat (7 - i % 8)

/-- The running transfer ends after `n` bits: what its pins and the port's status keep. One that is stopped before t_s selects
nothing; one that is stopped within a bit goes through steps 5 and 6 from the end of that bit (22 R474, R476, R478, R479). -/
def auxIdle (s : State) (r : AuxRun) (ok : Bool) (n : Nat) : State :=
  if s.now < r.start then
    { s with aux.busy := none, aux.bits := 0, aux.sel := if s.now + r.setup ≥ r.start then r.sel else s.aux.sel }
  else
    { s with aux.busy := none, aux.bits := n, aux.sel := r.sel, aux.sck := r.mode3,
             aux.tail := if ok then none else some ({ r with len := n }, txBit s.aux.tx (n - 1)),
             aux.freeAt := some (max s.now (r.start + n * r.period + r.period / 2)),
             aux.transfers := if ok then incSat 32 s.aux.transfers else s.aux.transfers }

/-- The running transfer ends after `n` bits: the RX bytes are written, and its AUX_XFER completes (22 R477, R478); a flash action
goes on, or its routine ends with its own items. -/
def auxEnd (s : State) (status n : Nat) : State :=
  match s.aux.busy with
  | none => s
  | some r =>
    let s := auxIdle s r (status == Status.ok) n
    if s.aux.flash == some r.slot then (if status == Status.ok then flashNext s r.slot r.sel else s)
    else
      let s := if r.rxAddr == 0 || n == 0 then s else emit s (.data r.rxAddr (rxBytes n r.rx) (slotPlace s r.slot))
      done s r.slot status n

/-- Bits shifted by the end of the current bit period (22 R478). -/
def auxShifted (s : State) (r : AuxRun) : Nat := if s.now < r.start then 0 else min r.len ((s.now - r.start) / r.period + 1)

/-- A transfer stops at the end of its current bit period (22 R478). -/
def auxStop (s : State) (status : Nat) : State := match s.aux.busy with
  | some r => auxEnd s status (auxShifted s r)
  | none => s

/-! ### Routines that end before their last item (14 R318; 17 R395, R397) -/

/-- A word of the segment store whose contents the manual leaves undefined (17 R395): log entry 3. -/
def freeWord (s : State) : BitVec 288 × State :=
  let (a, s) := s.fresh
  let (b, s) := s.fresh
  let (c, s) := s.fresh
  let (d, s) := s.fresh
  let (e, s) := s.fresh
  (BitVec.ofNat 288 (a.toNat + b.toNat * 2 ^ 64 + c.toNat * 2 ^ 128 + d.toNat * 2 ^ 192 + (e.toNat % 2 ^ 32) * 2 ^ 256), s)

/-- The site that a SITE_MAP entry names. -/
def siteEntry (e : Nat) : Option Nat := if e == 0xFFFF then none else some e

/-- The first `k` channels of a SITE_MAP take the sites of the entries read (06 R129). -/
def mapSites (s : State) (sl : Slot) (k : Nat) : State :=
  forEach (List.range k) s fun i s => s.updChan (sl.op 8 2 + i) fun c => { c with site := siteEntry (field sl.held (2 * i) 2) }

/-- What a routine that ends after `k` items leaves: the copied store range of a SEG_LOAD holds undefined words, the channels
that a SITE_MAP has written take their sites, a WATCH's unfinished groups are not updated, a flash action stops its transfer and
gives up the port (22 R478). The items of the other opcodes have taken effect one by one (17 R395). -/
def leaveItems (s : State) (id : Nat) (sl : Slot) (k : Nat) : State :=
  if sl.opc == 0x10 && sl.op 10 1 == 0 then
    forEach (List.range (min k (sl.op 12 4))) s fun i s =>
      let (w, s) := freeWord s
      s.updSec (lowestBit 8 sl.secMask) fun x => { x with store := Tab.set 0 x.store (sl.op 24 4 + i) w }
  else if sl.opc == 0x13 then mapSites s sl (min k (sl.op 10 2))
  else if sl.opc == 0x4A then cancelWatch s id
  else if s.aux.flash == some id then { auxStop s Status.aborted with aux.flash := none }
  else s

/-! ### Closing of streams (13 R310; 14 R334) -/

/-- Close an STR ring's stream: its last block completes the close with DETAIL (13 R310). -/
def closeStr (s : State) (r id detail : Nat) : State :=
  strRelease (s.updRing .str r fun x => { x with closing := some (id, detail) }) r

end Sys2Proof.Machine
end

