-- ==== Sys2Proof/Machine/Fault.lean ====
section
/-! DEFINITION. The fault system (18): containment, the handling of a fault by 18 R416, HALTED and SHUTDOWN, and
restoration. -/

namespace Sys2Proof.Machine

open Sys2Proof

/-! ### The units inside a domain (18 R404) -/

/-- Units below `n` whose domain `f` lies inside d. -/
def unitsIn (d n : Nat) (f : Nat → Nat) : List Nat := (List.range n).filter fun i => encloses d (f i)

/-- Channels inside a domain. -/
def chansIn (d : Nat) : List Nat :=
  if d < 0x200 then [d]
  else if d < 0x240 then (List.range 8).map fun i => 8 * (d - 0x200) + i
  else if d < 0x248 then (List.range 64).map fun i => 64 * (d - 0x240) + i
  else if d < 0x24C then (List.range 128).map fun i => 128 * (d - 0x248) + i
  else if d = 0x2FF then List.range 512
  else []

/-- Lane groups of which a channel lies inside a domain. -/
def lgsIn (d : Nat) : List Nat :=
  if d < 0x200 then [d / 8]
  else if d < 0x240 then [d - 0x200]
  else if d < 0x248 then (List.range 8).map fun i => 8 * (d - 0x240) + i
  else if d < 0x24C then (List.range 16).map fun i => 16 * (d - 0x248) + i
  else if d = 0x2FF then List.range 64
  else []

/-- Sectors whose epoch a containment of a domain advances (17 R393). -/
def sectorsTouched (d : Nat) : List Nat :=
  if d < 0x200 then [d / 64]
  else if d < 0x240 then [(d - 0x200) / 8]
  else unitsIn d 8 domSec

/-! ### Fault events (18 R421) -/

/-- Event ID of the faults of a domain. -/
def faultEvent (d : Nat) : Nat :=
  if d < 0x200 then d
  else if d < 0x240 then 0x04E0
  else if d < 0x248 then 0x0440 + (d - 0x240)
  else if d < 0x24C then 0x04E2
  else if d < 0x260 then 0x0400 + (d - 0x250)
  else if d < 0x270 then 0x0410 + (d - 0x260)
  else if d < 0x278 then 0x0448 + (d - 0x270)
  else if d = 0x278 then 0x04E3
  else if d < 0x290 then 0x0430 + (d - 0x280)
  else if d < 0x292 then 0x0460 + (d - 0x290)
  else 0x04E1

/-- DATA of a fault event: the domain and MERGE_COUNT. -/
def faultData (d merges : Nat) : Nat := d + 65536 * merges

/-- Move to a phase, with its event (18 R408). -/
def setPhase (s : State) (p : Phase) : State :=
  if s.flt.phase == p then s else event { s with flt.phase := p } 0x04E6 (phaseCode p)

/-! ### SECTOR_ALIVE (18 R422, R423) -/

/-- The alive pin of a sector. -/
def State.alive (s : State) (n : Nat) : Alive := Tab.get {} s.flt.alive n
/-- Update the alive pin of a sector. -/
def State.updAlive (s : State) (n : Nat) (f : Alive → Alive) : State :=
  { s with flt.alive := Tab.set {} s.flt.alive n (f (s.alive n)) }

/-- The level of a light character `t` ticks into a period of `p` ms (18 R423). -/
def lightLevel (char p t : Nat) : Bool :=
  let len := 1000 * usTicks * p
  let u := t % len
  match char with
  | 0 => 2 * u < len
  | 1 => 8 * u < len
  | n => 8 * u < n * len && 16 * u % (2 * len) < len

/-- The level of SECTOR_ALIVE[n]: low before SERVICE, frozen during a recovery of its sector. -/
def aliveLevel (s : State) (n : Nat) : Bool :=
  let a := s.alive n
  if a.frozen then a.level else s.running && lightLevel a.showChar a.showPeriod (s.now - a.showFrom)

/-- Freeze SECTOR_ALIVE[n] at its present level. -/
def freezeAlive (s : State) (n : Nat) : State :=
  let l := aliveLevel s n
  s.updAlive n fun a => { a with frozen := true, level := l }

/-! ### Containment (18 R405) -/

/-- Contain the channels of a domain, list items on them first (03 R64, R67; 08 R181). -/
def containChans (s : State) (d : Nat) : State :=
  let s := forEach (lgsIn d) s fun lg s => match (s.lg lg).item with
    | some (id, i) => if (chansIn d).contains (itemChan (pmuItem s id i)) then cutItem s lg 31 else s
    | none => s
  forEach (chansIn d) s fun n s => containChan s n

/-- Contain a sector: its sequencer is held, its armings end and its trigger units are held (06 R109; 07 R156; 01 R24). -/
def containSector (s : State) (n : Nat) : State :=
  let s := endArmings (holdSector s n) n
  freezeAlive (clearTu (clearTu s (2 * n)) (2 * n + 1)) n

/-- Contain a digitizer: an acquisition keeps its state and loses samples, and the pending starts of the slots that it feeds
are cleared (09 R191, R197, R215). -/
def containDig (s : State) (n : Nat) : State :=
  let s := clearTuSource (clearTuSource s (2 * (n / 4)) (0x40 + n % 4)) (2 * (n / 4) + 1) (0x40 + n % 4)
  s.updDig n fun d => { d with touched := d.touched || d.acq != .idle }

/-- Keep what the pages of a die show (24 R503). -/
def takeSnap (s : State) (d : Nat) : State :=
  if (Tab.get none s.flt.stale d).isSome then s
  else
    let snap : Snap := ⟨s.chans, s.lgs, s.sectors, s.sites, s.streams, s.awgs, s.digs, s.stg.image⟩
    { s with flt.stale := Tab.set none s.flt.stale d (some snap) }

/-- What class 3 adds (18 R405): acquisitions end, sources that were running tell it, DEV_SAFE reads fault. -/
def containDevice (s : State) : State :=
  let s := forEach (List.range 16) s fun n s => endAcq s n Status.testerFault
  let s := forEach (List.range 16) s fun n s => clearAwg s n Status.testerFault true
  if s.flt.devSafe == .hiZ then s else { s with flt.devSafe := .fault }

/-- Epochs of sectors 0 to 7. -/
def epochsNow (s : State) : List Nat := (List.range 8).map fun n => Tab.get 0 s.csq.epochs n

/-- A claim meets a domain (17 R530). -/
def claimMeets (sl : Slot) (d : Nat) : Bool :=
  let sec (n : Nat) : Bool := bitOf sl.clsMask 0 && bitOf sl.secMask n
  if d < 0x248 then (sectorsTouched d).any sec
  else if d < 0x24C then sec (2 * (d - 0x248)) || sec (2 * (d - 0x248) + 1) || bitOf sl.clsMask 1 || bitOf sl.clsMask 2
  else if d < 0x260 then bitOf sl.clsMask 1
  else if d < 0x270 then bitOf sl.clsMask 2
  else if d < 0x279 then bitOf sl.clsMask 3
  else if d < 0x290 then bitOf sl.clsMask 4
  else if d < 0x292 then bitOf sl.clsMask 5
  else sl.clsMask != 0

/-- The routine at the top of a context: the one that runs, or the one that a FAULT trap has suspended (17 R391). -/
def ctxOwner (s : State) (c : Nat) : Option Nat :=
  let x := s.ctx c
  x.slot.or ((x.frames.getLast?).bind (·.slot))

/-- A fault of a domain traps each routine whose claim meets it, with the epochs as they stand before the containment (17 R391,
R392). -/
def oweTraps (s : State) (d : Nat) : State :=
  forEach (List.range 7) s fun c s => match ctxOwner s c with
    | some id => match s.slot id with
      | some sl =>
        if claimMeets sl d && !(s.ctx c).due.any (fun e => e.1 == id && e.2.1 == d) then
          s.updCtx c fun x => { x with due := x.due ++ [(id, d, epochsNow s)] }
        else s
      | none => s
    | none => s

/-- Contain a domain with the reaction of its class; the routines whose claim meets it are trapped, and the epochs of the sectors
it touches advance (18 R405, R411; 17 R393). A fault of class 2 or 3 that touches a sector ends its armings (07 R156). -/
def contain (s : State) (d : Nat) : State :=
  let s := oweTraps s d
  let s := forEach (unitsIn d 4 domDie) s fun i s => takeSnap s i
  let s := if d = domDev then containDevice s else s
  let runs := (unitsIn d 8 domSec).filter fun n => (s.sec n).st != .idle && (s.sec n).st != .held
  let s := forEach runs s fun n s => faultSectorSites s n
  let s := forEach (unitsIn d 8 domSec) s fun n s => containSector s n
  let s := if 0x200 ≤ d && d < 0x240 then endArmings s ((d - 0x200) / 8) else s
  let s := containChans s d
  let s := forEach (unitsIn d 16 domAwg) s fun n s => containAwg s n
  let s := forEach (unitsIn d 16 domDig) s fun n s => containDig s n
  let s := forEach (unitsIn d 8 domDcs) s fun n s => containDcs s n
  let s := forEach (unitsIn d 16 domEng) s fun n s => containEng s n
  let s := if !(unitsIn d 2 domMem).isEmpty && s.mem.st == .inService then { s with mem.st := .recovery } else s
  let s := forEach (sectorsTouched d) s fun n s =>
    { s with csq.epochs := Tab.set 0 s.csq.epochs n (addWrap 16 (Tab.get 0 s.csq.epochs n) 1) }
  refreshRoutes s

/-! ### HALTED and SHUTDOWN (18 R409, R410) -/

/-- Complete every routine held in a context or a trap frame TESTER_FAULT, with its progress (17 R397). -/
def killRoutines (s : State) : State :=
  let held := ((List.range 8).flatMap fun c =>
    let x := s.ctx c
    x.slot.toList ++ x.frames.filterMap (·.slot)).eraseDups
  forEach held s fun id s => match s.slot id with
    | some sl => done (leaveItems s id sl sl.progress) id Status.testerFault sl.progress
    | none => s

/-- Slots of parked descriptors. -/
def parkedSlots (s : State) : List Nat :=
  s.csq.slots.filterMap fun p => match p.2 with
    | some sl => match sl.st with
      | .parked _ => some p.1
      | _ => none
    | none => none

/-- Slots whose routine has ended without a completion (17 R390). -/
def endedSlots (s : State) : List Nat :=
  s.csq.slots.filterMap fun p => if p.2.any fun sl => sl.st == .ended then some p.1 else none

/-- A PENDING set returns to OPEN (15 R347, R352; 16 R376). -/
def reopenSet (s : State) (k : Nat) : State :=
  s.updSet k fun x => if x.st == .pending then { x with st := .opened, group := false } else x

/-- DATA of event 0x0483 for an offset in the window of BAR4 (13 R289). -/
def barEvent (s : State) (x : Nat) : State := notice s 0x0483 (x / 64 % 2 ^ 30 + 2 ^ 30 + 2 ^ 31)

/-- BAR4 accesses that wait when the device stops: reads return zeros, writes are discarded, each with its event (18 R410). -/
def dropBar (s : State) : State :=
  forEach s.host.barWait { s with host.barWait := [] } fun w s =>
    let s := barEvent s w.1
    if w.2.2.isEmpty then { s with host.readData := zeros w.2.1, host.poisoned := false } else s

/-- SHUTDOWN powers down what the device supplies: synthesizers and the PLLs of the PE dies lose their lock (18 R410). Drivers,
loads and PPMUs are off in HOLD, the sources' outputs open. -/
def powerDown (s : State) : State :=
  let s := forEach (List.range 8) s fun n s => s.updDcs n fun d => { d with locked := false, refOk := false }
  forEach (List.range 8) s fun n s => s.updSec n fun x => { x with pllLost := true }

/-- Enter HALTED or SHUTDOWN: the device is contained and everything held completes TESTER_FAULT (18 R410). -/
def enterStopped (s : State) (p : Phase) : State :=
  let s := setPhase { s with flt.recs := [] } p
  let s := contain s domDev
  let s := forEach (s.pmu.map (·.slot)) s fun id s =>
    match pmuRun s id with
    | some r => forEach ((List.range r.items.length).filter fun i => r.results[i]? == some none) s fun i s =>
        setResult s id i (BitVec.ofNat 32 (2 ^ 31))
    | none => s
  let s := killRoutines (auxStop s Status.testerFault)
  let s := forEach (parkedSlots s ++ endedSlots s) s fun id s => match s.slot id with
    | some sl => done s id Status.testerFault sl.progress
    | none => s
  let s := forEach (List.range 16) s fun k s => reopenSet s k
  let s := dropBar (if p == .shutdown then powerDown s else s)
  { s with stg.sched := [], mem.st := .outOfService, grp.op := none, thm.therms := [], thm.fresh := [],
           pmu := [] }

/-! ### Faults (18 R411, R415 to R417, R419, R420) -/

/-- Recoveries that run, queued ones apart (18 R415). -/
def runningRecs (s : State) : Nat := (s.flt.recs.filter fun r => r.step != .queued).length

/-- The end of a quiet period that starts now (18 R413). -/
def quietEnd (s : State) : RecStep := .quiet (s.now + s.flt.quietUs * usTicks)

/-- Queued recoveries take free places in the order of detection (18 R415). -/
def startQueued (s : State) : State :=
  forEach (s.flt.recs.map (·.domain)) s fun d s =>
    if runningRecs s < 16 then
      { s with flt.recs := s.flt.recs.map fun r =>
          if r.domain == d && r.step == .queued then { r with step := quietEnd s } else r }
    else s

/-- Replace the recovery of a domain. -/
def putRec (s : State) (d : Nat) (r : Recovery) : State :=
  { s with flt.recs := s.flt.recs.map fun q => if q.domain == d then r else q }

/-- Open a recovery, or queue it (18 R411, R415). -/
def openRecovery (s : State) (d bit src data : Nat) : State :=
  let c := domClass d
  let seq := s.flt.seq
  let cause : BitVec 64 := BitVec.ofNat 64 (2 ^ bit)
  let s := record s src d 1 c c 0 seq cause
  let s := post s src (c + 1) bit data
  let full := runningRecs s ≥ 16
  let r : Recovery := { domain := d, openClass := c, cause := cause, openSeq := seq,
                        step := if full then .queued else quietEnd s }
  let s := { s with flt.recs := s.flt.recs ++ [r] }
  let s := if c = 3 then setPhase s .recovery else s
  let s := contain s d
  if full then notice s 0x04E8 d else s

/-- The escalation target of a domain (18 R417). -/
def escalationTarget (d : Nat) : Nat :=
  if d < 0x200 then domLg (d / 8)
  else if 0x250 ≤ d && d < 0x260 then domDie ((d - 0x250) / 4)
  else if 0x260 ≤ d && d < 0x270 then domDie ((d - 0x260) / 4)
  else if 0x270 ≤ d && d < 0x278 then 0x278
  else domDev

/-- Widen a recovery to a domain: contained, recoveries inside it closed into it, the fault event of the new domain raised
(18 R416, R417); `src` is that event, and `data` its DATA where it is not that of R421. -/
def widen (s : State) (r : Recovery) (d bit src : Nat) (data : Option Nat) : State × Recovery :=
  let inside := s.flt.recs.filter fun q => q.domain != r.domain && encloses d q.domain
  let r' : Recovery := inside.foldl
    (fun r q => { r with merges := satTo 8 (r.merges + q.merges + 1), cause := r.cause ||| q.cause }) { r with domain := d }
  let rest := s.flt.recs.filter fun q => !(q.domain != r.domain && encloses d q.domain)
  let s := { s with flt.recs := rest.map fun q => if q.domain == r.domain then r' else q }
  let s := contain s d
  let s := post s src (domClass d + 1) bit (data.getD (faultData d r'.merges))
  (if domClass d = 3 then setPhase s .recovery else s, r')

/-- Merge a fault into a recovery (18 R416). -/
def mergeFault (s : State) (r : Recovery) (d bit src data : Nat) : State :=
  let r := { r with merges := satTo 8 (r.merges + 1), cause := r.cause ||| BitVec.ofNat 64 (2 ^ bit) }
  let s := oweTraps (putRec s r.domain r) d
  let wide := d != r.domain && encloses d r.domain
  let (s, r) := if wide then widen s r d bit src (if src == faultEvent d then none else some data) else (s, r)
  let esc := r.merges ≥ 4 && !r.escalated
  let target := escalationTarget r.domain
  let (s, r) :=
    if esc then
      let r := { r with escalated := true }
      let s := putRec s r.domain r
      if target == r.domain then (s, r)
      else
        let (s, r) := widen s r target bit (faultEvent target) none
        (notice s 0x04E5 (target + domClass target * 2 ^ 24), r)
    else (s, r)
  let r := { r with step := if r.step == .queued then .queued else quietEnd s }
  let s := startQueued (putRec s r.domain r)
  let kind := if esc then 4 else if wide then 3 else 2
  let s := record s src d kind (domClass r.domain) r.openClass r.merges r.openSeq r.cause
  notice s 0x04E4 (faultData r.domain r.merges)

/-- A digitizer that keeps samples and taps an ISOLATED channel records the opening of its tap (09 R186, R207). -/
def tapOpened (s : State) (ch : Nat) : State :=
  forEach ((List.range 4).map fun j => 4 * (ch / 128) + j) s fun n s =>
    let d := s.dig n
    if acqRuns d && s.setting 7 n 1 == 1 && s.setting 7 n 2 == (ch % 128 : Nat) then
      addRecs s n (fun q => mkRec 3 3 0 0 q 0 0) d.g
    else s

/-- Isolate a resource until power is cycled (18 R409). -/
def isolate (s : State) (d : Nat) : State :=
  let s := { s with flt.isolated := if s.flt.isolated.contains d then s.flt.isolated else s.flt.isolated ++ [d] }
  let s := if d < 0x200 then tapOpened (s.updChan d fun c => { c with st := .isolated }) d else s
  let s := if 0x250 ≤ d && d < 0x260 then s.updAwg (d - 0x250) fun a => { a with st := .isolated, routed := false } else s
  notice s 0x04E9 d

/-- A fault of a domain with a cause bit, its event ID and DATA (18 R416). -/
def raiseWith (s : State) (d bit src data : Nat) : State :=
  let c := domClass d
  let cause : BitVec 64 := BitVec.ofNat 64 (2 ^ bit)
  if bit = 48 || bit = 49 then
    if s.flt.phase == .shutdown then post s src (c + 1) bit data
    else
      let s := post s src (c + 1) bit data
      enterStopped (record s src d 8 c c 0 s.flt.seq cause) .shutdown
  else
    match s.flt.phase with
    | .halted => post s src (c + 1) bit data
    | .shutdown => post s src (c + 1) bit data
    | .service =>
      match s.flt.recs.find? fun r => domOverlap r.domain d with
      | some r => mergeFault s r d bit src data
      | none => openRecovery s d bit src data
    | _ =>
      let s := contain (post s src (c + 1) bit data) d
      if c = 1 then isolate (record s src d 6 c c 0 s.flt.seq cause) d
      else enterStopped (record s src d 7 c c 0 s.flt.seq cause) .halted

/-- A fault with the event of its domain (18 R421). -/
def raiseFault (s : State) (d bit : Nat) : State := raiseWith s d bit (faultEvent d) (faultData d 0)

/-- The faults of memory channels that eight uncorrectable beats in 1 ms owe (21 R471). -/
def raiseOwed (s : State) : State :=
  forEach (List.range 2) s fun m s =>
    if (s.memChan m).owed then raiseFault (s.updMemChan m fun c => { c with owed := false }) (domMem m) 58 else s

/-! ### Restoration (18 R411, R412, R418) -/

/-- Restoration of a domain must wait (18 R412). -/
def mustWait (s : State) (d : Nat) : Bool :=
  s.flt.railBad || s.flt.refStopped || (unitsIn d 8 domDcs).any fun n => !(s.dcs n).refOk

/-- A HELD sector returns to IDLE once it is not contained, nor any sector that was locked with it (06 R109). -/
def releaseHeld (s : State) : State :=
  forEach (List.range 8) s fun n s =>
    let stuck := (List.range 8).any fun m =>
      (s.sec m).st == .held && (m == n || ((s.sec n).own.isSome && (s.sec m).own == (s.sec n).own)) && isContained s (domSec m)
    if (s.sec n).st == .held && !stuck then s.updSec n fun x => { x with st := .idle } else s

/-- A channel takes the MODE of the image, its latch cleared and its event armed again, and queues the window records it
owes (03 R64, R67; 07 R154). -/
def restoreChan (s : State) (n : Nat) : State :=
  if (s.chan n).st == .isolated || isContained s (domChan n) then s
  else
    let s := s.updChan n fun c => { c with freeAt := s.now }
    let m := s.setting 1 n 1
    let arm := s.setting 1 n 0x013 == 1
    let s := (clearLatch (enterMode s n m) n).updChan n fun c => { c with armed := c.armed || arm }
    if m == 0 then s else payWindows s n

/-- A synthesizer has taken the ratios of the image and relocked; its gate opens if OUT_EN is 1 (11 R249). -/
def restoreDcs (s : State) (n : Nat) : State :=
  if isContained s (domDcs n) then s
  else
    let s := s.updDcs n fun d =>
      { d with st := if s.setting 9 n 5 == 1 then .running else .gated, locked := true, m := s.settingN 9 n 1,
               nNow := s.settingN 9 n 2, o := s.settingN 9 n 3, bw := s.settingN 9 n 4 }
    setGate (freshAnchor s n) n

/-- The words of an engine that held an uncorrectable error: 0, or the HALT word in the code store (12 R282). -/
def cleanWord (x : Engine) (p : Nat × Nat) : Engine :=
  match p.1 with
  | 0 => { x with code := Tab.set haltWord x.code p.2 haltWord }
  | 1 => { x with u := Tab.set 0 x.u p.2 0 }
  | 2 => { x with v := Tab.set 0 x.v p.2 0 }
  | _ => { x with limits := Tab.set [] x.limits p.2 [] }

/-- A digitizer delivers again: decimated samples resume once their support lies after the restoration (09 R189). -/
def restoreDig (s : State) (n : Nat) : State :=
  if isContained s (domDig n) then s else s.updDig n fun d => { d with decFrom := max d.decFrom d.g }

/-- An engine returns to IDLE (12 R282). -/
def restoreEng (s : State) (e : Nat) : State :=
  if isContained s (domEng e) then s
  else s.updEng e fun x => { x.bad.foldl cleanWord x with bad := [], st := .idle }

/-- What the restoration of the device adds: after a machine check contexts cleared, with the routines that they hold by then, and a
failing patch dropped; DEV_SAFE (17 R397; 18 R424). -/
def restoreDevice (s : State) : State :=
  let s := if s.csq.checkOwed then { killRoutines s with csq.ctxs := [], csq.checkOwed := false } else s
  let s := { s with flt.devSafe := .safe }
  match s.csq.patchFailed with
  | some a => notice { s with csq.patchFailed := none, csq.patch := .dropped, csq.active := {} } 0x04C3 a
  | none => s

/-- A source takes the settings of the applied image: the CLEAR_CODE that stands at its output (10 R239, R240). -/
def restoreAwg (s : State) (n : Nat) : State :=
  if !isContained s (domAwg n) && (s.awg n).atClear then s.updAwg n fun a => { a with last := clearCode s n } else s

/-- Restore the units of a domain (18 R412). -/
def restoreUnits (s : State) (d : Nat) : State :=
  let s := forEach (unitsIn d 8 domSec) s fun n s => s.updSec n fun x => { x with pllLost := false }
  let s := releaseHeld s
  let s := forEach (chansIn d) s fun n s => restoreChan s n
  let s := forEach (unitsIn d 8 domDcs) s fun n s => restoreDcs s n
  let s := forEach (unitsIn d 16 domAwg) s fun n s => restoreAwg s n
  let s := forEach (unitsIn d 16 domDig) s fun n s => restoreDig s n
  let s := forEach (unitsIn d 16 domEng) s fun e s => restoreEng s e
  let s := if !(unitsIn d 2 domMem).isEmpty && s.mem.st == .recovery &&
      !((List.range 2).any fun m => isContained s (domMem m)) then { s with mem.st := .inService } else s
  let s := { s with flt.stale := s.flt.stale.filter fun p => !encloses d (domDie p.1) }
  let s := if d = domDev then restoreDevice s else s
  refreshRoutes s

end Sys2Proof.Machine
end

