-- ==== Sys2Proof/Machine/Csq.lean ====
section
/-! DEFINITION. The command sequencer: fetch, start, resume, traps, microwords and patches (13 R294 to R302; 14 R311 to
R314; 17). -/

namespace Sys2Proof.Machine

open Sys2Proof

/-! ### Header and role tests (14 R311 to R314) -/

/-- The assigned opcodes (14 R320). -/
def assignedOpcs : List Nat :=
  [0x00, 0x01, 0x02, 0x03, 0x08, 0x09, 0x0A, 0x0B, 0x10, 0x11, 0x12, 0x13, 0x18, 0x20, 0x21, 0x28, 0x29, 0x2A, 0x30, 0x31,
   0x32, 0x38, 0x39, 0x40, 0x41, 0x48, 0x49, 0x4A, 0x4B, 0x50, 0x58, 0x60, 0x68]

/-- The opcode takes LATE_POLICY: BURST, and AWG_CTL with ACTION START (14 R312). -/
def takesLate (sl : Slot) : Bool := sl.opc == 0x11 || (sl.opc == 0x32 && sl.op 8 1 == 0)

/-- A header test fails (14 R314 step 1). -/
def headerFails (sl : Slot) : Bool :=
  !assignedOpcs.contains sl.opc || !sl.zero 6 8 || sl.flags ≥ 8 || (sl.runLate && !takesLate sl) ||
    (bitOf sl.clsMask 0 && sl.secMask == 0)

/-- An operation reserved to the keeper stands on a worker (14 R314 step 2). -/
def roleFails (s : State) (sl : Slot) : Bool :=
  !s.grp.keeper && (sl.opc == 0x60 || (sl.opc == 0x01 && sl.op 8 1 == 2))

/-! ### Claims, order and fences (13 R295 to R300) -/

/-- Two claims overlap (13 R295). -/
def claimsOverlap (a b : Slot) : Bool :=
  (a.clsMask &&& b.clsMask) / 2 != 0 ||
    (bitOf a.clsMask 0 && bitOf b.clsMask 0 && (a.secMask &&& b.secMask) != 0)

/-- The held descriptors with their slots. -/
def heldSlots (s : State) : List (Nat × Slot) := s.csq.slots.filterMap fun p => p.2.map fun sl => (p.1, sl)

/-- Descriptors of a ring that came before one. -/
def earlierOf (s : State) (sl : Slot) : List (Nat × Slot) :=
  (heldSlots s).filter fun p => p.2.ring == sl.ring && p.2.seq < sl.seq

/-- A place of a ring lies in a fence's bounds. -/
def inBounds (b : List (Nat × Nat)) (ring seq : Nat) : Bool := b.any fun p => p.1 == ring && seq < p.2

/-- Every covered descriptor has completed (13 R299). -/
def boundsDone (s : State) (b : List (Nat × Nat)) : Bool :=
  (b.all fun p => (s.ring .sq p.1).total ≥ p.2) && (heldSlots s).all fun q => !inBounds b q.2.ring q.2.seq

/-- No result data of a covered descriptor waits for the link, and no fail capture record of a covered burst is still queued
(13 R286, R299 VISIBLE). -/
def boundsVisible (s : State) (b : List (Nat × Nat)) : Bool :=
  (s.host.waiting.all fun m => match m with
    | .data _ _ o => !inBounds b (o / 2 ^ 64) (o % 2 ^ 64)
    | _ => true) &&
  (List.range 8).all fun n => (s.sec n).capQueue.all fun r => !inBounds b (r.2.1 / 2 ^ 64) (r.2.1 % 2 ^ 64)

/-- The operands of a fence are in range and its claim is empty (13 R298). -/
def fenceOk (sl : Slot) : Bool :=
  sl.op 8 1 ≤ 2 && sl.op 9 1 ≤ 1 && sl.zero 10 64 && sl.secMask == 0 && sl.clsMask == 0

/-- A fence may complete (13 R299). -/
def fenceDone (s : State) (sl : Slot) : Bool :=
  boundsDone s sl.bounds && (sl.op 9 1 == 0 || boundsVisible s sl.bounds)

/-- An EXEC fence, of a descriptor or of the group, holds back a descriptor (13 R299; 16 R380). -/
def fenceHolds (s : State) (id : Nat) (sl : Slot) : Bool :=
  ((heldSlots s).any fun p =>
    let f := p.2
    p.1 != id && f.opc == 0x01 && fenceOk f && !headerFails f && !roleFails s f && f.op 9 1 == 0 &&
      (f.op 8 1 != 0 || f.ring == sl.ring) && !inBounds f.bounds sl.ring sl.seq) ||
  (match s.grp.fence with
    | some (b, visible) => !visible && !boundsDone s b && !inBounds b sl.ring sl.seq
    | none => false)

/-- A fetched descriptor may start (13 R296, R297, R299). -/
def canStart (s : State) (id : Nat) (sl : Slot) : Bool :=
  sl.st == .waiting && !fenceHolds s id sl &&
    (earlierOf s sl).all fun p => !claimsOverlap p.2 sl && !bitOf sl.flags 0

/-- Descriptors that a ring has ever been given. -/
def submitted (r : Ring) : Nat := r.total + r.dist r.fetched r.prod

/-- What a fence covers: its bounds, and how many descriptors were uncompleted (13 R299). -/
def fenceCover (s : State) (sl : Slot) : List (Nat × Nat) × Nat :=
  let own := (earlierOf s sl).length
  let r := s.ring .sq sl.ring
  let others := match r.doors.find? fun d => sl.seq < d.1 with
    | some d => if sl.op 8 1 == 0 then [] else d.2
    | none => []
  ((sl.ring, sl.seq) :: others.map fun o => (o.1, o.2.1), own + (others.map fun o => o.2.2).sum)

/-! ### Fetch (13 R291, R294, R301) -/

/-- The ring may fetch one more descriptor (13 R286, R294; 23 R498). -/
def fetchReady (s : State) (ring : Nat) : Bool :=
  let r := s.ring .sq ring
  let q := s.ring .cq r.cq
  s.pwr.ready && s.host.up && !s.host.d3 && r.enable && r.fetched != r.prod && q.enable &&
    q.dist q.cons q.prod + q.count + 2 ≤ q.size &&
    ((heldSlots s).filter fun p => p.2.ring == ring).length < 64 && (heldSlots s).length < 4096

/-- The place of a ring in the order of fetch grants: one that has waited through 64 goes first, then priority class and ring
number (13 R302). -/
def fetchKey (s : State) (n : Nat) : Nat :=
  (if Tab.get 0 s.host.passed n ≥ 64 then 0 else 2048) + 256 * (s.ring .sq n).cls + n

/-- The rings, other than one, that are ready to fetch as well. -/
def fetchRivals (s : State) (n : Nat) : List Nat := (Tab.keys s.host.sq).filter fun m => m != n && fetchReady s m

/-- Ring n has the fetch grant: it is ready, and no ring that is ready too goes before it (13 R302). -/
def fetchGranted (s : State) (n : Nat) : Bool := fetchReady s n && (fetchRivals s n).all fun m => fetchKey s n ≤ fetchKey s m

/-- A fetch grant to ring n: it has not waited, and every other ready ring has waited through one more (13 R302). -/
def countGrant (s : State) (n : Nat) : State :=
  { s with host.passed := (fetchRivals s n).map fun m => (m, Tab.get 0 s.host.passed m + 1) }

/-- DESCRIPTOR_FETCH: the next descriptor of the ring that has the grant takes a slot and a reserved CQ slot; one that lies
before a running abort completes ABORTED (13 R294, R301, R302). A ring without the grant waits. -/
def execDescriptorFetch (ring : Fin 256) (bytes : List Byte) (s : State) : Host.Outcome State Fault Refusal :=
  .next <|
    if !fetchGranted s ring then s
    else
      let s := countGrant s ring
      let r := s.ring .sq ring
      let q := s.ring .cq r.cq
      let dead := match r.abortTo with
        | some t => r.total < t
        | none => false
      let sl : Slot := { ring := ring, bytes := bytes, seq := r.total, aborted := dead }
      let sl := if sl.opc == 0x01 then
          let c := fenceCover s sl
          { sl with bounds := c.1, covered := c.2 }
        else sl
      let id := s.csq.nextSlot
      let i := r.after r.fetched
      let s := s.setRing .cq r.cq { q with count := q.count + 1 }
      let r := { r with fetched := i, cons := i, total := r.total + 1, doors := r.doors.filter fun d => d.1 > r.total + 1 }
      let s := writeShadow (s.setRing .sq ring r) r i
      let s := { s with csq.slots := Tab.insert s.csq.slots id (some sl), csq.nextSlot := id + 1 }
      if dead then done s id Status.aborted 0 else s

/-! ### Contexts (17 R384 to R386, R391, R392) -/

/-- An address after the match registers (17 R388). -/
def matched (s : State) (a : Nat) : Nat :=
  match s.csq.active.matchSet.find? fun m => m.rom == a with
  | some m => 0x4000 + m.patch
  | none => a

/-- Start a routine in a context, keeping the frames there (17 R385, R388). -/
def launch (s : State) (c id : Nat) : State :=
  match s.slot id with
  | none => s
  | some sl =>
    let s := s.updCtx c fun x =>
      { busy := true, slot := some id, frames := x.frames, due := x.due,
        pc := BitVec.ofNat 15 (matched s (if sl.mx.isEmpty then Config.romEntry sl.opc else sl.pc + 1).toNat),
        mx := if sl.mx.isEmpty then List.replicate 16 0 else sl.mx }
    let n := s.csq.starts
    { s.updSlot id fun x =>
        { x with st := .running c, epochs := epochsNow s, started := if sl.mx.isEmpty then n else x.started, ranAt := s.now,
                 shaken := false }
      with csq.starts := n + 1 }

/-- Save a trap frame of a context; its routine is suspended (17 R392). -/
def pushFrame (s : State) (c progress : Nat) (epochs : List Nat) (test cancels : Bool) : State :=
  s.updCtx c fun x =>
    { x with frames := x.frames ++ [⟨x.slot, x.pc, x.stack, x.lc, x.mx,
        BitVec.ofNat 4 (b2n x.z * 8 + b2n x.n * 4 + b2n x.c * 2 + b2n x.v), BitVec.ofNat 32 progress, epochs, false, test, x.waits,
        cancels⟩], slot := none, waits := false, cancelled := false }

/-- CLASS of the ring of a slot. -/
def classOfSlot (s : State) (id : Nat) : Nat := match s.slot id with
  | some sl => (s.ring .sq sl.ring).cls
  | none => 0

/-- When a routine started. -/
def startOf (s : State) (id : Nat) : Nat := match s.slot id with
  | some sl => sl.started
  | none => 0

/-- The progress of the routine at the top of a context. -/
def ctxProgress (s : State) (c : Nat) : Nat := ((ctxOwner s c).bind s.slot).elim 0 (·.progress)

/-- The context that an URGENT descriptor preempts: of the lowest class, the most recently started, with a free frame; one that a
FAULT trap has suspended counts (17 R386). -/
def urgentVictim (s : State) : Option Nat :=
  ((List.range 7).filter fun c => (ctxOwner s c).isSome && (s.ctx c).frames.length < 3).foldl
    (fun best c => match best with
      | none => some c
      | some b =>
        let i := (ctxOwner s c).getD 0
        let j := (ctxOwner s b).getD 0
        if classOfSlot s j < classOfSlot s i || (classOfSlot s j == classOfSlot s i && startOf s j < startOf s i)
        then some c else best) none

/-- An URGENT descriptor takes the context of a victim by a trap (17 R386). -/
def preempt (s : State) (c id : Nat) : State :=
  launch (pushFrame s c (ctxProgress s c) (epochsNow s) true false) c id

/-- The wait of a parked routine has ended (17 R385). -/
def waitOver (s : State) (id : Nat) (sl : Slot) : Wait → Bool
  | .ending => sl.outcome.isSome
  | .scheduler => !schedFull s
  | .sectors => (maskList 8 sl.secMask).all fun n => (s.sec n).st == .idle
  | .group => s.grp.op.isNone
  | .aux => auxFree s
  | .fresh => !(s.thm.fresh.any fun p => p.1 == id)
  | .fence => fenceDone s sl && (sl.op 8 1 != 2 || match s.grp.op with
    | some o => o.slot != id || o.admitted
    | none => true)
  | .micro => true

/-- A descriptor asks for a context: it may start, or the wait that parked it has ended. Whether the wait of a PARK microword
has, only its own resume tells. -/
def asksContext (s : State) (id : Nat) (sl : Slot) : Bool := canStart s id sl || match sl.st with
  | .parked .micro => false
  | .parked w => waitOver s id sl w
  | _ => false

/-- The place of a descriptor among those that ask for a context: priority class, ring, TAG, place in the ring (13 R302). -/
def startKey (s : State) (sl : Slot) : Nat :=
  (((s.ring .sq sl.ring).cls * 256 + sl.ring) * 65536 + sl.tag) * 2 ^ 64 + sl.seq

/-- The descriptor has the grant of a context: none that asks for one goes before it (13 R302). -/
def startGranted (s : State) (id : Nat) (sl : Slot) : Bool :=
  (heldSlots s).all fun p => p.1 == id || startKey s sl ≤ startKey s p.2 || !asksContext s p.1 p.2

/-- A running routine asks for the host DMA at the tick of another's start: MEM_COPY, MEM_FILL, SEG_LOAD, AWG_WRITE, ENG_LOAD or
CAL_USER, before its first data (01 R19). -/
def asksDma (s : State) (id : Nat) (sl : Slot) (tick : Nat) : Bool :=
  sl.progress == 0 && sl.ranAt == tick && !sl.aborted && [0x02, 0x03, 0x10, 0x31, 0x40, 0x58].contains sl.opc &&
    match sl.st with
    | .running c => (s.ctx c).slot == some id
    | _ => false

/-- Another routine that asked for the host DMA in the same tick goes first: by class, ring and TAG (13 R302; the tick is that of
their starts, DESIGN CHOICE, log entry 80). -/
def dmaHeld (s : State) (id : Nat) (sl : Slot) : Bool :=
  sl.progress == 0 && (heldSlots s).any fun p =>
    p.1 != id && asksDma s p.1 p.2 sl.ranAt && startKey s p.2 < startKey s sl

/-- DESCRIPTOR_START: the header and role tests, then a context, in the order of grants (13 R296, R302; 14 R314; 17 R385,
R386). -/
def execDescriptorStart (id : Nat) (s : State) : Host.Outcome State Fault Refusal :=
  .next <| match s.slot id with
    | none => s
    | some sl =>
      if !canStart s id sl || !startGranted s id sl then s
      else if headerFails sl then refuse s id Status.field
      else if roleFails s sl then refuse s id Status.role
      else match freeCtx s with
        | some c => launch s c id
        | none =>
          if classOfSlot s id == 0 then (match urgentVictim s with
            | some c => if (s.ctx c).atomic then s else preempt s c id
            | none => s)
          else s

/-- DESCRIPTOR_RESUME: a parked routine whose wait has ended takes a free context, in the order of grants, with a new snapshot of
the epochs; one whose work has ended completes (13 R302; 17 R385, R394). -/
def execDescriptorResume (id : Nat) (s : State) : Host.Outcome State Fault Refusal :=
  .next <| match s.slot id with
    | some sl => match sl.st, freeCtx s with
      | .parked w, some c =>
        if waitOver s id sl w && startGranted s id sl then
          (match sl.outcome with
           | some x => complete (launch s c id) id x.status x.detail x.sweep x.late
           | none => launch s c id)
        else s
      | _, _ => s
    | none => s

/-! ### Traps (17 R391 to R395, R530) -/

/-- Opcodes that can complete DISTURBED (17 R395). -/
def canDisturb (sl : Slot) : Bool :=
  sl.opc == 0x10 || sl.opc == 0x13 || sl.opc == 0x4A || (sl.opc == 0x58 && (sl.op 8 1 ≤ 1 || sl.op 8 1 == 4))

/-- A claimed sector's epoch has changed since a snapshot (17 R394). -/
def epochChanged (s : State) (sl : Slot) (snap : List Nat) : Bool :=
  (maskList 8 sl.secMask).any fun n => Tab.get 0 s.csq.epochs n != (snap[n]?).getD 0

/-- The domain is a sector, whose FAULT trap makes the epoch test (17 R395). -/
def isSectorDomain (d : Nat) : Bool := 0x240 ≤ d && d < 0x248

/-- Bits of a microword. -/
def mwBits (w : BitVec 132) (hi lo : Nat) : Nat := bits w.toNat hi lo

/-- The word at a micro-address. -/
def fetchMicro (s : State) (a : Nat) : BitVec 132 :=
  if a < 0x4000 then Config.rom a else (s.csq.active.words[a - 0x4000]?).getD 0

/-- The routine stands at a WAIT on a read of a unit or of DDR5, which a FAULT trap cancels (17 R391; DESIGN CHOICE, log entry
85). -/
def waitsOnUnit (s : State) (x : Ctx) : Bool :=
  let op := mwBits (fetchMicro s x.pc.toNat) 67 64
  x.waits && (op == 1 || op == 5)

/-- Take a FAULT trap that is owed in context c: the trap routine runs there (17 R391, R392). -/
def faultTrap (s : State) (c d : Nat) : State :=
  let x := s.ctx c
  match x.due.find? fun e => some e.1 == ctxOwner s c && e.2.1 == d with
  | none => s
  | some e =>
    if x.atomic || x.frames.length ≥ 3 then s
    else (pushFrame s c (ctxProgress s c) e.2.2 (isSectorDomain d) (waitsOnUnit s x)).updCtx c fun x =>
      { x with due := x.due.filter (· != e), pc := BitVec.ofNat 15 (matched s Config.trapEntry.toNat) }

/-- The frames under one whose trap has returned into another trap's routine: the outermost test is made by the routine (17 R394,
R395). -/
def passTest (f : TrapFrame) : List TrapFrame → List TrapFrame
  | [] => []
  | [g] => [if f.test && !g.test then { g with test := true, epochs := f.epochs } else g]
  | g :: fs => g :: passTest f fs

/-- Return from a trap: the frame is restored, or the routine completes ABORTED or DISTURBED (17 R392, R394, R395). -/
def trapReturn (s : State) (c : Nat) : State :=
  let x := s.ctx c
  if x.slot.isSome then s
  else match x.frames.getLast? with
    | none => s
    | some f =>
      let z := f.zncv.toNat
      let under := x.frames.dropLast
      let s := s.updCtx c fun x =>
        { x with slot := f.slot, pc := f.pc, stack := f.stack, lc := f.lc, mx := f.mx, z := bitOf z 3, n := bitOf z 2,
                 c := bitOf z 1, v := bitOf z 0, waits := f.waits, cancelled := f.waits && f.cancels,
                 frames := if f.slot.isNone then passTest f under else under }
      match f.slot with
      | none => s
      | some id => match s.slot id with
        | none => s.updCtx c fun x => if x.frames.isEmpty then {} else { x with slot := none }
        | some sl =>
          let k := f.progress.toNat
          if f.aborted || sl.aborted then done (leaveItems s id sl k) id Status.aborted k
          else if f.test && epochChanged s sl f.epochs then
            (if canDisturb sl then done (leaveItems s id sl k) id Status.disturbed k
             else s.updSlot id fun y => { y with shaken := true })
          else s

/-- MICRO_TRAP (17 R391 to R395). -/
def execMicroTrap (ctx : Fin 8) (op : TrapOp) (s : State) : Host.Outcome State Fault Refusal :=
  let x := s.ctx ctx
  .next <| match op with
    | .fault d => faultTrap s ctx d.toNat
    | .urgent id => match s.slot id with
      | some sl =>
        if canStart s id sl && classOfSlot s id == 0 && !headerFails sl && !roleFails s sl && (freeCtx s).isNone &&
            urgentVictim s == some ctx.val && !x.atomic
        then preempt s ctx id else s
      | none => s
    | .abort => match x.slot.bind s.slot, x.slot with
      | some sl, some id =>
        if sl.aborted && !x.atomic && x.frames.length < 3 then done (leaveItems s id sl sl.progress) id Status.aborted sl.progress else s
      | _, _ => s
    | .ret => trapReturn s ctx

/-! ### Machine checks (17 R397) -/

/-- A machine check at a micro-address: a class 3 fault; every routine held completes TESTER_FAULT (17 R397). -/
def machineCheck (s : State) (pc bit : Nat) : State :=
  let s := { s with csq.machineChecks := incSat 16 s.csq.machineChecks,
                    csq.patchFailed := if pc ≥ 0x4000 then some pc else s.csq.patchFailed,
                    csq.checkOwed := true }
  killRoutines (raiseWith s domDev bit 0x04C0 pc)

/-! ### Patches (17 R396 to R401; 14 R341) -/

/-- A 128-bit microword with its parity bits. -/
def withParity (w : Nat) : BitVec 132 :=
  let par (q : Nat) : Nat := popcount 32 (bits w (32 * q + 31) (32 * q)) % 2
  BitVec.ofNat 132 (w + par 0 * 2 ^ 128 + par 1 * 2 ^ 129 + par 2 * 2 ^ 130 + par 3 * 2 ^ 131)

/-- A patch word passes the content test (17 R389, R390, R396). -/
def patchWordOk (w wc : Nat) : Bool :=
  let bus := bits w 67 64
  let unit := bus == 1 || bus == 2
  !bitOf w 15 && bits w 19 16 ≤ 10 && bits w 24 20 ≤ 9 && bits w 31 29 == 0 && bits w 35 32 ≤ 10 && bus ≤ 7 &&
    (if unit then bits w 111 100 == 0 else bits w 111 68 == 0) && bits w 127 112 == 0 && bits w 14 0 < 0x4000 + wc

/-- Match entry i of an image. -/
def matchEntry (d : List Byte) (i : Nat) : Nat := field d (64 + 8 * i) 8

/-- A match entry breaks 17 R399. -/
def matchBad (d : List Byte) (count wc i : Nat) : Bool :=
  let e := matchEntry d i
  let lo (e : Nat) : Nat := bits e 13 0
  let len (e : Nat) : Nat := bits e 46 32
  if i ≥ count then e != 0
  else
    !bitOf e 63 || bits e 15 14 != 0 || bits e 31 26 != 0 || bits e 62 47 != 0 || bits e 25 16 ≥ wc ||
      len e == 0 || lo e + len e > 16384 ||
      (List.range i).any fun j => overlap (lo e) (len e) (lo (matchEntry d j)) (len (matchEntry d j))

/-- Test 3 of 17 R400: the byte offset of the first offending field. -/
def patchBadField (d : List Byte) (wc : Nat) : Option Nat :=
  let count := field d 18 1
  let byteBad (i : Nat) : Bool := field d i 1 != 0
  let keyEnd := 320 + 16 * wc + 97
  if field d 12 4 == 0 then some 12
  else if count > 32 then some 18
  else match (List.range 45).find? fun i => byteBad (19 + i) with
    | some i => some (19 + i)
    | none => match (List.range 32).find? fun i => matchBad d count wc i with
      | some i => some (64 + 8 * i)
      | none => match (List.range wc).find? fun k => !patchWordOk (field d (320 + 16 * k) 16) wc with
        | some k => some (320 + 16 * k)
        | none => ((List.range 15).find? fun i => byteBad (keyEnd + i)).map fun i => keyEnd + i

/-- The bank that an image fills. -/
def patchBank (d : List Byte) (wc : Nat) : PatchBank :=
  { words := (List.range wc).map fun k => withParity (field d (320 + 16 * k) 16),
    matchSet := (List.range (field d 18 1)).map fun i =>
      let e := matchEntry d i
      ⟨bits e 13 0, bits e 25 16, bits e 46 32⟩,
    level := field d 12 4 }

/-- PATCH_LOAD (14 R341; 17 R400): every refusal raises 0x04C2. -/
def execPatchLoad (id : Nat) (data : List Byte) (s : State) : Host.Outcome State Fault Refusal :=
  .next <| withDesc s id (fun sl => sl.opc == 0x68) fun sl =>
    let len := sl.op 12 4
    let d := data.take len
    let wc := field d 16 2
    let bad := patchBadField d wc
    let tests : List (Bool × Nat × Nat) :=
      [(!sl.zero 8 12 || !sl.zero 24 64 || len == 0 || len % 16 != 0 || len > 65536 || sl.op 16 8 % 64 != 0,
          Status.field, 0),
       (len != field d 4 4 || field d 4 4 != 528 + 16 * wc || wc == 0 || wc > 1024, Status.length, 0),
       (field d 0 4 != 0x50435350 || zeroBytes d (432 + 16 * wc) (480 + 16 * wc) || zeroBytes d (480 + 16 * wc) (528 + 16 * wc) ||
          !patchSigned d wc, Status.signature, 0),
       (bad.isSome, Status.field, bad.getD 0),
       (field d 8 4 != Config.romId.toNat || field d 12 4 < s.csq.active.level || s.csq.awaiting.isSome,
          Status.consistency, 0)]
    match firstFail tests with
    | some (st, dt) => refuse (notice s 0x04C2 st) id st dt
    | none =>
      park { s with csq.inactive := patchBank d wc, csq.patch := .loaded, csq.awaiting := some (id, s.now) } id .ending

/-- An address lies in the replaced ranges of a match set. -/
def inRanges (ms : List MatchReg) (a : Nat) : Bool := ms.any fun m => m.rom ≤ a && a < m.rom + m.len

/-- The addresses that a context is at (17 R401). -/
def ctxAddrs (x : Ctx) : List Nat :=
  if x.busy then
    (x.pc :: x.stack ++ x.frames.flatMap fun f => f.pc :: f.stack).map BitVec.toNat
  else []

/-- No context is inside a range that an activation replaces (17 R401). -/
def patchClear (s : State) : Bool :=
  ((List.range 8).flatMap fun c => ctxAddrs (s.ctx c)).all fun a =>
    !(inRanges s.csq.inactive.matchSet a || inRanges s.csq.active.matchSet a || a ≥ 0x4000)

/-- PATCH_ACTIVATION: the banks swap and PATCH_LOAD completes (17 R401). -/
def execPatchActivation (s : State) : Host.Outcome State Fault Refusal :=
  .next <| match s.csq.awaiting with
    | some (id, t) =>
      if patchClear s && s.now - t < 100000 * usTicks then
        let b := s.csq.inactive
        let s := { s with csq.active := b, csq.inactive := s.csq.active, csq.patch := .active, csq.awaiting := none }
        done (event s 0x04C1 b.level) id Status.ok b.words.length
      else s
    | none => s

/-- PATCH_ACTIVATION_TIMEOUT: 100 ms after the load the inactive bank is discarded (17 R401). -/
def execPatchActivationTimeout (s : State) : Host.Outcome State Fault Refusal :=
  .next <| match s.csq.awaiting with
    | some (id, t) =>
      if s.now - t ≥ 100000 * usTicks then
        let st : PatchSt := if s.csq.active.words.isEmpty then .none else .active
        refuse { s with csq.inactive := {}, csq.awaiting := none, csq.patch := st } id Status.consistency
      else s
    | none => s

end Sys2Proof.Machine
end

