-- ==== Sys2Proof/Machine/MemOps.lean ====
section
/-! DEFINITION. Reads of DDR5 that meet uncorrectable beats, and accesses through the BAR4 window (13 R289; 21 R468 to
R471). -/

namespace Sys2Proof.Machine

open Sys2Proof

/-- Errors that the DRAM has taken: a beat with two bits in error is uncorrectable, one with a single bit is corrected when it is
read (21 R468; log entry 38). -/
def takeUpsets (s : State) (us : List (Nat × Bool)) : State :=
  forEach us s fun u s =>
    if (s.mem.poison ++ s.mem.bad).contains u.1 then s
    else if u.2 || s.mem.single.contains u.1 then
      { s with mem.bad := u.1 :: s.mem.bad, mem.single := s.mem.single.filter (· != u.1) }
    else { s with mem.single := u.1 :: s.mem.single }

/-- An uncorrectable beat is read, with the fault of its channel where it is the eighth (21 R468, R470, R471). -/
def readBeat (s : State) (b : Nat) : State := raiseOwed (meetBeat s b)

/-- Read a range: the state after the reads, and whether an uncorrectable beat was met. -/
def scanRead (s : State) (a n : Nat) : State × Bool :=
  let bs := badBeats s a n
  (forEach bs (correctRead s a n) fun b s => readBeat s b, !bs.isEmpty)

/-- A write of less than a line reads the line first: uncorrectable beats that the write does not supply are met
(21 R468). The Boolean says that one was. -/
def scanModify (s : State) (a n : Nat) : State × Bool :=
  let (s, bad) := meetModify s a n
  (raiseOwed s, bad)

/-! ### The BAR4 window (13 R289) -/

/-- The window of BAR4 in bytes; 0 when absent. -/
def barSize (s : State) : Nat :=
  if s.host.bar4Size == 0 || s.host.bar4Size ≥ 12 then 0 else 2 ^ 26 * 2 ^ (s.host.bar4Size - 1)

/-- A DDR5 address lies in a region. -/
def inRegion (s : State) (a : Nat) : Bool := (regionHolding s anyType a 1).isSome

/-- A range lies inside regions, in one or across neighbours. -/
def inRegions (s : State) (a n : Nat) : Bool :=
  (regionHolding s anyType a n).isSome || (List.range n).all fun i => inRegion s (a + i)

/-- Bytes from an address cut at the boundaries of 1 MiB, the grain of regions (21 R465). -/
def mibPieces : Nat → Nat → List Byte → List (Nat × List Byte)
  | 0, a, bs => [(a, bs)]
  | n + 1, a, bs =>
    let k := 2 ^ 20 - a % 2 ^ 20
    if bs.length ≤ k then [(a, bs)] else (a, bs.take k) :: mibPieces n (a + k) (bs.drop k)

/-- AER reports a poisoned completion as an advisory non-fatal error, bit 13 of the correctable error status (13 R284, R304; 21
R470; PRESUMED, log entry 70). -/
def aerAdvisory (s : State) : State :=
  let aer := s.host.aer ||| 0x2000
  notice { s with host.aer := aer } 0x0482 aer.toNat

/-- Read the parts of a range that lie inside regions, and tell whether an uncorrectable beat was met (21 R468, R470). -/
def scanParts (s : State) (a n : Nat) : State × Bool :=
  (mibPieces (n / 2 ^ 20 + 1) a (zeros n)).foldl (fun acc p =>
    if !s.stopped && inRegion s p.1 then
      let (t, bad) := scanRead acc.1 p.1 p.2.length
      (t, acc.2 || bad)
    else acc) (s, false)

/-- One access through the window: a read of `len` bytes where no bytes are given, else a write. Bytes outside every region read
0 and are discarded on a write, with one event for the access. -/
def barAccess (s : State) (x len : Nat) (data : List Byte) : State :=
  let a := s.host.bar4Base * 2 ^ 26 + x
  let n := if data.isEmpty then len else data.length
  let whole := !s.stopped && inRegions s a n
  let maps (i : Nat) : Bool := !s.stopped && (whole || inRegion s (a + i))
  let s := if whole then s else barEvent s x
  if data.isEmpty then
    if whole then
      let (s, bad) := scanRead s a n
      let s := { s with host.readData := ddrRead s a n, host.poisoned := bad }
      if bad then aerAdvisory s else s
    else
      let (s, bad) := scanParts s a n
      let s := { s with host.readData := (List.range n).map fun i => if maps i then Memory.read s.mem.cells (a + i) else 0,
                        host.poisoned := bad }
      if bad then aerAdvisory s else s
  else if whole then raiseOwed (rmwWrite s a data).1
  else forEach (mibPieces (n / 2 ^ 20 + 1) a data) s fun p s =>
    if !s.stopped && inRegion s p.1 then raiseOwed (rmwWrite s p.1 p.2).1 else s

/-- Accesses that waited for a memory channel act once DDR5 is in service, or when HALTED or SHUTDOWN ends their wait (18 R410; 21
R471). -/
def barResume (s : State) : State :=
  if s.memUp || s.stopped then
    forEach s.host.barWait { s with host.barWait := [] } fun w s => barAccess s w.1 w.2.1 w.2.2
  else s

/-- A routine of the host DMA class waits for a memory channel in recovery (21 R471). -/
def dmaWaits (s : State) (ddr : Bool) : Bool := ddr && s.mem.st == .recovery

/-- An access acts, or waits while a memory channel is in recovery (21 R471). -/
def barCommand (s : State) (x len : Nat) (data : List Byte) : State :=
  let s := barResume s
  if x + len + data.length > barSize s || len + data.length == 0 then s
  else if s.mem.st == .recovery && !s.stopped then { s with host.barWait := s.host.barWait ++ [(x, len, data)] }
  else barAccess s x len data

/-- BAR4_READ (13 R289). -/
def execBar4Read (offset : BitVec 36) (len : Fin 4097) (s : State) : Host.Outcome State Fault Refusal :=
  .next (barCommand s offset.toNat len [])

/-- BAR4_WRITE (13 R289). -/
def execBar4Write (offset : BitVec 36) (data : List Byte) (s : State) : Host.Outcome State Fault Refusal :=
  .next (barCommand s offset.toNat 0 data)

end Sys2Proof.Machine
end

