-- ==== Sys2Proof/Machine/Desc.lean ====
section
/-! DEFINITION. Descriptors over memory, staged sets and daymarks (14 R321 to R329; 15 R345 to R350, R359). -/

namespace Sys2Proof.Machine

open Sys2Proof

/-- The `n` bytes that a command carries from host memory; bytes that it does not carry count as 0 (log entry 9). -/
def hostBytes (data : List Byte) (n : Nat) : List Byte := data.take n ++ zeros (n - data.length)

/-! ### NOP, MEM_COPY, MEM_FILL (14 R321 to R323) -/

/-- NOP (14 R321). -/
def execNop (id : Nat) (s : State) : Host.Outcome State Fault Refusal :=
  .next <| withDesc s id (fun sl => sl.opc == 0x00) fun sl =>
    guarded s id [(!sl.zero 8 64, Status.field, 0)] (done s id Status.ok 0)

/-- A MEM_COPY moves its next 64-byte blocks, `k` of them or as many as are left; an uncorrectable beat of the source ends it
after the blocks before it (14 R322). -/
def copyBlocks (s : State) (id : Nat) (sl : Slot) (data : List Byte) (k : Nat) : State :=
  let dir := sl.op 8 1
  let n := sl.op 32 8 / 64
  let from' := sl.progress
  let upTo := itemsTo sl k n
  let src := sl.op 16 8 + 64 * from'
  let dst := sl.op 24 8 + 64 * from'
  let put (s : State) (m : Nat) : State :=
    let bytes := if dir == 0 then hostBytes (data.drop (64 * from')) (64 * m) else ddrRead s src (64 * m)
    if m == 0 then s else if dir == 1 then emit s (.data dst bytes (slotPlace s id)) else ddrWrite s dst bytes
  if dmaWaits s true then s
  else match (if dir == 0 then [] else badBeats s src (64 * (upTo - from'))) with
  | [] =>
    let s := if dir == 0 then s else correctRead s src (64 * (upTo - from'))
    goOn (put s (upTo - from')) id upTo n fun s => done s id Status.ok (satTo 32 n)
  | b :: _ =>
    let m := (4 * b - src) / 64
    let (s, _) := scanRead (put (if m == 0 then s else correctRead s src (64 * m)) m) (src + 64 * m) 64
    done s id Status.testerFault (satTo 32 (from' + m))

/-- MEM_COPY: the next `blocks` blocks, the tests before the first of them (14 R322; 01 R19). -/
def execMemCopy (id : Nat) (data : List Byte) (blocks : Nat) (s : State) : Host.Outcome State Fault Refusal :=
  .next <| withDesc s id (fun sl => sl.opc == 0x02 && !dmaHeld s id sl) fun sl =>
    let dir := sl.op 8 1
    let src := sl.op 16 8
    let dst := sl.op 24 8
    let len := sl.op 32 8
    if sl.progress > 0 then copyBlocks s id sl data blocks
    else guarded s id
      [(dir > 2 || !sl.zero 9 16 || !sl.zero 40 64 || src % 64 != 0 || dst % 64 != 0 || len % 64 != 0 || len > 2 ^ 37,
          Status.field, 0),
       (len == 0 || (dir != 0 && (regionHolding s anyType src len).isNone) ||
          (dir != 1 && (regionHolding s anyType dst len).isNone), Status.length, 0),
       (!sl.coversBit 5, Status.claim, 0),
       (dir == 2 && overlap src len dst len, Status.consistency, 0),
       (!s.memUp, Status.testerFault, 0)]
      (copyBlocks s id sl data blocks)

/-- MEM_FILL: the next `blocks` blocks, the tests before the first of them (14 R323). -/
def execMemFill (id blocks : Nat) (s : State) : Host.Outcome State Fault Refusal :=
  .next <| withDesc s id (fun sl => sl.opc == 0x03 && !dmaHeld s id sl) fun sl =>
    let dst := sl.op 16 8
    let len := sl.op 24 8
    let upTo := itemsTo sl blocks (len / 64)
    let fill : State :=
      goOn (ddrWrite s (dst + 64 * sl.progress) ((List.replicate (8 * (upTo - sl.progress)) (leBytes 8 (sl.op 8 8))).flatten)) id
        upTo (len / 64) fun s => done s id Status.ok (satTo 32 (len / 64))
    if sl.progress > 0 then (if dmaWaits s true then s else fill)
    else guarded s id
      [(!sl.zero 32 64 || dst % 64 != 0 || len % 64 != 0 || len > 2 ^ 37, Status.field, 0),
       (len == 0 || (regionHolding s anyType dst len).isNone, Status.length, 0),
       (!sl.coversBit 5, Status.claim, 0),
       (!s.memUp, Status.testerFault, 0)]
      fill

/-! ### STAGE, CHECK, APPLY, DISCARD (14 R324 to R328) -/

/-- The ring that a slot came from owns set k. -/
def owns (s : State) (sl : Slot) (k : Nat) : Bool := (s.set k).st != .free && (s.set k).owner == sl.ring

/-- STAGE (14 R324; 15 R342 to R346). -/
def execStage (id : Nat) (data : List Byte) (s : State) : Host.Outcome State Fault Refusal :=
  .next <| withDesc s id (fun sl => sl.opc == 0x08) fun sl =>
    let k := sl.op 8 1
    let opening := sl.op 9 1
    let count := sl.op 12 4
    let set := s.set k
    let recs := (chunks 16 count (hostBytes data (16 * count))).map readRec
    let badRec := recs.findIdx? fun r => !(recordOk r.1.target r.1.value && r.2)
    let badRole := recs.findIdx? fun r =>
      s.grp.keeper && r.1.target == targetOf 0x0A 0 0x001 && r.1.value == 1
    guarded s id
      [(k > 15 || opening > 1 || !sl.zero 10 12 || !sl.zero 24 64 || sl.op 16 8 % 16 != 0 || count > 4096, Status.field, 0),
       (count == 0 || set.recs.length + count > 4096, Status.length, 0),
       ((opening == 1 && set.st != .free) || (opening == 0 && !owns s sl k) || set.st == .pending, Status.consistency, 0),
       (badRec.isSome, Status.field, badRec.getD 0),
       (badRole.isSome, Status.role, badRole.getD 0)]
      (done (s.updSet k fun x => { x with st := .opened, owner := sl.ring, recs := x.recs ++ recs.map Prod.fst }) id
        Status.ok (set.recs.length + count))

/-- The tests of CHECK on set k against an image, after the operand test (14 R325). -/
def setTests (s : State) (sl : Slot) (k : Nat) (img : List (Nat × Int)) : List (Bool × Nat × Nat) :=
  let recs := (s.set k).recs
  let bad := checkSet s img recs
  [(!owns s sl k || recs.isEmpty, Status.consistency, 0),
   (!claimsRecs s sl recs, Status.claim, 0),
   (bad.isSome, Status.consistency, bad.getD 0)]

/-- CHECK (14 R325; 15 R348). -/
def execCheck (id : Nat) (s : State) : Host.Outcome State Fault Refusal :=
  .next <| withDesc s id (fun sl => sl.opc == 0x09) fun sl =>
    let k := sl.op 8 1
    guarded s id ((k > 15 || !sl.zero 9 64, Status.field, 0) :: setTests s sl k (imageFor s none none))
      (done s id Status.ok (s.set k).recs.length)

/-- The position of a request: IMMEDIATE counts as one lead from now (14 R327). -/
def requestPos (s : State) (sl : Slot) (whenAt posAt ns : Nat) : Pos :=
  if sl.op whenAt 1 == 0 then afterLead s ns else BitVec.ofNat 64 (sl.op posAt 8)

/-- A request is late under a lead; IMMEDIATE never is (14 R327; 02 R39). -/
def requestLate (s : State) (sl : Slot) (whenAt posAt ns : Nat) : Bool :=
  sl.op whenAt 1 != 0 && isLate s (BitVec.ofNat 64 (sl.op posAt 8)) ns

/-- The lowest record of a set that meets another claim (15 R350), 0 where none does. -/
def overlapIndex (s : State) (recs : List Rec) (other : Slot) : Nat :=
  (recs.findIdx? fun r =>
    let (b, m) := recClaim s r.target
    bitOf other.clsMask b && (b != 0 || (other.secMask &&& m) != 0)).getD 0

/-- The claim that records need, as a descriptor of a ring of its own (16 R376). -/
def recsClaim (s : State) (recs : List Rec) : Slot :=
  let cs := recs.map fun r => recClaim s r.target
  let cls := cs.foldl (fun m c => m ||| 2 ^ c.1) 0
  let sec := cs.foldl (fun m c => if c.1 == 0 then m ||| c.2 else m) 0
  { ring := 256, bytes := [0x0A, 0, 0, 0, BitVec.ofNat 8 sec, BitVec.ofNat 8 cls] }

/-- The claim of an admitted apply: of its APPLY or GROUP descriptor, or of the records of a group apply on a worker. -/
def actClaim (s : State) (a : Action) : Option Slot :=
  match a.slot, a.kind with
  | some id, _ => s.slot id
  | none, .apply k => some (recsClaim s (s.set k).recs)
  | none, _ => none

/-- The claim of a worker's group apply that waits for its APPLY frame, and its position (16 R376). -/
def workerClaim (s : State) : Option (Slot × Pos) := match s.grp.worker with
  | some w => if (findAct s (.apply w.set)).isSome then none else some (recsClaim s (s.set w.set).recs, w.pos)
  | none => none

/-- An APPLY admitted from another ring for a later position, whose claim overlaps (15 R349; 16 R376). -/
def laterApply (s : State) (sl : Slot) (p : Pos) : Option Slot :=
  let later (o : Slot) (q : Pos) : Bool :=
    o.ring != sl.ring && claimsOverlap o sl && orderKey s.sweep.pos p < orderKey s.sweep.pos q
  (s.stg.sched.findSome? fun a => match a.kind, actClaim s a with
    | .apply _, some o => if later o a.pos then some o else none
    | _, _ => none).or
    (match workerClaim s with
     | some (o, q) => if later o q then some o else none
     | none => none)

/-- The operands of APPLY are in range (14 R327). -/
def applyOk (sl : Slot) : Bool :=
  sl.op 8 1 ≤ 15 && sl.op 9 1 ≤ 1 && sl.zero 10 16 && sl.zero 24 64 && (sl.op 9 1 == 1 || sl.zero 16 24)

/-- APPLY (14 R327; 15 R345, R349; 02 R39, R42). -/
def execApply (id : Nat) (s : State) : Host.Outcome State Fault Refusal :=
  .next <| withDesc s id (fun sl => sl.opc == 0x0A) fun sl =>
    let k := sl.op 8 1
    let p := requestPos s sl 9 16 4000
    let later := laterApply s sl p
    let tests := (!applyOk sl, Status.field, 0) :: setTests s sl k (imageFor s (some p) none) ++
      [((s.set k).st == .pending, Status.consistency, 0),
       (later.isSome, Status.consistency, match later with
          | some o => overlapIndex s (s.set k).recs o
          | none => 0)]
    guarded s id tests
      (if schedFull s then park s id .scheduler
       else if requestLate s sl 9 16 4000 then refuse s id Status.late
       else
         let s := s.updSet k fun x => { x with st := .pending }
         park (schedule s { kind := .apply k, slot := some id, pos := p }) id .ending)

/-- DISCARD (14 R328). -/
def execDiscard (id : Nat) (s : State) : Host.Outcome State Fault Refusal :=
  .next <| withDesc s id (fun sl => sl.opc == 0x0B) fun sl =>
    let k := sl.op 8 1
    guarded s id
      [(k > 15 || !sl.zero 9 64, Status.field, 0), (!owns s sl k || (s.set k).st == .pending, Status.consistency, 0)]
      (done (s.updSet k fun x => { x with st := .free, owner := 0, recs := [] }) id Status.ok (s.set k).recs.length)

/-! ### DAYMARK (14 R329; 15 R358, R359) -/

/-- Positions of admitted daymarks, and of those taken that still keep others away. -/
def dayPositions (s : State) : List Pos :=
  s.stg.dayPos ++ s.stg.sched.filterMap fun a => match a.kind with
    | .daymark => some a.pos
    | .groupDaymark _ => some a.pos
    | _ => none

/-- A position lies less than 40 µs from an admitted daymark (15 R359). -/
def dayTooClose (s : State) (p : Pos) : Bool :=
  (dayPositions s).any fun q => p == q || min (ahead p q) (ahead q p) < leadUnits s 40000

/-- DAYMARK (14 R329). -/
def execDaymark (id : Nat) (s : State) : Host.Outcome State Fault Refusal :=
  .next <| withDesc s id (fun sl => sl.opc == 0x48) fun sl =>
    let p := requestPos s sl 9 16 1000
    guarded s id
      [(!sl.zero 8 9 || sl.op 9 1 > 1 || !sl.zero 10 16 || !sl.zero 24 64 || (sl.op 9 1 == 0 && !sl.zero 16 24),
        Status.field, 0)]
      (if schedFull s then park s id .scheduler
       else guarded s id
         [(requestLate s sl 9 16 1000, Status.late, 0), (dayTooClose s p, Status.consistency, 0)]
         (park (schedule s { kind := .daymark, slot := some id, pos := p }) id .ending))

end Sys2Proof.Machine
end

