-- ==== Sys2Proof/Machine/CalOps.lean ====
section
/-! DEFINITION. Shared operations of the ageing ledger: quantities and classes, uncertainty, the margin plan and the
exclusion of resources (20 R451 to R460). -/

namespace Sys2Proof.Machine

open Sys2Proof

/-- Class of a quantity number; 0xFF for an unused one (20 R451). -/
def qClass (q : Nat) : Nat :=
  if q < 0x2000 then (if q % 16 ≤ 10 then q % 16 else 0xFF)
  else if q < 0x2040 then (if q % 4 ≤ 2 then 11 else 0xFF)
  else if q < 0x2050 then 12
  else if q == 0x2050 then 13
  else 0xFF

/-- The die record of PE die d in the CAL block (20 R440). -/
def dieRecOff (d : Nat) : Nat := 0x60000 + 0x40000 * d

/-- Where a record of OTP stands in the CAL block: 0 to 511 are the channels', 512 + d those of the PE dies, 516 the control
die's (20 R440). -/
def recordBase (r : Nat) : Nat := if r < 512 then chanRecOff r else if r < 516 then dieRecOff (r - 512) else 0

/-- The first ledger quantity that a record serves (20 R439 to R441, R451). -/
def recordQty (r : Nat) : Nat := if r < 512 then 16 * r else if r < 516 then 0x2000 + 16 * (r - 512) else 0x2050

/-! The manual lists what the die records and the control-die record hold and gives no places in them. The model lays a die
record out as a record of 1,024 bytes, in the order of R440: at 0x000 the full-scale pair of each source, at 0x020 the pair of
each digitizer at each span, at 0x080 the aperture deskews, at 0x090 the pairs of the lane ADCs, at 0x110 the sensor trims, at
0x120 and 0x130 U_F of the AWG and the DIG quantities, at 0x3FC the CRC. The control-die record holds the identity at 0x000, the
serial number first, the crystal trim at 0x010, the reference values at 0x014, the sensor trims at 0x030, U_F of the time base at
0x040 and its CRC at 0x3FC (DESIGN CHOICE, log entry 11). -/

/-- Where the factory uncertainty of a quantity stands (20 R440, R441; DESIGN CHOICE, log entry 11). -/
def ufKey (q : Nat) : Nat :=
  if q < 0x2000 then chanRecOff (q / 16) + 0x180 + 4 * (q % 16)
  else if q < 0x2040 then
    let n := (q - 0x2000) / 4
    dieRecOff (n / 4) + 0x130 + 4 * (3 * (n % 4) + q % 4)
  else if q < 0x2050 then dieRecOff ((q - 0x2040) / 4) + 0x120 + 4 * (q % 4)
  else 0x40

/-- Where the crystal trim stands (20 R440, R448; DESIGN CHOICE, log entry 11). -/
def xtalTrimKey : Nat := 0x10

/-- Where the pair of digitizer n at a span stands (20 R440; DESIGN CHOICE, log entry 11). -/
def digPairOff (n span : Nat) : Nat := dieRecOff (n / 4) + 0x20 + 8 * (3 * (n % 4) + span)

/-- Where the full-scale pair of source n stands (20 R440; DESIGN CHOICE, log entry 11). -/
def fullScaleOff (n : Nat) : Nat := dieRecOff (n / 4) + 8 * (n % 4)

/-- Factory uncertainty U_F, unsigned (20 R439, R441). -/
def uFactory (s : State) (q : Nat) : Nat :=
  if qClass q == 0xFF then 0
  else if s.cal.badRecords.contains q then 0xFFFFFFFF
  else fromSigned 32 (factoryVal s (ufKey q))

/-- User uncertainty U_U: of the overlay entry of the quantity written last (20 R447, R452). -/
def uUser (s : State) (q : Nat) : Option Nat :=
  ((s.cal.overlay.reverse).find? fun o => o.qty == q).map Overlay.unc

/-- The changing part of a ledger entry. -/
def State.ledger (s : State) (q : Nat) : Ledger := Tab.get {} s.cal.ledger q
/-- Update a ledger entry. -/
def State.updLedger (s : State) (q : Nat) (f : Ledger → Ledger) : State :=
  { s with cal.ledger := Tab.set {} s.cal.ledger q (f (s.ledger q)) }

/-- The base U_0 (20 R452). -/
def uBase (s : State) (q : Nat) : Nat :=
  if q == 0x2050 then (if s.cal.refSt == .locked then s.cal.refUnc else uFactory s q)
  else (uUser s q).getD (uFactory s q)

/-- TCLK ticks of one day and of one hour. -/
def dayTicks : Nat := 138240000000000
/-- Ticks of one hour. -/
def hourTicks : Nat := 5760000000000
/-- Drift of a quantity in 2^-8 unit per day; for the time base the mean of the daily residuals (20 R449, R452). -/
def driftOf (s : State) (q : Nat) : Nat :=
  if q == 0x2050 then (if s.cal.residDays = 0 then 0 else 256 * s.cal.residSum / (10 * s.cal.residDays))
  else (s.ledger q).d.natAbs

/-- `now` at which Δt of a quantity started; no sooner than entry to SERVICE (20 R452). -/
def ageStart (s : State) (q : Nat) : Nat :=
  max (s.pwr.service.getD 0) (if q == 0x2050 then s.cal.lockedAt else (s.ledger q).since)

/-- Δt of a quantity in ticks; the time base does not age while LOCKED (20 R452). -/
def ageTicks (s : State) (q : Nat) : Nat :=
  if q == 0x2050 && s.cal.refSt == .locked then 0 else s.now - ageStart s q

/-- √n / d to the nearest whole number, saturating at 32 bits. -/
def rootOver (n d : Nat) : Nat :=
  let r := isqrtGo 110 n 0 / d
  satTo 32 (if 4 * n ≥ ((2 * r + 1) * d) * ((2 * r + 1) * d) then r + 1 else r)

/-- U(Δt) with `extra` ticks added to Δt (20 R452). -/
def uAfter (s : State) (q extra : Nat) : Nat :=
  let d := 256 * dayTicks
  let drift := (s.ledger q).e.natAbs * d + driftOf s q * (ageTicks s q + extra)
  let base := uBase s q * d
  rootOver (base * base + drift * drift) d

/-- The present uncertainty U_NOW (20 R452). -/
def uNow (s : State) (q : Nat) : Nat := uAfter s q 0

/-- The margin plan entry of a class; ACTION NONE without one (20 R456). -/
def planOf (s : State) (cls : Nat) : PlanEntry := (s.cal.plan.find? fun p => p.cls == cls).getD ⟨cls, 0, 0, 0, 0⟩

/-- The predicted uncertainty U_H (20 R452). -/
def uAhead (s : State) (q : Nat) : Nat := uAfter s q ((planOf s (qClass q)).horizon * hourTicks)

/-- OUT_OF_MARGIN as an evaluation finds it (20 R457). -/
def oomNow (s : State) (q : Nat) : Bool :=
  let p := planOf s (qClass q)
  p.action != 0 && uAhead s q > p.tol

/-- The event of a ledger quantity (20 R460); the time base has none. -/
def ledgerEvent (q : Nat) : Option Nat :=
  if q < 0x2000 then some (q / 16)
  else if q < 0x2040 then some (0x0410 + (q - 0x2000) / 4)
  else if q < 0x2050 then some (0x0400 + (q - 0x2040))
  else none

/-- Raise a ledger reason for a quantity (20 R460). -/
def ledgerNotice (s : State) (q reason : Nat) : State :=
  match ledgerEvent q with
  | some ev => notice s ev (q + reason * 65536)
  | none => s

/-- Evaluate one entry: entering and leaving OUT_OF_MARGIN raise reasons 1 and 2 (20 R457). -/
def evalEntry (s : State) (q : Nat) : State :=
  let x := oomNow s q
  if (s.ledger q).oom == x then s
  else ledgerNotice (s.updLedger q fun l => { l with oom := x }) q (if x then 1 else 2)

/-- The quantity numbers in use (20 R451). -/
def quantities : List Nat := (List.range 8273).filter fun q => qClass q != 0xFF

/-- Evaluate every entry (20 R457). Without a plan an entry can only leave OUT_OF_MARGIN. -/
def evalAll (s : State) : State :=
  forEach (if s.cal.plan.isEmpty then (s.cal.ledger.filter fun p => p.2.oom).map Prod.fst else quantities) s
    fun q s => evalEntry s q

/-- A quantity is OUT_OF_MARGIN under EXCLUDE (20 R457). -/
def excludedQ (s : State) (q : Nat) : Bool := (planOf s (qClass q)).action == 2 && (s.ledger q).oom

/-- A channel is excluded from bursts (20 R457). -/
def excludedChan (s : State) (n : Nat) : Bool := (List.range 5).any fun c => excludedQ s (16 * n + c)

/-- A PMU_LIST item of a mode and range on a channel is refused by the margin plan (20 R457). -/
def excludedItem (s : State) (n mode range : Nat) : Bool :=
  if mode == 1 then excludedQ s (16 * n + 5)
  else if mode == 0 then excludedQ s (16 * n + 6 + range)
  else excludedQ s (16 * n + 5)

/-! ### Composition of calibration (20 R442) -/

/-- The user pair (G_U, O_U) of a quantity and SUB, in 10^-8 and its unit (20 R442). -/
def userPair (s : State) (q sub : Nat) : Int × Int :=
  match s.cal.overlay.find? fun o => o.qty == q && o.sub == sub with
  | some o => (o.gain, o.offset)
  | none => (0, 0)

/-- A factory pair at an offset of the CAL block. -/
def factoryPair (s : State) (off : Nat) : Int × Int := (factoryVal s off, factoryVal s (off + 4))

/-- G × x in units of 10^-8 of x. -/
def gain8 (g x : Int) : Int := (10 ^ 8 + g) * x

/-- What the hardware is commanded to for a nominal target x of a quantity that the device sources: G_F × (G_U × x + O_U) + O_F,
in 10^-16 of its unit (20 R442). -/
def sourced (s : State) (off q sub : Nat) (x : Int) : Int :=
  let (gf, offF) := factoryPair s off
  let (gu, offU) := userPair s q sub
  gain8 gf (gain8 gu x + offU * 10 ^ 8) + offF * 10 ^ 16

/-- The final word of a 16-bit DAC, within its codes. -/
def dacWord (v : Int) : Int := max 0 (min 65535 v)

/-- The hardware word of a level: class and SUB of 20 R443 and the place of its pair in the channel record (20 R441, R442; 03
R46). -/
def levelWord (s : State) (n par : Nat) : Int :=
  let place (cls sub i : Nat) : Int := sourced s (chanRecOff n + 0x10 + 8 * i) (16 * n + cls) sub (s.setting 1 n par)
  let v := match par with
    | 2 => place 0 0 0
    | 3 => place 0 1 1
    | 4 => place 0 2 2
    | 5 => place 1 0 4
    | 6 => place 1 1 5
    | _ => place 0 3 3
  dacWord (roundDiv ((v + 1500000 * 10 ^ 16) * 7710) (10 ^ 22))

/-- The hardware word of a load current, IOH or IOL (20 R441, R442; 03 R47). -/
def loadWord (s : State) (n par : Nat) : Int :=
  let i := if par == 8 then 0 else 1
  let v := sourced s (chanRecOff n + 0x40 + 8 * i) (16 * n + 2) i (1000 * s.setting 1 n par)
  dacWord (roundDiv (v * 65535) (24 * 10 ^ 25))

/-- The hardware word of a forced PPMU voltage in µV, or of a forced current in nA in a range (20 R441, R442; 08 R168). -/
def forceWord (s : State) (n mode range : Nat) (x : Int) : Int :=
  if mode == 1 then
    let v := sourced s (chanRecOff n + 0x110 + 16 * range) (16 * n + 6 + range) 0 (1000 * x)
    max (-32768) (min 32767 (roundDiv (v * 32767) (1000 * pmuFs range * 10 ^ 16)))
  else
    let v := sourced s (chanRecOff n + 0x100) (16 * n + 5) 0 x
    dacWord (roundDiv ((v + 1500000 * 10 ^ 16) * 7710) (10 ^ 22))

/-- The hardware word of FULL_SCALE of a source (20 R440, R442; 10 R220). -/
def fullScaleWord (s : State) (n : Nat) : Int :=
  let v := sourced s (fullScaleOff n) (0x2040 + n) 0 (1000 * s.setting 6 n 2)
  max 0 (min 4095 (roundDiv ((v - 2000000000 * 10 ^ 16) * 4095) (18 * 10 ^ 25)))

/-! ### The measured side of a digitizer (20 R442, R447; 09 R187) -/

/-- Effective OFFSET of a digitizer, in 1/65,535 µV (09 R187). -/
def digOffset (s : State) (n : Nat) : Int := roundDiv ((s.setting 7 n 4 + 5000000) * 65535) 12000000 * 12000000 - 5000000 * 65535

/-- What corrects a sample of digitizer n now: its span and OFFSET with the factory pair and the user pair of that span (20 R442,
R443, R451). -/
def digCal (s : State) (n : Nat) : DigCal :=
  let span := s.settingN 7 n 3
  let (gf, offF) := factoryPair s (digPairOff n span)
  let (gu, offU) := userPair s (0x2000 + 4 * n + span) 0
  { uv := if span == 0 then 1000000 else if span == 1 then 4000000 else 10000000, base := digOffset s n, gf, offF, gu, offU }

/-- The code of `w` bits for a raw code v of `w` bits: v stands for the voltage r = OFFSET + v × SPAN / 2^w, the result is G_U ×
(G_F × r + O_F) + O_U, and its code is rounded once, ties to even, and saturates (20 R442; 09 R187, R189; DEDUCED, log entry
86). -/
def DigCal.code (c : DigCal) (w : Nat) (v : Int) : Int :=
  let r := c.base * 2 ^ w + v * c.uv * 65535
  let x := gain8 c.gu (gain8 c.gf r + c.offF * (65535 * 2 ^ w) * 10 ^ 8) + c.offU * (65535 * 2 ^ w) * 10 ^ 16
  max (-(2 ^ (w - 1))) (min (2 ^ (w - 1) - 1) (roundDiv (x - c.base * 2 ^ w * 10 ^ 16) (c.uv * 65535 * 10 ^ 16)))

end Sys2Proof.Machine
end

