-- ==== Sys2Proof/Machine/Pattern.lean ====
section
/-! DEFINITION. Pattern descriptors: SEG_LOAD, BURST, BURST_CTL and SITE_MAP (05 R92 to R100; 06 R114, R125 to R131;
14 R330 to R333). -/

namespace Sys2Proof.Machine

open Sys2Proof

/-! ### SEG_LOAD (05 R95 to R97; 06 R114) -/

/-- One word of the structural scan: the entry so far, the open bodies (offset, match) innermost first, and the first
vector at fault. -/
def scanWord (st : Segment × List (Nat × Bool) × Option Nat) (p : BitVec 288 × Nat) :
    Segment × List (Nat × Bool) × Option Nat :=
  let (g, open', bad) := st
  let (w, k) := p
  let opc := vOpc w
  let o := vOperand w
  let inMatch := open'.any Prod.snd
  let fails := !wordOk w || ((opc == 2 || opc == 7) && open'.length ≥ 4) || (opc == 7 && inMatch) ||
    (opc == 3 && open'.head? != some (o, false)) || (opc == 8 && open'.head? != some (o, true)) ||
    ((opc == 5 || opc == 6 || opc == 0x0C) && !open'.isEmpty) || ((opc == 4 || opc == 9) && inMatch)
  let next := if opc == 2 || opc == 7 then (k, opc == 7) :: open'
    else if opc == 3 || opc == 8 then open'.drop 1 else open'
  ({ g with jumps := if opc == 6 then (g.jumps ++ [o]).eraseDups else g.jumps,
            calls := if opc == 4 then (g.calls ++ [o]).eraseDups else g.calls,
            refused := g.refused || refusedStreamed opc, stallSafe := g.stallSafe || opc == 0x0B,
            depth := max g.depth next.length,
            callDepths := if opc == 4 then (g.callDepths ++ [(o, open'.length)]).eraseDups else g.callDepths },
   next, if bad.isSome then bad else if fails then some k else none)

/-- An opener at offset k that no closer of its kind names (06 R114). -/
def unclosed (ws : List (BitVec 288 × Nat)) (p : BitVec 288 × Nat) : Bool :=
  let opc := vOpc p.1
  (opc == 2 || opc == 7) && !ws.any fun q => q.2 > p.2 && vOpc q.1 == opc + 1 && vOperand q.1 == p.2

/-- The directory entry that a segment's words give, and the lowest vector at fault under test 7 (05 R96; 06 R114). -/
def scanSegment (kind base : Nat) (ws : List (BitVec 288)) : Segment × Option Nat :=
  let ps := ws.zipIdx
  let (g, _, bad) := ps.foldl scanWord (⟨kind, base, ws.length, [], [], false, false, 0, []⟩, [], none)
  (g, match bad, (ps.find? (unclosed ps)).map Prod.snd with
    | some a, some b => some (min a b)
    | some a, none => some a
    | none, b => b)

/-- Vectors of a segment store (05 R93). -/
def storeSize : Nat := 233016

/-- The operands of SEG_LOAD are in range: tests 1 and 2 (05 R95, R96). -/
def segLoadOk (sl : Slot) : Bool :=
  let kind := sl.op 10 1
  let count := sl.op 12 4
  let src := sl.op 16 8
  let base := sl.op 24 4
  sl.op 8 2 ≤ 1023 && kind ≤ 2 && sl.op 11 1 ≤ 1 && sl.zero 28 64 && popcount 8 sl.secMask == 1 && src % 4 == 0 &&
  match kind with
  | 0 => count ≤ storeSize && base < storeSize
  | 1 => base == 0 && sl.op 11 1 == 1 && src % 64 == 0
  | _ => count == 0 && base == 0 && src == 0 && sl.op 11 1 == 0

/-- Another resident segment of the sector overlaps a store range (05 R93, R96 test 5). -/
def storeOverlaps (s : State) (n seg base count : Nat) : Bool :=
  (s.sec n).dir.any fun p => match p.2 with
    | some g => p.1 != seg && g.kind == 1 && overlap g.base g.len base count
    | none => false

/-- Put words in a segment store. -/
def storeWords (t : Tab (BitVec 288)) (base : Nat) (ws : List (BitVec 288)) : Tab (BitVec 288) :=
  ws.zipIdx.foldl (fun t p => Tab.set 0 t (base + p.2) p.1) t

/-- A SEG_LOAD reads its next vectors, `k` of them or as many as are left: a resident load copies them into the store as it
reads. After the last one the whole segment is tested (test 7), and the directory entry written (05 R96). -/
def loadVectors (s : State) (id : Nat) (sl : Slot) (data : List Byte) (k : Nat) : State :=
  let n := lowestBit 8 sl.secMask
  let kind := sl.op 10 1
  let ddr := sl.op 11 1 == 1
  let count := sl.op 12 4
  let base := sl.op 24 4
  let from' := sl.progress
  let upTo := itemsTo sl k count
  let src := sl.op 16 8 + 36 * from'
  let size := 36 * (upTo - from')
  if dmaWaits s ddr then s
  else match (if ddr then badBeats s src size else []) with
  | b :: _ =>
    let m := from' + (4 * b - src) / 36
    let (s, _) := scanRead (correctRead s src (36 * (m - from'))) (4 * b / 64 * 64) 64
    done (leaveItems s id sl m) id Status.testerFault m
  | [] =>
    let bytes := if ddr then ddrRead s src size else hostBytes (data.drop (36 * from')) size
    let s := if ddr then correctRead s src size else s
    let ws := (chunks 36 (upTo - from') bytes).map vWord
    let s := if kind == 0 then s.updSec n fun x => { x with store := storeWords x.store (base + from') ws } else s
    let held := sl.held ++ bytes
    goOn (s.updSlot id fun x => { x with held := held }) id upTo count fun s =>
      let (g, bad) := scanSegment (kind + 1) (if kind == 1 then sl.op 16 8 else base) ((chunks 36 count held).map vWord)
      match bad with
      | some j => done (leaveItems s id sl count) id Status.field j
      | none => done (s.updSec n fun x => { x with dir := Tab.set none x.dir (sl.op 8 2) (some g) }) id Status.ok count

/-- SEG_LOAD: FREE at once; of a load the next `vectors` vectors, the tests 1 to 6 before the first of them (05 R95, R96; 14
R314). A load that is refused at test 7 or meets an uncorrectable beat leaves undefined words in the store range (log entry
10). -/
def execSegLoad (id : Nat) (data : List Byte) (vectors : Nat) (s : State) : Host.Outcome State Fault Refusal :=
  .next <| withDesc s id (fun sl => sl.opc == 0x10 && !dmaHeld s id sl) fun sl =>
    let n := lowestBit 8 sl.secMask
    let seg := sl.op 8 2
    let kind := sl.op 10 1
    let ddr := sl.op 11 1 == 1
    let count := sl.op 12 4
    let src := sl.op 16 8
    let base := sl.op 24 4
    let region := regionHolding s (if kind == 1 then [1] else [1, 6]) src (36 * count)
    if sl.progress > 0 then loadVectors s id sl data vectors
    else
      guarded s id
        [(!segLoadOk sl, Status.field, 0),
         (kind != 2 && (count == 0 || (kind == 0 && base + count > storeSize) || (ddr && region.isNone)), Status.length, 0),
         (!sl.covers0 (2 ^ n), Status.claim, 0),
         (segActive s n seg, Status.segmentActive, 0),
         (kind == 0 && storeOverlaps s n seg base count, Status.consistency, 0),
         (ddr && !s.memUp, Status.testerFault, 0)]
        (if kind == 2 then done (s.updSec n fun x => { x with dir := Tab.set none x.dir seg none }) id Status.ok 0
         else loadVectors s id sl data vectors)

/-! ### BURST (05 R100; 06 R114, R131; 14 R330, R331) -/

/-- A chain that reaches a segment with calls and bodies open: the entries it leads to (06 R114). -/
def chainNext (s : State) (n : Nat) (p : Nat × Nat × Nat) : List (Nat × Nat × Nat) :=
  match segOf s n p.1 with
  | some g => g.jumps.map (fun j => (j, p.2.1, p.2.2)) ++ g.callDepths.map fun c => (c.1, p.2.1 + 1, p.2.2 + c.2)
  | none => []

/-- A chain has more than 8 calls, or more than 4 bodies, open at once (06 R114). -/
def chainOver (s : State) (n : Nat) (p : Nat × Nat × Nat) : Bool :=
  p.2.1 > 8 || match segOf s n p.1 with
    | some g => p.2.2 + g.depth > 4
    | none => false

/-- Follow the chains by rounds; calls without limit pass 8 after a while (06 R114). -/
def chainGo (s : State) (n : Nat) : Nat → List (Nat × Nat × Nat) → List (Nat × Nat × Nat) → Bool
  | 0, _, _ => false
  | k + 1, seen, edge =>
    if edge.any (chainOver s n) then true
    else
      let fresh := ((edge.flatMap (chainNext s n)).filter fun p => !seen.contains p).eraseDups
      if fresh.isEmpty then false else chainGo s n k (seen ++ fresh) fresh

/-- A chain of the closure from these segments breaks 06 R114. -/
def chainsFail (s : State) (n : Nat) (start : List Nat) : Bool :=
  let edge := start.eraseDups.map fun g => (g, 0, 0)
  chainGo s n 46080 edge edge

/-- FOLLOW of a BURST. -/
def burstFollow (sl : Slot) : Option Nat := if sl.op 10 2 == 0xFFFF then none else some (sl.op 10 2)

/-- The closure of a BURST in a started sector (05 R100). -/
def burstClosure (s : State) (sl : Slot) (n : Nat) : List Nat := closure s n (sl.op 8 2 :: (burstFollow sl).toList)

/-- Started sectors with a streamed segment in their closure (05 R100 test 9). -/
def streamSectors (s : State) (sl : Slot) : List Nat :=
  (maskList 8 sl.secMask).filter fun n => (burstClosure s sl n).any (segStreamed s n)

/-- The lead of a burst: 4 µs when its first segment is streamed, otherwise 1 µs (02 R39). -/
def burstLead (s : State) (sl : Slot) : Nat :=
  if (maskList 8 sl.secMask).any fun n => segStreamed s n (sl.op 8 2) then 4000 else 1000

/-- Test 1 of 05 R100, without the closure. -/
def burstOperandsOk (sl : Slot) : Bool :=
  let base := sl.op 32 8
  let size := sl.op 40 8
  sl.op 8 2 ≤ 1023 && (burstFollow sl).all (· ≤ 1023) && sl.op 12 1 ≤ 1 && sl.op 13 1 ≤ 1 && sl.zero 14 16 &&
    sl.op 16 4 ≤ 400000000 && sl.zero 20 24 && (sl.op 13 1 == 1 || sl.zero 24 32) && base % 4096 == 0 &&
    size % 4096 == 0 && (base == 0) == (size == 0) && sl.op 48 8 % 32 == 0 && sl.zero 56 64 && sl.secMask != 0

/-- A burst with period 0 at p and started sectors `mask` will make a channel ACTIVE at or before an apply's position, by
MODE in the image at period 0 without that apply (03 R65). -/
def makesActive (s : State) (mask : Nat) (p : Pos) (a : Action) (ch : Nat) : Bool :=
  orderKey s.sweep.pos p ≤ orderKey s.sweep.pos a.pos && bitOf mask (ch / 64) && !excludedChan s ch &&
    let others := { s with stg.sched := s.stg.sched.filter (· != a) }
    imgGet (imageFor others (some p) none) (targetOf 1 ch 1) == 1

/-- The channels that MODE records of a set name (03 R65). -/
def modeChans (s : State) (k : Nat) : List Nat :=
  (s.set k).recs.filterMap fun r => if tCls r.target == 1 && tPar r.target == 1 then some (tIdx r.target) else none

/-- The burst meets an apply that has passed its recovery check (03 R65). -/
def burstMeetsApply (s : State) (mask : Nat) (p : Pos) : Bool :=
  s.stg.sched.any fun a => match a.kind with
    | .apply k => a.checked && (modeChans s k).any (makesActive s mask p a)
    | _ => false

/-- An ACTIVE site has channels both in started and in other sectors (06 R131). -/
def siteSplit (s : State) (mask : Nat) : Bool :=
  (List.range 256).any fun i =>
    let m := siteSectors s i
    s.setting 5 i 1 == 1 && (m &&& mask) != 0 && (m &&& mask) != m

/-- Bytes per second of streamed words towards each die (05 R100 test 9). -/
def burstDieRate (sl : Slot) (secs : List Nat) : List Nat :=
  (List.range 4).map fun d => 36 * sl.op 16 4 * (secs.filter fun n => n / 2 == d).length

/-- The tests of BURST in order (05 R100; 06 R114, R131; 14 R331). -/
def burstTests (s : State) (sl : Slot) (p : Pos) : List (Bool × Nat × Nat) :=
  let secs := maskList 8 sl.secMask
  let streams := streamSectors s sl
  let rate := sl.op 16 4
  let base := sl.op 32 8
  let size := sl.op 40 8
  let rates := burstDieRate sl streams
  [(!burstOperandsOk sl || (rate == 0) != streams.isEmpty, Status.field, 0),
   (base != 0 && secs.zipIdx.any fun q => (regionHolding s [3] (base + q.2 * size) size).isNone, Status.length, 0),
   (!sl.covers0 sl.secMask, Status.claim, 0),
   (secs.any fun n => closureFails s n (burstClosure s sl n) (burstFollow sl) (sl.op 12 1 == 1), Status.consistency, 0),
   (secs.any fun n => inRecovery s (domSec n), Status.recovery, 0),
   (throttled s, Status.throttled, 0),
   ((!streams.isEmpty || base != 0) && !s.memUp, Status.testerFault, 0),
   (!fitsPattern s rates.sum || rates.zipIdx.any fun q => !fitsDown s q.2 q.1, Status.budget, 0),
   (sl.op 13 1 == 1 && isLate s p (burstLead s sl) && !sl.runLate, Status.late, 0),
   (burstMeetsApply s sl.secMask p, Status.consistency, 0),
   (secs.any fun n => chainsFail s n (sl.op 8 2 :: (burstFollow sl).toList), Status.consistency, 0),
   (siteSplit s sl.secMask, Status.consistency, 0)]

/-- Arm the sectors of a BURST (06 R109): sector of rank k captures from its own area (14 R330), and the refill fills from a
streamed first segment, or later from FOLLOW (05 R99). -/
def armBurst (s : State) (id : Nat) (sl : Slot) (p : Pos) : State :=
  let secs := maskList 8 sl.secMask
  let streams := streamSectors s sl
  let rates := burstDieRate sl streams
  let start := sl.op 8 2
  let follow := burstFollow sl
  let late := sl.op 13 1 == 1 && isLate s p (burstLead s sl)
  let b : Burst :=
    { slot := id, mask := sl.secMask, follow := follow, pad := sl.op 12 1 == 1, rate := sl.op 16 4,
      closure := secs.flatMap fun n => (burstClosure s sl n).map fun g => (n, g),
      captureBase := sl.op 32 8, captureSize := sl.op 40 8, resultAddr := sl.op 48 8, startPos := p,
      budget := rates.sum, dieRate := rates }
  let s := { s with mem.pattern := s.mem.pattern + rates.sum, bursts := Tab.set none s.bursts id (some b) }
  let s := forEach rates.zipIdx s fun q s => takeDown s q.2 q.1
  let s := forEach secs.zipIdx s fun q s =>
    let n := q.1
    let fill := if segStreamed s n start then some (start, 0) else follow.map fun f => (f, 0)
    s.updSec n fun x =>
      { clearRun x with
        st := .armed, own := some id, seg := start, off := 0, vecNum := 0, followed := follow == some start,
        bufAt := fill, refillMin := 0, capFill := 0, capBase := b.captureBase + q.2 * b.captureSize,
        capSize := b.captureSize, capLost := 0, capLostFirst := none }
  let at' := if late then some (s.now + (burstLead s sl * 8 + 4) / 5) else none
  park (schedule s { kind := .burst id, slot := some id, pos := p, late := late, startAt := at', runLate := sl.runLate }) id
    .ending

/-- BURST (05 R100; 06 R109; 14 R330, R331; 02 R39, R42). While a named sector is not IDLE it waits, before any test. -/
def execBurst (id : Nat) (s : State) : Host.Outcome State Fault Refusal :=
  .next <| withDesc s id (fun sl => sl.opc == 0x11) fun sl =>
    if (maskList 8 sl.secMask).any fun n => (s.sec n).st != .idle then park s id .sectors
    else
      let p := requestPos s sl 13 24 (burstLead s sl)
      guardedSched s id true (burstTests s sl p) (armBurst s id sl p)

/-! ### BURST_CTL (06 R125 to R128; 14 R332) -/

/-- The operands of BURST_CTL that both actions hold to 0, and its one sector (14 R332). -/
def burstCtlOk (sl : Slot) : Bool := sl.zero 9 10 && sl.zero 12 64 && popcount 8 sl.secMask == 1

/-- BURST_CTL STOP (06 R128; 14 R332). An ACTION that names no action is refused here. -/
def execBurstCtlStop (id : Nat) (s : State) : Host.Outcome State Fault Refusal :=
  .next <| withDesc s id (fun sl => sl.opc == 0x12 && sl.op 8 1 != 1) fun sl =>
    let n := lowestBit 8 sl.secMask
    let st := (s.sec n).st
    guarded s id
      [(!burstCtlOk sl || sl.op 8 1 != 0 || sl.op 10 2 != 0, Status.field, 0),
       (!sl.covers0 sl.secMask, Status.claim, 0),
       (st == .idle || st == .held, Status.consistency, 0)]
      (let s := park s id .ending
       let s := match (s.sec n).own with
         | some k => s.updBurst k fun b => { b with stops := b.stops ++ [id] }
         | none => s
       requestStop s n)

/-- BURST_CTL JUMP (06 R125 to R127; 14 R332). -/
def execBurstCtlJump (id : Nat) (s : State) : Host.Outcome State Fault Refusal :=
  .next <| withDesc s id (fun sl => sl.opc == 0x12 && sl.op 8 1 == 1) fun sl =>
    let n := lowestBit 8 sl.secMask
    let seg := sl.op 10 2
    guarded s id
      [(!burstCtlOk sl || seg > 1023, Status.field, 0),
       (!sl.covers0 sl.secMask, Status.claim, 0),
       (!takesJump s n || !jumpOk s n seg, Status.consistency, 0)]
      (requestJump (park s id .ending) n seg (descKey s id) (some id))

/-! ### SITE_MAP (06 R129; 14 R333) -/

/-- SITE_MAP: the tests and the read of its entries, then the next `channels` channels; the written ones take their sites at its
completion, unless a sector of one that moves has come to run (06 R129; 14 R333). -/
def execSiteMap (id : Nat) (data : List Byte) (channels : Nat) (s : State) : Host.Outcome State Fault Refusal :=
  .next <| withDesc s id (fun sl => sl.opc == 0x13) fun sl =>
    let first := sl.op 8 2
    let count := sl.op 10 2
    let read := hostBytes data (2 * count)
    let entries := (chunks 2 count read).map leNat
    let badEntry := entries.findIdx? fun e => e > 255 && e != 0xFFFF
    let secs := ((List.range count).map fun i => (first + i) / 64).eraseDups
    let moves (s : State) (es : List Nat) : Bool := es.zipIdx.any fun p =>
      (s.chan (first + p.2)).site != siteEntry p.1 && (s.sec ((first + p.2) / 64)).st != .idle
    let go (s : State) (sl : Slot) : State :=
      let upTo := itemsTo sl channels count
      goOn s id upTo count fun s =>
        if moves s ((chunks 2 count sl.held).map leNat) then refuse s id Status.consistency 0 else done (mapSites s sl count) id Status.ok count
    if sl.progress > 0 then go s sl
    else guarded s id
      [(first > 511 || count == 0 || count > 512 || !sl.zero 12 16 || sl.op 16 8 % 8 != 0 || !sl.zero 24 64,
          Status.field, 0),
       (badEntry.isSome, Status.field, badEntry.getD 0),
       (first + count > 512, Status.length, 0),
       (secs.any fun n => !sl.covers0 (2 ^ n), Status.claim, 0),
       (moves s entries, Status.consistency, 0)]
      (go (s.updSlot id fun x => { x with held := read }) { sl with held := read })

end Sys2Proof.Machine
end

