-- ==== Sys2Proof/Machine/Seq.lean ====
section
/-! DEFINITION. The sector sequencers while a burst runs: start, issue, control opcodes, waits, refill, period starts,
results, fail capture and the end of a burst (04 R76 to R87; 05 R97 to R107; 06 R109 to R137). -/

namespace Sys2Proof.Machine

open Sys2Proof

/-! ### Places in a program (05 R99, R101; 06 R110 to R116) -/

/-- FOLLOW of the burst of a sector. -/
def followOf (s : State) (n : Nat) : Option Nat := (burstOf s n).bind Burst.follow

/-- PERIOD of a timing set of sector n in edge steps (04 R75). -/
def periodSteps (s : State) (n tset : Nat) : Int := stepsOf (s.setting 4 (64 * n + tset) 1)

/-- The stamp time of an edge step. -/
def stampOfStep (s : State) (step : Int) : Nat := ((stampNow s : Int) + (step - (s.now : Int) * 256) * 256).toNat

/-- Where the refill goes on after a streamed word: at a JMP to a streamed segment its vector 0; past the last vector FOLLOW,
where R113 will enter it, that is where it has not been `seen` on the way; otherwise nowhere (05 R99). -/
def streamNext (s : State) (n : Nat) (seen : Bool) (seg off : Nat) (w : BitVec 288) : Option (Nat × Nat) :=
  let opc := vOpc w
  if opc == 0x0C || opc == 5 || opc == 4 then none
  else if opc == 6 then (if segStreamed s n (vOperand w) then some (vOperand w, 0) else none)
  else if off + 1 < ((segOf s n seg).map Segment.len).getD 0 then some (seg, off + 1)
  else match followOf s n with
    | some f => if (s.sec n).calls.isEmpty && !seen && seg != f then some (f, 0) else none
    | none => none

/-- The place of the next word to fetch: past the words held; FOLLOW counts as entered where they lead through it (05 R99). -/
def fetchPlace (s : State) (n : Nat) : Option (Nat × Nat) :=
  let x := s.sec n
  let step (p : Option (Nat × Nat) × Bool) (w : BitVec 288) : Option (Nat × Nat) × Bool :=
    let next := p.1.bind fun q => streamNext s n p.2 q.1 q.2 w
    (next, p.2 || next.any fun q => followOf s n == some q.1)
  (x.buf.foldl step (x.bufAt, x.followed || x.bufAt.any fun q => followOf s n == some q.1)).1

/-- The refill turns to a place: the buffer is discarded unless its head stands there (05 R99, R107). -/
def aimRefill (x : Sector) (p : Option (Nat × Nat)) : Sector :=
  if x.bufAt == p then x else { x with buf := [], bufAt := p, bufBad := false, refillMin := 0 }

/-- Enter vector 0 of a segment: the keep-alive register clears; a streamed segment whose vector 0 is not at the head starts
a cold fill; in a resident one the refill turns to FOLLOW (05 R99, R101). Entering FOLLOW by any path counts as its entry
(log entry 12). -/
def enterSeg (s : State) (n g : Nat) : State :=
  let f := followOf s n
  let aim := if segStreamed s n g then some (g, 0) else f.map fun f => (f, 0)
  s.updSec n fun x =>
    aimRefill { x with keepAlive := none, seg := g, off := 0, goTo := none, followed := x.followed || f == some g } aim

/-- Go on past the last vector of a segment (06 R113): return; at call depth 0, which is a boundary (R126), FOLLOW or the end
of the burst. A return past the end of its segment acts in the same way. A CALL that a streamed segment has come to hold in DDR5
returns with the refill aimed at vector 0, so its next vector underruns (DESIGN CHOICE, log entry 76). -/
def segmentEnd (s : State) (n : Nat) : Nat → State
  | 0 => s
  | k + 1 =>
    let x := s.sec n
    match x.calls with
    | fr :: rest =>
      let s := (enterSeg s n fr.seg).updSec n fun x =>
        { x with calls := rest, off := fr.off, loops := x.loops.drop (x.loops.length - fr.loopDepth) }
      if fr.off < ((segOf s n fr.seg).map Segment.len).getD 0 then s else segmentEnd s n k
    | [] =>
      let follow := if x.followed then none else followOf s n
      s.updSec n fun x => { x with boundary := true, goTo := follow, ending := follow.isNone }

/-- Whether an offset is the last of the segment that the sector runs. -/
def lastVector (s : State) (n off : Nat) : Bool := off + 1 ≥ ((segOf s n (s.sec n).seg).map Segment.len).getD 0

/-- The next vector of the segment after the one at `off` (06 R110, R113). -/
def advance (s : State) (n off : Nat) : State :=
  if lastVector s n off then segmentEnd s n 9 else s.updSec n fun x => { x with off := off + 1 }

/-- The states in which a sequencer issues: RUNNING and PADDING, and 96 ns ahead of a start or a wait position ARMED and
WAITING (05 R102; 06 R121). -/
def SeqSt.issues : SeqSt → Bool
  | .armed => true
  | .running => true
  | .padding => true
  | .waiting => true
  | _ => false

/-- Carry out a control opcode on the vector last issued by sector n (06 R110, R111). -/
def seqRow (s : State) (n opc : Nat) (f : Issued → State → State) : State :=
  let x := s.sec n
  match x.issued with
  | some i =>
    if x.st.issues && vOpc i.word == opc then f i (s.updSec n fun x => { x with issued := none })
    else s
  | none => s

/-! ### Sites and match loops (06 R117 to R119, R132) -/

/-- Channels of sector n that belong to a site. -/
def siteChans (s : State) (n i : Nat) : List Nat :=
  (List.range 64).filterMap fun c => if (s.chan (64 * n + c)).site == some i then some (64 * n + c) else none

/-- A pin code is one of the compare codes CL, CH, CM and CV (05 R90). -/
def isCompare (code : Nat) : Bool := 4 ≤ code && code ≤ 7

/-- Compares of a site in iteration k of a match loop have not all reached the sequencer (06 R118). -/
def siteOwes (s : State) (n : Nat) (loop : Nat × Nat) (i : Nat) : Bool :=
  let x := s.sec n
  let chans := siteChans s n i
  (x.ahead.any fun v => v.matchIter == some loop && chans.any fun c => isCompare (pinCode v.word (c % 64))) ||
  x.periods.any fun p => p.matchIter == some loop && chans.any fun c =>
    (s.chan c).compares.any (fun k => k.period == p.num && isCompare k.code) ||
      x.results.any fun r => r.period == p.num && r.ch == c && r.capture.isNone

/-- The first iteration in which a site has matched on the results that are in. -/
def siteMatch (s : State) (n : Nat) (m : MatchRun) (i : Nat) : Option Nat :=
  ((List.range m.full).map (· + 1)).find? fun k => !m.miss.contains (i, k) && !siteOwes s n (m.mid, k) i

/-- Mask a site MATCH_TIMEOUT from vector v on; what was counted for those vectors goes (06 R119). -/
def timeoutSite (s : State) (i v : Nat) : State :=
  s.updSite i fun x =>
    let kept := x.failed.filter (· < v)
    { x with verdict := 3, masked := true, maskVector := some (min v (x.maskVector.getD v)), failed := kept,
             failCount := x.failCount - (x.failed.length - kept.length),
             firstFail := x.firstFail.filter (· < v),
             firstChannel := if x.firstFail.any (· < v) then x.firstChannel else none }

/-- Results of a match loop are outstanding. -/
def matchOwes (s : State) (n mid : Nat) : Bool :=
  let of (m : Option (Nat × Nat)) : Bool := m.any fun q => q.1 == mid
  (s.sec n).ahead.any (fun v => of v.matchIter) || (s.sec n).periods.any fun p => of p.matchIter

/-- Take the results of one match loop: sites that have matched leave with their MATCH_EXIT, masked sites leave, and the
sites left when every result of an ended loop is in time out (06 R118, R119). -/
def settleMatch (s : State) (n : Nat) (m : MatchRun) : State :=
  let id := (s.sec n).own.getD 0
  let parts := m.waits.filter fun i => siteActive s i id
  let hits := parts.filterMap fun i => (siteMatch s n m i).map fun k => (i, k)
  let s := forEach hits s fun h s => s.updSite h.1 fun x => { x with matchExit := h.2 }
  let waits := parts.filter fun i => !hits.any fun h => h.1 == i
  let put (s : State) (ms : List MatchRun) : State :=
    s.updSec n fun x => { x with matches' := x.matches'.flatMap fun y => if y.mid == m.mid then ms else [y] }
  match m.exit with
  | some v =>
    if matchOwes s n m.mid then put s [{ m with waits := waits }]
    else forEach waits (put s []) fun i s => timeoutSite s i v
  | none => put s [{ m with waits := waits }]

/-- Settle every match loop of a sector. -/
def settleMatches (s : State) (n : Nat) : State := forEach (s.sec n).matches' s fun m s => settleMatch s n m

/-! ### Placed periods (04 R86) -/

/-- A timing-set edge of a channel in edge steps. -/
def edgeOf (s : State) (ch tset par : Nat) : Int := stepsOf (s.setting 4 (64 * (ch / 64) + tset) (0x400 + 16 * (ch % 64) + par))

/-- The edge blanking of a period of a channel that starts at `start` (03 R57; 04 R85). -/
def blankOf (s : State) (ch tset : Nat) (start : Int) : Option (Int × Int) :=
  let at' (p : Nat) : Int := start + edgeOf s ch tset p + compareDeskew s ch
  if edgeOf s ch tset 7 < edgeOf s ch tset 8 then some (at' 7, at' 8) else none

/-- Move what a placed period of a channel has at the edge logic by k steps. -/
def movePlaced (s : State) (i : Issued) (k : Int) (ch : Nat) : State :=
  let v := { s with stg.image := i.image }
  let old := blankOf v ch (vTset i.word) i.start
  let new := blankOf v ch (vTset i.word) (i.start + k)
  s.updChan ch fun c =>
    { c with
      edges := c.edges.map fun e =>
        if e.period == i.start.toNat then { e with period := (i.start + k).toNat, at' := e.at' + k } else e,
      compares := c.compares.map fun q =>
        if i.num == some q.period && !q.opened then { q with c0 := q.c0 + k, c1 := q.c1 + k } else q,
      blanksDue := c.blanksDue.map fun p => if old == some p then new.getD p else p }

/-- Move the starts from `start` on of the issued vectors of sector n, and of the next one, by k steps. -/
def moveFrom (s : State) (n : Nat) (start k : Int) : State :=
  if k = 0 then s
  else
    let s := forEach ((s.sec n).ahead.filter fun i => i.placed && start ≤ i.start) s fun i s =>
      forEach (List.range 64) s fun c s => movePlaced s i k (64 * n + c)
    s.updSec n fun x =>
      { x with ahead := x.ahead.map (fun j => if start ≤ j.start then { j with start := j.start + k } else j),
               nextStart := x.nextStart + k }

/-- Move all that follows the period that starts in sector n by k steps: its PERIOD has come to be another one (04 R76, R80). -/
def moveAhead (s : State) (n : Nat) (k : Int) : State :=
  let x := s.sec n
  (moveFrom s n ((x.ahead.head?.map Issued.start).getD x.nextStart) k).updSec n fun x =>
    { x with base := x.base.map (· + k), waitEnd := x.waitEnd.map fun p => (p.1 + k, p.2) }

/-! ### Start of a burst (06 R109; 03 R64; 02 R39) -/

/-- Take the IDLE channels of a started sector into the burst; a site of an ISOLATED or excluded one is TESTER_FAULT
(03 R64; 20 R457). What was placed for a channel that is not IDLE after all goes. -/
def startChannels (s : State) (id n : Nat) : State :=
  let s := forEach (List.range 64) s fun c s =>
    let ch := 64 * n + c
    let x := s.chan ch
    if x.st == .isolated || (x.st == .idle && excludedChan s ch) then
      (match x.site with
        | some i => faultSite s i id 0
        | none => s)
    else if x.st == .idle then s.updChan ch fun c => { c with st := .active }
    else s.updChan ch fun c => { c with edges := [], compares := [], blanksDue := [] }
  refreshDie s (n / 2)

/-- The first slot of a run starts at a step: vectors issued ahead by the predicted start move with it, and the sequencer
runs, or pads where it has come to lack a word (05 R102, R105; 06 R109, R121). -/
def runFrom (s : State) (n : Nat) (step : Int) : State :=
  let s := match (s.sec n).base with
    | some p => moveFrom s n p (step - p)
    | none => s.updSec n fun x => { x with nextStart := step }
  s.updSec n fun x => { x with base := none, st := if x.missing then .padding else .running }

/-- An ending met by a slot ahead of the start acts at the start (05 R104; 06 R109, R123). -/
def actPendEnd (s : State) (id : Nat) : State :=
  match (s.burst id).bind Burst.pendEnd with
  | some (e, ns) =>
    let s := forEach ns s fun n s => faultSectorSites s n
    (drainLock s id e).updBurst id fun b => { b with pendEnd := none }
  | none => s

/-- Period 0 of a burst begins at a step (06 R109, R130, R132, R133; 03 R64; 02 R39). -/
def beginBurst (s : State) (b : Burst) (step : Int) (late : Bool) : State :=
  let sites := (List.range 256).filter fun i => s.setting 5 i 1 == 1 && (siteSectors s i &&& b.mask) != 0
  let s := unschedule s (.burst b.slot)
  let s := forEach sites s fun i s => (keepSite s i).updSite i fun _ => { burst := some b.slot, verdict := 1 }
  let s := forEach (members s b) s fun n s =>
    startChannels ((runFrom s n step).updSec n fun x =>
      { x with periodEnd := step, pos0 := posAtStep s step, refillMin := x.buf.length }) b.slot n
  let s := s.updBurst b.slot fun b =>
    { b with begun := true, startPos := posAtStep s step, late := late,
             sites := sites.map fun i => (i, s.settingN 5 i 2, s.settingN 5 i 3) }
  actPendEnd s b.slot

/-- BURST_START: period 0 begins (06 R109; 02 R39, R41). -/
def execBurstStart (sector : Fin 8) (s : State) : Host.Outcome State Fault Refusal :=
  .next <| match burstOf s sector with
    | some b => match findAct s (.burst b.slot) with
      | some a => if (s.sec sector).st != .armed || !mayAct s a then s else beginBurst s b (actStep s a) a.late
      | none => s
    | none => s

/-! ### The issue point (05 R102 to R107; 06 R110, R113, R123, R126, R128) -/

/-- Sectors of a lock that still issue. -/
def issuing (s : State) (b : Burst) : List Nat := (members s b).filter fun n => (s.sec n).st.issues

/-- A lock waits for its start or its wait position, or will once the period of its WAIT_SWEEP has ended. -/
def beforeRun (s : State) (b : Burst) : Bool :=
  (members s b).any fun n => (s.sec n).st == .armed || (s.sec n).st == .waiting || (s.sec n).waitEnd.isSome

/-- The sectors that the next slot issues from: those whose program has not ended, if there are any. -/
def issuers (s : State) (b : Burst) : List Nat :=
  let run := issuing s b
  let go := run.filter fun n => !(s.sec n).ending
  if go.isEmpty then run else go

/-- The step at which the sweep reaches a position by the present rate; none while it holds (05 R102; 06 R121; 02 R39). -/
def predStep (s : State) (p : Pos) : Option Int :=
  if !isFuture s.sweep.pos p then some (startStep s p)
  else if s.sweep.rate = 0 || s.sweep.st == .noSync || s.sweep.st == .lost || s.sweep.st == .held then none
  else some (s.now * 256 + roundDiv (ahead s.sweep.pos p * 65536) s.sweep.rate)

/-- The predicted start of period 0 of an armed burst: its position, and for one admitted late its lead as well (02 R39). -/
def predStart (s : State) (b : Burst) : Option Int :=
  (findAct s (.burst b.slot)).bind fun a => (predStep s a.pos).map fun t => match a.startAt with
    | some u => max t (u * 256)
    | none => t

/-- The predicted start of the first slot of a run of sector n: that of period 0, or the wait position, but not before the
period of the WAIT_SWEEP has ended (06 R121). -/
def predRun (s : State) (b : Burst) (n : Nat) : Option Int :=
  let x := s.sec n
  if x.st == .armed then predStart s b
  else (b.waitPos.bind (predStep s)).map fun t => match x.waitEnd with
    | some (e, _, _) => max e t
    | none => t

/-- The start of the slot that sector n issues next: the one summed so far, or before any the predicted one (04 R76; 05 R102;
06 R121). -/
def issueStart (s : State) (b : Burst) (n : Nat) : Option Int :=
  let x := s.sec n
  if x.base.isSome || !beforeRun s b then some x.nextStart else predRun s b n

/-- Bring what stands at the edge logic of an armed or waiting lock in line with the start as the sweep now predicts it; none
while the sweep holds short of it (04 R86). -/
def repredict (s : State) (n : Nat) : Option State :=
  match burstOf s n with
  | some b =>
    let x := s.sec n
    match (if beforeRun s b then x.base else none) with
    | some p =>
      (predRun s b n).map fun q => if q == p then s
        else forEach (issuing s b) s fun m s => match (s.sec m).base with
          | some r => (moveFrom s m r (q - r)).updSec m fun x => { x with base := some q }
          | none => s
    | none => some s
  | none => some s

/-- The first slot of a run is issued for a predicted start. -/
def setBase (s : State) (b : Burst) (t : Int) : State :=
  if !beforeRun s b then s
  else forEach (issuing s b) s fun n s => s.updSec n fun x =>
    if x.base.isSome then x else { x with base := some t, nextStart := t }

/-- The word that the next slot of a sector issues, if it is at hand (05 R102). A JMP or CALL word that has come to name another
SEG_ID in DDR5 is followed; an empty one has no word, which is an underrun (DESIGN CHOICE, log entry 76). -/
def wordAt (s : State) (n : Nat) : Option (BitVec 288) :=
  let x := s.sec n
  match segOf s n x.seg with
  | some g =>
    if g.kind == 1 then some (Tab.get 0 x.store (g.base + x.off))
    else if x.bufAt == some (x.seg, x.off) then x.buf.head? else none
  | none => none

/-- Repetitions of an RPT vector that are left once it issues; 0 for every other opcode (06 R111). -/
def rptLeft (x : Sector) (w : BitVec 288) : Nat :=
  if vOpc w != 1 then 0 else if x.rpt = 0 then vOperand w - 1 else x.rpt - 1

/-- A sector issues its word in the next slot, as vector number vecNum (06 R110); period starts are summed (04 R76). A
streamed vector leaves the buffer with its last repetition (05 R98). -/
def issueWord (s : State) (n : Nat) (w : BitVec 288) : State :=
  let x := s.sec n
  let mi := match x.loops.find? (·.isMatch) with
    | some l => some (l.mid, l.iter)
    | none => if vOpc w == 7 then some (x.nextMatch, 1) else none
  let i : Issued := { num := some x.vecNum, word := w, seg := x.seg, off := x.off, start := x.nextStart, matchIter := mi }
  let spent := segStreamed s n x.seg && rptLeft x w = 0
  let place := streamNext s n x.followed x.seg x.off w
  s.updSec n fun x =>
    let y := { x with issued := some i, ahead := x.ahead ++ [i], nextStart := x.nextStart + periodSteps s n (vTset w),
                      vecNum := addWrap 48 x.vecNum 1, boundary := false, ending := false, missing := false,
                      st := if x.st == .padding then .running else x.st,
                      wait := if vOpc w == 9 then some (BitVec.ofInt 64 (s.setting 3 n (0x200 + vOperand w % 64))) else none }
    if spent then { y with buf := y.buf.drop 1, bufAt := place, refillMin := min y.refillMin (y.buf.length - 1) } else y

/-- A sector issues its keep-alive vector in the next slot (05 R105, R107). -/
def issueKeepAlive (s : State) (n : Nat) (w : BitVec 288) : State :=
  s.updSec n fun x =>
    { x with ahead := x.ahead ++ [{ num := none, word := w, seg := x.seg, off := x.off, start := x.nextStart }],
             nextStart := x.nextStart + periodSteps s n (vTset w), stallVectors := incSat 32 x.stallVectors,
             st := if x.st == .running then .padding else x.st }

/-- One issued vector counts toward a pending jump, but not during a wait (06 R121, R126). -/
def countJump (s : State) (b : Burst) : State :=
  if (members s b).any fun n => (s.sec n).st == .waiting then s
  else s.updBurst b.slot fun b => { b with jump := b.jump.map fun j => { j with issued := j.issued + 1 } }

/-- The timing sets of a slot have one PERIOD (06 R123). -/
def samePeriods (s : State) (ws : List (Nat × BitVec 288)) : Bool :=
  match ws with
  | [] => true
  | p :: rest => rest.all fun q => periodSteps s q.1 (vTset q.2) == periodSteps s p.1 (vTset p.2)

/-- A slot ends the burst; ahead of a start or a wait position the ending acts at that position (06 R109). The sites of the
sectors `ns` are TESTER_FAULT. -/
def slotEnds (s : State) (b : Burst) (e : BurstEnd) (ns : List Nat) : State :=
  let s := s.updBurst b.slot fun b => { b with pendEnd := some (e, ns) }
  if beforeRun s b then s else actPendEnd s b.slot

/-- End a burst for want of data: UNDERRUN, or TESTER_FAULT for a rejected word or a memory in recovery (05 R97, R104, R106,
R107; 21 R471). The sites of every locked sector are TESTER_FAULT. R107 does not say which sectors of a lock tell it: the
NOTICE is that of the sectors that lacked their word (DESIGN CHOICE, log entry 13). -/
def abortUnderrun (s : State) (b : Burst) (run short : List Nat) (e : BurstEnd) : State :=
  slotEnds (forEach short s fun n s => notice s (0x0440 + n) 0) b e run

/-- A sector will not get its word: the word behind its buffer is rejected, or DDR5 is out of service. -/
def cannotRefill (s : State) (n : Nat) : Bool := (s.sec n).bufBad || !s.memUp

/-- A slot of keep-alive vectors (05 R105; 06 R123). -/
def keepSlot (s : State) (b : Burst) (ws : List (Nat × BitVec 288)) : State :=
  if !samePeriods s ws then slotEnds s b .lockMismatch []
  else forEach ws (countJump s b) fun p s => issueKeepAlive s p.1 p.2

/-- The keep-alive vectors of the sectors that hold one. -/
def keepAlives (s : State) (run : List Nat) : List (Nat × BitVec 288) :=
  run.filterMap fun n => (s.sec n).keepAlive.map fun w => (n, w)

/-- An underrun at the issue point: pad or abort (05 R102 to R107). A rejected word is none (R97). -/
def underrun (s : State) (b : Burst) (run short : List Nat) : State :=
  let s := forEach (short.filter fun n => !(s.sec n).bufBad && !(s.sec n).missing) s fun n s =>
    s.updSec n fun x => { x with underruns := incSat 16 x.underruns }
  if short.any (cannotRefill s) then abortUnderrun s b run short .fault
  else
    let ws := keepAlives s run
    if b.pad && ws.length == run.length then
      let s := forEach short s fun n s => s.updSec n fun x => { x with missing := true }
      let s := if b.padTold then s else
        forEach short (s.updBurst b.slot fun b => { b with padTold := true }) fun n s => notice s (0x0440 + n) 0
      keepSlot s b ws
    else abortUnderrun s b run short .underrun

/-- A slot with the words of its sectors (05 R102; 06 R123). -/
def wordSlot (s : State) (b : Burst) (run : List Nat) : State :=
  let short := run.filter fun n => (wordAt s n).isNone
  if !short.isEmpty then underrun s b run short
  else
    let ws := run.filterMap fun n => (wordAt s n).map fun w => (n, w)
    if !samePeriods s ws then slotEnds s b .lockMismatch []
    else forEach ws (countJump s b) fun p s => issueWord s p.1 p.2

/-- A pad goes on while a sector that underran holds fewer than 455 vectors and can still get more; one that cannot issues
what it holds up to the missing word (05 R97, R105, R106; 21 R471). -/
def padGoesOn (s : State) (run : List Nat) : Bool :=
  run.any fun n => (s.sec n).missing && (s.sec n).buf.length < 455 && !cannotRefill s n

/-- Every locked sector jumps to the target (06 R126). A match loop that is open is dropped without MATCH_TIMEOUT: R126 only
says that the loop state is discarded (DESIGN CHOICE, log entry 12). -/
def takeJump (s : State) (b : Burst) (j : Jump) : State :=
  let s := (landJump s b.slot (s.sec (leaderOf b)).nextStart).updBurst b.slot fun b => { b with jump := none }
  let s := forEach (issuing s b) s fun n s =>
    (enterSeg s n j.target).updSec n fun x =>
      { x with calls := [], loops := [], rpt := 0, boundary := false, ending := false, missing := false,
               matches' := x.matches'.filter fun m => m.exit.isSome }
  s.updBurst b.slot fun b => { b with landing := j.slot.map fun k => (k, (s.sec (leaderOf b)).vecNum) }

/-- The pending jump of a burst, once the point before the next slot of its leader is a qualifying boundary (06 R126). -/
def jumpNow (s : State) (b : Burst) : Option Jump :=
  let l := leaderOf b
  if (issuing s b).contains l && (s.sec l).boundary then b.jump.filter fun j => j.issued ≥ 64 else none

/-- A sector whose program has ended enters DRAINING once it runs (06 R109, R123). -/
def endProgram (s : State) (n : Nat) : State :=
  s.updSec n fun x =>
    if x.ending && (x.st == .running || x.st == .padding) then { x with st := .draining, missing := false } else x

/-- The next slot of a lock: a jump at a boundary, the ends of programs, entry into segments, then a pad or the words (05 R102;
06 R113, R126). -/
def nextSlot (s : State) (b : Burst) : State :=
  let s := match jumpNow s b with
    | some j => takeJump s b j
    | none => s
  let s := forEach (issuing s b) s fun n s => endProgram s n
  let run := (issuing s b).filter fun n => !(s.sec n).ending
  let s := forEach run s fun n s => match (s.sec n).goTo with
    | some g => enterSeg s n g
    | none => s
  if run.isEmpty then s
  else if padGoesOn s run then keepSlot s b (keepAlives s run)
  else wordSlot s b run

/-- What happens at an issue point of a lock (05 R102; 06 R128). -/
def issuePoint (s : State) (b : Burst) : State :=
  if b.stop then drainLock s b.slot .aborted
  else if b.pendEnd.isSome then s
  else nextSlot s b

/-- VECTOR_ISSUE_POINT of a sector acts for its whole lock when it names the lowest sector that issues, once the opcodes of
the slot before have acted and 96 ns before the slot (01 R14; 05 R102; log entry 13). -/
def execVectorIssuePoint (sector : Fin 8) (s : State) : Host.Outcome State Fault Refusal :=
  .next <|
    let n := sector.val
    match burstOf s n with
    | some b =>
      match issueStart s b n with
      | some t =>
        if (issuers s b).head? == some n && (issuing s b).all (fun m => (s.sec m).issued.isNone) && stepDue s (t - 39321) then
          issuePoint (setBase s b t) b
        else s
      | none => s
    | none => s

/-! ### Control opcodes (06 R110 to R122) -/

/-- NOP (06 R111). -/
def execSeqNop (sector : Fin 8) (s : State) : Host.Outcome State Fault Refusal :=
  .next <| seqRow s sector 0x00 fun i s => advance s sector i.off

/-- RPT: the vector fills OPERAND slots (06 R111). -/
def execRpt (sector : Fin 8) (s : State) : Host.Outcome State Fault Refusal :=
  .next <| seqRow s sector 0x01 fun i s =>
    let n := sector.val
    let left := rptLeft (s.sec n) i.word
    let s := s.updSec n fun x => { x with rpt := left }
    if left = 0 then advance s n i.off else s

/-- The count of a LOOP_BEGIN or MATCH (06 R112). -/
def loopCount (s : State) (n o : Nat) : Nat := if bitOf o 19 then s.settingN 3 n (0x100 + o % 64) else bits o 18 0

/-- The loop that a vector opened is still open. -/
def loopOpen (x : Sector) (i : Issued) : Bool := x.loops.head?.any fun l => l.seg == i.seg && l.start == i.off

/-- LOOP_BEGIN (06 R111, R112, R115). -/
def execLoopBegin (sector : Fin 8) (s : State) : Host.Outcome State Fault Refusal :=
  .next <| seqRow s sector 0x02 fun i s =>
    let n := sector.val
    let s := if loopOpen (s.sec n) i then s else s.updSec n fun x =>
      { x with loops := { seg := i.seg, start := i.off, count := loopCount s n (vOperand i.word), iter := 1,
                          isMatch := false } :: x.loops }
    advance s n i.off

/-- LOOP_END (06 R115). -/
def execLoopEnd (sector : Fin 8) (s : State) : Host.Outcome State Fault Refusal :=
  .next <| seqRow s sector 0x03 fun i s =>
    let n := sector.val
    match (s.sec n).loops with
    | l :: rest =>
      if l.iter < l.count then
        s.updSec n fun x => { x with loops := { l with iter := l.iter + 1 } :: rest, off := l.start }
      else advance (s.updSec n fun x => { x with loops := rest }) n i.off
    | [] => advance s n i.off

/-- CALL (06 R116): the stack holds 8 returns; a ninth, which only a jump target can reach, drops the oldest (log entry
12). -/
def execSeqCall (sector : Fin 8) (s : State) : Host.Outcome State Fault Refusal :=
  .next <| seqRow s sector 0x04 fun i s =>
    let n := sector.val
    s.updSec n fun x =>
      { x with calls := (⟨i.seg, i.off + 1, x.loops.length⟩ :: x.calls).take 8, goTo := some (vOperand i.word) }

/-- RET: return, or at depth 0 end the burst (06 R113, R116, R126). -/
def execSeqRet (sector : Fin 8) (s : State) : Host.Outcome State Fault Refusal :=
  .next <| seqRow s sector 0x05 fun i s =>
    let n := sector.val
    if (s.sec n).calls.isEmpty then
      s.updSec n fun x => { x with ending := true, boundary := lastVector s n i.off }
    else segmentEnd s n 9

/-- JMP (06 R111, R126). -/
def execSeqJmp (sector : Fin 8) (s : State) : Host.Outcome State Fault Refusal :=
  .next <| seqRow s sector 0x06 fun i s =>
    let n := sector.val
    let last := lastVector s n i.off && (s.sec n).calls.isEmpty
    s.updSec n fun x => { x with boundary := last, goTo := some (vOperand i.word) }

/-- MATCH opens a match loop of the active sites with a channel in the sector (06 R117, R118). -/
def execMatchOpen (sector : Fin 8) (s : State) : Host.Outcome State Fault Refusal :=
  .next <| seqRow s sector 0x07 fun i s =>
    let n := sector.val
    let id := (s.sec n).own.getD 0
    let sites := (sitesOf s id).filter fun i => siteActive s i id && siteIn s i n
    let s := if loopOpen (s.sec n) i then s else s.updSec n fun x =>
      { x with loops := { seg := i.seg, start := i.off, count := loopCount s n (vOperand i.word), iter := 1, isMatch := true,
                          mid := x.nextMatch } :: x.loops,
               matches' := x.matches' ++ [{ mid := x.nextMatch, waits := sites }], nextMatch := x.nextMatch + 1 }
    advance s n i.off

/-! ### Results (01 R14; 03 R54; 06 R117 to R119, R132 to R135) -/

/-- Limits of a site as the burst read them at period 0: FAIL_LIMIT and CAPTURE_LIMIT (06 R130). -/
def siteLimits (b : Burst) (i : Nat) : Nat × Nat :=
  ((b.sites.find? fun p => p.1 == i).map fun p => (p.2.1, p.2.2)).getD (0, 0)

/-- A compare of a period counts for its site: the site is in the burst and not masked at that vector (06 R132). -/
def counts (s : State) (id i num : Nat) : Bool :=
  (s.site i).burst == some id && (s.site i).maskVector.all (num < ·)

/-- Count a failing period for a site, once whatever the channels, and mask it at FAIL_LIMIT from the vector issued next
after the decision (06 R132 to R134). -/
def countFail (s : State) (b : Burst) (i num ch next : Nat) : State :=
  if (s.site i).failed.contains num then
    s.updSite i fun x => if x.firstFail == some num then { x with firstChannel := some (min ch (x.firstChannel.getD ch)) } else x
  else
    let s := s.updSite i fun x =>
      let earlier := x.firstFail.all (num < ·)
      { x with failed := num :: x.failed, failCount := x.failCount + 1,
               firstFail := if earlier then some num else x.firstFail,
               firstChannel := if earlier then some ch else x.firstChannel }
    let limit := (siteLimits b i).1
    if limit != 0 && (s.site i).failCount == limit then maskSite s i next else s

/-- The FAIL record of a period: its failing channels of sites below CAPTURE_LIMIT (06 R135, R136). A record that is lost does
not count toward CAPTURE_LIMIT and sets FLAGS bit 2 of the sites it would have named; the loss of other records sets it for
no site (DESIGN CHOICE, log entry 12). -/
def failRecord (s : State) (n : Nat) (b : Burst) (p : Period) (fails : List (Nat × Nat)) : State :=
  let below (i : Nat) : Bool := (s.site i).captured < (siteLimits b i).2
  let inRec := fails.filter fun f => below f.2
  let out := (fails.filter fun f => !below f.2).map Prod.snd
  let s := forEach out s fun i s => s.updSite i fun x => { x with limitHit := true }
  if inRec.isEmpty || b.captureSize = 0 then s
  else
    let mask := inRec.foldl (fun m f => m ||| 2 ^ (f.1 % 64)) 0
    let (s, ok) := pushCap s n b.slot p.num p.tset p.pos
      (leBytes 8 (capWord0 p.num p.tset n 0) ++ leBytes 8 p.pos.toNat ++ leBytes 8 mask ++ zeros 8)
    forEach ((inRec.map Prod.snd).eraseDups) s fun i s =>
      s.updSite i fun x => if ok then { x with captured := x.captured + 1 } else { x with lostRecs := true }

/-- The CAPTURE record of a period with a CP code, also where no channel has captured (06 R135). -/
def captureRecord (s : State) (n : Nat) (b : Burst) (p : Period) (rs : List Result) : State :=
  let caps := rs.filterMap fun r => r.capture.map fun v => (r.ch % 64, v)
  if !p.cp then s
  else
    let two (c : Nat) : Nat := ((caps.find? fun q => q.1 == c).map Prod.snd).getD 3
    let word := (List.range 64).foldl (fun w c => w + two c * 4 ^ c) 0
    (pushCap s n b.slot p.num p.tset p.pos
      (leBytes 8 (capWord0 p.num p.tset n 1) ++ leBytes 8 p.pos.toNat ++ leBytes 16 word)).1

/-- The failing channels of a period that count, each with its site. -/
def countedFails (s : State) (id : Nat) (p : Period) (rs : List Result) : List (Nat × Nat) :=
  (List.range 512).filterMap fun ch =>
    if rs.any fun r => r.ch == ch && r.fail then
      (s.chan ch).site.bind fun i => if counts s id i p.num then some (ch, i) else none
    else none

/-- Every compare of a period is decided and every result of it has arrived. -/
def periodDone (x : Sector) (p : Period) : Bool := p.owed == 0 && !x.results.any fun r => r.period == p.num

/-- A period whose results are all in goes, with its FAIL and CAPTURE records (06 R135); a match body gives no FAIL record
(R117). -/
def finishPeriod (s : State) (n : Nat) (b : Burst) (p : Period) : State :=
  let s := s.updSec n fun x => { x with periods := x.periods.filter fun q => q.num != p.num }
  let s := if p.matchIter.isSome then s else failRecord s n b p (countedFails s b.slot p p.rs)
  captureRecord s n b p p.rs

/-- The periods of a sector whose results are all in go, oldest first. -/
def finishPeriods (s : State) (n : Nat) (b : Burst) : State :=
  forEach ((s.sec n).periods.filter fun p => periodDone (s.sec n) p) s fun p s => finishPeriod s n b p

/-- One result reaches the sequencer (06 R117, R118, R132, R133). -/
def takeResult (s : State) (n : Nat) (b : Burst) (r : Result) : State :=
  let s := s.updSec n fun x =>
    { x with results := x.results.erase r,
             periods := x.periods.map fun p => if p.num == r.period then { p with rs := p.rs ++ [r] } else p }
  match (s.sec n).periods.find? fun p => p.num == r.period with
  | some p =>
    (match (if r.fail then (s.chan r.ch).site else none) with
     | some i =>
       (match p.matchIter with
        | some (mid, k) => s.updSec n fun x => { x with matches' := x.matches'.map fun m =>
            if m.mid == mid then { m with miss := ((i, k) :: m.miss).eraseDups } else m }
        | none => if counts s b.slot i r.period then countFail s b i r.period r.ch r.next else s)
     | none => s)
  | none => s

/-- A result has reached the sequencer by edge step t: 48 ns after its decision (01 R14). -/
def Result.inBy (r : Result) (t : Int) : Bool := r.at' + 19661 ≤ t

/-- The results of a sector that `f` takes reach it; periods and match loops follow (06 R118, R119). -/
def absorb (s : State) (n : Nat) (b : Burst) (f : Result → Bool) : State :=
  settleMatches (finishPeriods (forEach ((s.sec n).results.filter f) s fun r s => takeResult s n b r) n b) n

/-- The issue instant of a MATCH_END whose exit test is still to be made: later results do not enter it (06 R118). -/
def matchLimit (x : Sector) : Option Int := x.issued.bind fun i => if vOpc i.word == 8 then some (i.start - 39321) else none

/-- COMPARE_RESULT_ARRIVAL: the results of a period, 48 ns after the decision of each, reach the sequencer (01 R14; 06
R118). -/
def execCompareResultArrival (sector : Fin 8) (period : Nat) (s : State) : Host.Outcome State Fault Refusal :=
  .next <|
    let n := sector.val
    match burstOf s n with
    | some b =>
      let now : Int := s.now * 256 + 255
      let t := match matchLimit (s.sec n) with
        | some l => min l now
        | none => now
      absorb s n b fun r => r.period == period && r.inBy t
    | none => s

/-- A compare of a match loop may still be decided in time for an exit test at edge step t: its instant, or the start of its
period, is not past (06 R118). -/
def matchPending (s : State) (n mid : Nat) (t : Int) : Bool :=
  let x := s.sec n
  let of (m : Option (Nat × Nat)) : Bool := m.any fun q => q.1 == mid
  x.ahead.any (fun v => of v.matchIter && v.start - 1639 + 19661 ≤ t) ||
    x.periods.any fun p => of p.matchIter && (List.range 64).any fun c =>
      (s.chan (64 * n + c)).compares.any fun k =>
        k.period == p.num && isCompare k.code && !k.failed && (if k.window then k.c1 else k.c0) + 19661 ≤ t

/-- MATCH_END: at its issue instant, on the results in by then, the loop ends when every site has matched, or at the count
(06 R118, R119). It waits for compares that are decided in time. -/
def execMatchEnd (sector : Fin 8) (s : State) : Host.Outcome State Fault Refusal :=
  .next <|
    let n := sector.val
    let held := match matchLimit (s.sec n), (s.sec n).loops with
      | some t, l :: _ => matchPending s n l.mid t
      | _, _ => false
    if held then s else seqRow s n 0x08 fun i s =>
    match (s.sec n).loops with
    | l :: rest =>
      let upd (f : MatchRun → MatchRun) (s : State) : State :=
        s.updSec n fun x => { x with matches' := x.matches'.map fun m => if m.mid == l.mid then f m else m }
      let s := upd (fun m => { m with full := l.iter }) s
      let s := match burstOf s n with
        | some b => absorb s n b fun r => r.inBy (i.start - 39321)
        | none => s
      let all := (s.sec n).matches'.all fun m => m.mid != l.mid || m.waits.isEmpty
      if all || l.iter ≥ l.count then
        let s := upd (fun m => { m with exit := some (s.sec n).vecNum }) s
        settleMatches (advance (s.updSec n fun x => { x with loops := rest }) n i.off) n
      else s.updSec n fun x => { x with loops := { l with iter := l.iter + 1 } :: rest, off := l.start }
    | [] => advance s n i.off

/-! ### WAIT_SWEEP (06 R120, R121, R123) -/

/-- Length of a sweep cycle in fraction units (02 R35). -/
def cycleUnits (s : State) : Nat := s.sweep.ang.revs * 23592960 * 65536

/-- The cycle phase of a position (02 R35). -/
def cyclePhase (s : State) (p : Pos) : Nat := (((p.toNat : Int) - s.sweep.ang.origin) % (cycleUnits s : Int)).toNat

/-- The wait position of a WAIT_SWEEP whose period ends at position e (06 R120). -/
def waitTarget (s : State) (phase : Bool) (entry e : Pos) : Pos :=
  if phase && s.sweep.source == .angle then
    let c := cycleUnits s
    e + BitVec.ofNat 64 ((entry.toNat % c + c - cyclePhase s e) % c)
  else entry

/-- The later of two positions (02 R26). -/
def laterPos (s : State) (a b : Pos) : Pos := if orderKey s.sweep.pos a ≤ orderKey s.sweep.pos b then b else a

/-- A sector enters WAITING at the end of a period: its channels compare nothing until P (06 R121). -/
def enterWait (s : State) (n : Nat) (step : Int) : State :=
  let s := forEach (List.range 64) s fun c s => breakRun s (64 * n + c) step
  s.updSec n fun x => { x with st := .waiting, waitFrom := some step, waitTo := none }

/-- The position that a lock waits for after the WAIT_SWEEPs whose period ends at step: the latest of theirs (06 R120, R123). -/
def lockTarget (s : State) (b : Burst) (step : Int) : Pos :=
  let e := posAtStep s step
  (issuing s b).foldl (fun p n => match (s.sec n).waitEnd with
    | some (_, entry, phase) => laterPos s p (waitTarget s phase entry e)
    | none => p) e

/-- WAIT_SWEEP at the issue point of the vector behind it, for every locked sector whose vector of this slot is one: that vector
will issue 96 ns before the wait position as it is then predicted (06 R120, R121, R123). -/
def waitSlot (s : State) (b : Burst) : State :=
  let waits := (issuing s b).filterMap fun n => (s.sec n).issued.bind fun i => if vOpc i.word == 9 then some (n, i) else none
  let step := (waits.head?.map fun q => (s.sec q.1).nextStart).getD 0
  let s := forEach waits s fun q s =>
    advance (s.updSec q.1 fun x => { x with
      issued := none, waitEnd := some (step, x.wait.getD 0, bits (vOperand q.2.word) 19 18 == 1), wait := none }) q.1 q.2.off
  s.updBurst b.slot fun b => { b with waitPos := some (lockTarget s b step) }

/-- The period of the WAIT_SWEEPs of a lock ends at a step: its sectors wait for the latest of their positions, or go on late
(06 R120, R121, R123). WAIT_LATE counts without bound and shows its low 16 bits (DESIGN CHOICE, log entry 13). -/
def endWait (s : State) (b : Burst) (step : Int) : State :=
  let p := lockTarget s b step
  let waits := (issuing s b).filter fun n => (s.sec n).waitEnd.isSome
  let s := forEach waits s fun n s => s.updSec n fun x => { x with waitEnd := none }
  if isFuture (posAtStep s step) p then
    let s := if (jumpNow s b).isSome then s
      else forEach ((issuing s b).filter fun n => !waits.contains n) s fun n s => endProgram s n
    let s := forEach (issuing s b) s fun n s => enterWait s n step
    let s := s.updBurst b.slot fun b => { b with waitPos := some p }
    if b.stop then drainLock s b.slot .aborted else s
  else
    let s := forEach waits s fun n s =>
      notice (s.updSec n fun x => { x with waitLate := x.waitLate + 1 }) (0x0440 + n) 0
    let s := forEach (issuing s b) s fun n s => runFrom s n step
    actPendEnd (s.updBurst b.slot fun b => { b with waitPos := none }) b.slot

/-- The end of the WAIT_SWEEP period of a lock, once it has come and every period before it has started. -/
def waitOverAt (s : State) (b : Burst) (n : Nat) : Option Int :=
  match (s.sec n).waitEnd with
  | some (step, _, _) =>
    if stepDue s step && (issuing s b).all fun m => (s.sec m).ahead.all fun i => step ≤ i.start then some step else none
  | none => none

/-- WAIT_SWEEP (06 R120, R121): due at the issue point of the vector behind it, once its lock has nothing else to act on, and
again at the end of its period. -/
def execWaitSweep (sector : Fin 8) (s : State) : Host.Outcome State Fault Refusal :=
  .next <|
    let n := sector.val
    match burstOf s n with
    | some b =>
      let run := issuing s b
      let settled := run.all fun m => (s.sec m).issued.all fun j => vOpc j.word == 9
      let acts := (s.sec n).issued.any fun i => vOpc i.word == 9
      let s := if run.contains n && acts && settled && !beforeRun s b && stepDue s ((s.sec n).nextStart - 39321)
        then waitSlot s b else s
      match waitOverAt s b n, burstOf s n with
      | some step, some b => if run.contains n then endWait s b step else s
      | _, _ => s
    | none => s

/-- A waiting sector goes on at P: comparing starts again (06 R121). -/
def leaveWait (s : State) (n : Nat) (step : Int) : State :=
  let s := (runFrom s n step).updSec n fun x => { x with waitTo := some step }
  forEach (List.range 64) s fun c s => evalOpen s (64 * n + c) step

/-- WAIT_POSITION_REACHED: the next vector's period starts at P for every waiting sector of the lock (06 R121). -/
def execWaitPositionReached (sector : Fin 8) (s : State) : Host.Outcome State Fault Refusal :=
  .next <| match burstOf s sector with
    | some b => match b.waitPos with
      | some p =>
        if (s.sec sector).st == .waiting && !isFuture s.sweep.pos p then
          let step := startStep s p
          let s := s.updBurst b.slot fun b => { b with waitPos := none }
          let s := forEach ((members s b).filter fun m => (s.sec m).st == .waiting) s fun m s => leaveWait s m step
          actPendEnd s b.slot
        else s
      | none => s
    | none => s

/-! ### The other opcodes (05 R101; 06 R111, R122) -/

/-- MARK goes on with the next vector; what it marks happens at the start of its period (06 R122). -/
def execMark (sector : Fin 8) (s : State) : Host.Outcome State Fault Refusal :=
  .next <| seqRow s sector 0x0A fun i s => advance s sector i.off

/-- STALL_SAFE copies a streamed vector into the keep-alive register (05 R101). -/
def execStallSafe (sector : Fin 8) (s : State) : Host.Outcome State Fault Refusal :=
  .next <| seqRow s sector 0x0B fun i s =>
    let n := sector.val
    let s := if segStreamed s n i.seg then s.updSec n fun x => { x with keepAlive := some i.word } else s
    advance s n i.off

/-- HALT ends the burst after its period; the point behind the last vector of a segment at depth 0 is a boundary (06 R111,
R126). -/
def execHalt (sector : Fin 8) (s : State) : Host.Outcome State Fault Refusal :=
  .next <| seqRow s sector 0x0C fun i s =>
    let n := sector.val
    let last := lastVector s n i.off && (s.sec n).calls.isEmpty
    s.updSec n fun x => { x with ending := true, boundary := last }

/-! ### Refill (05 R97 to R99; 21 R470) -/

/-- The refill of a sector may fetch: from a streamed first segment once armed, otherwise once the burst runs (05 R99). -/
def refilling (s : State) (n : Nat) : Bool :=
  let x := s.sec n
  let runs := x.st == .running || x.st == .padding || x.st == .waiting
  (burstOf s n).isSome && (runs || (x.st == .armed && (x.bufAt.any fun p => p.1 == x.seg || x.base.isSome))) &&
    (fetchPlace s n).isSome && !x.bufBad && x.buf.length < 910 && s.memUp

/-- The declared rate of the burst of a sector, vectors per second (05 R98). -/
def declRate (s : State) (n : Nat) : Nat := ((burstOf s n).map Burst.rate).getD 0

/-- The refill of a sector may place its next vector within the present tick: it delivers no faster than the declared rate
(05 R98). -/
def fillDue (s : State) (n : Nat) : Bool := (s.sec n).fillNext < (s.now + 1) * declRate s n

/-- A vector is placed: at the declared rate the next one follows 1.6 × 10⁹ / rate ticks later (05 R98). -/
def fillAfter (s : State) (n : Nat) : Nat := max (s.sec n).fillNext (s.now * declRate s n) + 1600000000

/-- A refill meets an uncorrectable beat: a class 2 fault of the sector (21 R470). -/
def patternUe (s : State) (n b : Nat) : State := raiseFault (readBeat s b) (domSec n) 56

/-- A word that the refill delivers: one that passes test 7 of R96 by itself and is no loop or match opcode, whose test needs
the whole segment and which R91 keeps out of streamed segments (05 R97; DESIGN CHOICE, log entry 12). -/
def refillOk (w : BitVec 288) : Bool := wordOk w && !(vOpc w == 2 || vOpc w == 3 || vOpc w == 7 || vOpc w == 8)

/-- REFILL_DATA_ARRIVAL: the next vector reaches the buffer, from the 64-byte reads that hold it and no faster than the declared
rate; a rejected word is not delivered, nor anything behind it (05 R97, R98). -/
def execRefillDataArrival (sector : Fin 8) (s : State) : Host.Outcome State Fault Refusal :=
  .next <|
    let n := sector.val
    match (if refilling s n && fillDue s n then fetchPlace s n else none) with
    | some (g, o) =>
      match segOf s n g with
      | some e =>
        let a := e.base + 36 * o
        let bad := badBeats s (a / 64 * 64) ((a + 99) / 64 * 64 - a / 64 * 64)
        let s := correctRead s (a / 64 * 64) ((a + 99) / 64 * 64 - a / 64 * 64)
        match bad with
        | b :: _ => patternUe s n b
        | [] =>
          let w := vWord (ddrRead s a 36)
          if refillOk w then s.updSec n fun x => { x with buf := x.buf ++ [w], fillNext := fillAfter s n }
          else s.updSec n fun x => { x with bufBad := true }
      | none => s
    | none => s

/-- MEM_PATTERN_UE: a refill of a sector reads a beat that proves uncorrectable (21 R468, R470). -/
def execMemPatternUe (sector : Fin 8) (addr : BitVec 37) (s : State) : Host.Outcome State Fault Refusal :=
  .next <|
    let b := addr.toNat / 4
    if refilling s sector then
      let s := if s.mem.poison.contains b || s.mem.bad.contains b then s else { s with mem.bad := b :: s.mem.bad }
      patternUe s sector b
    else s

/-! ### Period starts (03 R50, R54, R61; 04 R76 to R87; 06 R122) -/

/-- The image that a period starting at an edge step goes by: with every committed apply whose tick is not after that of the
start (04 R80, R86; 15 R348). -/
def startImage (s : State) (start : Int) : State :=
  let t := { s with stg.sched := s.stg.sched.filter fun a => !uncommitted s a.kind }
  { s with stg.image := imageFor t (some (posAtStep s (start / 256 * 256))) none }

/-- What the driver will do at a period's start, by the edges due before it (03 R50 KP). -/
def drvBefore (c : Chan) (start : Int) : Drv :=
  (c.edges.filter fun e => e.at' < start).foldl (fun d e => edgeResult e.format e.code e.kind d) c.drv

/-- A placed period has its channel ACTIVE: it is, or period 0 will find it IDLE by the MODE of the image of `v` and takes it
(03 R64, R65). -/
def takesPart (s v : State) (ch : Nat) : Bool :=
  let c := s.chan ch
  let waits := (s.sec (ch / 64)).st == .armed && v.setting 1 ch 1 == 1 && !excludedChan s ch
  c.st == .active || (waits && (c.st == .idle || (c.st != .isolated && !isContained s (domChan ch) &&
    s.setting 1 ch 1 != 1)))

/-- The code of a drive period as it acts: KP acts as the last code of the burst, on a driver that is on (03 R50). -/
def actCode (c : Chan) (fmt code : Nat) (start : Int) : Nat :=
  if code == 9 && fmt != 4 then (if drvBefore c start == .off then 9 else c.lastCode.getD 9) else code

/-- The drive edges of a period of a channel by the image of `v` (03 R50; 04 R77, R85 to R87). -/
def edgesOf (v : State) (ch tset act : Nat) (start : Int) : List PinEdge :=
  let fmt := v.settingN 4 (64 * (ch / 64) + tset) (0x400 + 16 * (ch % 64))
  (edgeKinds fmt act).map fun k =>
    { period := start.toNat, kind := k, code := act, format := fmt,
      at' := start + edgeOf v ch tset (kindPar k) + driveDeskew v ch, fall := fallDeskew v ch }

/-- Place the blanking and the compare of a period of a channel by the image of `v` (03 R54, R57; 04 R85). -/
def placeCompare (s v : State) (ch tset code num : Nat) (start : Int) (live : Bool) : State :=
  let at' (p : Nat) : Int := start + edgeOf v ch tset p + compareDeskew v ch
  let window := v.setting 1 ch 0x010 == 1
  let k : Compare := { period := num, code := code, window := window && code != 10, c0 := at' 5, c1 := at' 6 }
  s.updChan ch fun c =>
    { c with window := window, blanksDue := c.blanksDue ++ (blankOf v ch tset start).toList,
             compares := if live && (isCompare code || code == 10) then c.compares ++ [k] else c.compares }

/-- Place a period of a channel at the edge logic by the image of `v`: its drive edges, its blanking and its compare (03 R50,
R54, R57; 04 R77, R80, R85 to R87). `live` is false for a keep-alive vector, whose compare codes act as XX (05 R105). -/
def placeChan (s v : State) (ch tset code num : Nat) (start : Int) (live : Bool) : State :=
  if !takesPart s v ch then s
  else
    let fmt := v.settingN 4 (64 * (ch / 64) + tset) (0x400 + 16 * (ch % 64))
    let edges := edgesOf v ch tset (actCode (s.chan ch) fmt code start) start
    placeCompare (s.updChan ch fun c =>
      { c with lastCode := if code ≤ 1 || code == 3 then some code else c.lastCode,
               edges := edges.foldl (fun l e => insertEdge e l) c.edges }) v ch tset code num start live

/-- Place an issued vector of sector n at the edge logic (04 R86). -/
def placePeriod (s : State) (n : Nat) (i : Issued) : State :=
  let v := startImage s i.start
  let s := forEach (List.range 64) s fun c s =>
    placeChan s v (64 * n + c) (vTset i.word) (pinCode i.word c) (i.num.getD 0) i.start i.num.isSome
  s.updSec n fun x =>
    { x with ahead := x.ahead.map fun j => if j == i then { j with placed := true, image := v.stg.image } else j }

/-- A period that starts under another image than it was placed by, since the sweep jumped onto an apply or held short of one,
goes by the image that stands: what has not happened of it is placed anew (04 R80; 02 R41). -/
def replaceChan (s : State) (i : Issued) (ch code : Nat) : State :=
  let old := { s with stg.image := i.image }
  let c := s.chan ch
  let tset := vTset i.word
  if c.st != .active then s
  else
    let mine (e : PinEdge) : Bool := e.period == i.start.toNat
    let left := c.edges.filter mine
    let fmt := s.settingN 4 (64 * (ch / 64) + tset) (0x400 + 16 * (ch % 64))
    let act := (left.head?.map PinEdge.code).getD (if code == 9 && fmt != 4 then 9 else code)
    let done := (edgesOf old ch tset act i.start).filter fun e => !left.any fun f => f.kind == e.kind
    let again := (edgesOf s ch tset act i.start).filter fun e => !done.any fun f => f.kind == e.kind
    let s := s.updChan ch fun c =>
      { c with edges := again.foldl (fun l e => insertEdge e l) (c.edges.filter fun e => !mine e),
               compares := c.compares.filter fun k => !(i.num == some k.period && !k.opened),
               blanksDue := match blankOf old ch tset i.start with
                 | some b => c.blanksDue.erase b
                 | none => c.blanksDue }
    placeCompare s s ch tset code (i.num.getD 0) i.start i.num.isSome

/-- Place a period anew as it starts, where the image has come to be another one (04 R80). -/
def replacePeriod (s : State) (n : Nat) (i : Issued) : State :=
  if s.stg.image == i.image then s
  else forEach (List.range 64) s fun c s => replaceChan s i (64 * n + c) (pinCode i.word c)

/-- A channel starts a period: the NEXT_PERIOD clear, the deskew of a clock output, and at period 0 of another format the stop
of a clock that IDLE has left running (03 R50, R61; 04 R87). -/
def startPeriod (s : State) (ch tset num : Nat) (start : Int) (live : Bool) : State :=
  let s := if s.setting 1 ch 0x00E == 1 then clearLatchIn s ch (start / 256).toNat else s
  let s := if (s.chan ch).st == .active then s.updChan ch fun c => { c with clkDesk := some (driveDeskew s ch, fallDeskew s ch) }
    else s
  let fmt := s.settingN 4 (64 * (ch / 64) + tset) (0x400 + 16 * (ch % 64))
  let c := s.chan ch
  if c.st == .active && live && num == 0 && fmt != 4 && c.drv == .clock && c.clkTo.isNone then
    s.updChan ch fun c => { c with clkTo := some start }
  else s

/-- What a MARK vector does at the start of its period (06 R122, R135). -/
def markAct (s : State) (n : Nat) (i : Issued) (num : Nat) : State :=
  let o := vOperand i.word
  let id := bits o 15 0
  let pos := posAtStep s i.start
  let s := if bitOf o 16 then
      match burstOf s n with
      | some b =>
        (pushCap s n b.slot num (vTset i.word) pos
          (leBytes 8 (capWord0 num (vTset i.word) n 2) ++ leBytes 8 pos.toNat ++ leBytes 2 id ++ zeros 14)).1
      | none => s
    else s
  let s := if bitOf o 17 then tuAll s [2 * n, 2 * n + 1] 0x48 0 (stampOfStep s i.start) else s
  if bitOf o 18 then event s (0x0440 + n) id else s

/-- The head of a sector's issued vectors that starts with a slot. -/
def slotMates (s : State) (b : Burst) (start : Int) : List (Nat × BitVec 288) :=
  (members s b).filterMap fun m => (s.sec m).ahead.head?.bind fun j =>
    if j.start == start then some (m, j.word) else none

/-- A vector period of sector n starts (04 R76, R80): the applied values of the moment give its edges and its PERIOD, and
move the starts that follow. Locked sectors whose PERIODs have come to differ drain (06 R123). -/
def periodStart (s : State) (n : Nat) (i : Issued) : State :=
  let mates := match burstOf s n with
    | some b => slotMates s b i.start
    | none => []
  if !samePeriods s mates then
    forEach (mates.map Prod.fst) (drainLock s ((s.sec n).own.getD 0) .lockMismatch) fun m s =>
      s.updSec m fun x => { x with ahead := [] }
  else
    let s := replacePeriod s n i
    let tset := vTset i.word
    let stop := i.start + periodSteps s n tset
    let num := i.num.getD 0
    let live := i.num.isSome
    let owed := (List.range 64).filter fun c => live && (s.chan (64 * n + c)).compares.any fun k => k.period == num
    let cp := live && (List.range 64).any fun c => pinCode i.word c == 10
    let s := s.updSec n fun x =>
      { x with ahead := x.ahead.drop 1, periodEnd := stop,
               periods := if owed.isEmpty && !cp then x.periods
                 else x.periods ++ [{ num := num, tset := tset, pos := posAtStep s i.start, matchIter := i.matchIter,
                                      owed := owed.length, cp := cp }] }
    let x := s.sec n
    let s := moveAhead s n (stop - (x.ahead.head?.map Issued.start).getD x.nextStart)
    let s := forEach (List.range 64) s fun c s => startPeriod s (64 * n + c) tset num i.start live
    let s := match burstOf s n with
      | some b => if live && leaderOf b == n && b.landing.any fun q => q.2 == num then landJump s b.slot i.start else s
      | none => s
    settleMatches (if live && vOpc i.word == 0x0A then markAct s n i num else s) n

/-- An apply is due and has not acted: a period that starts on its tick goes by the new values (02 R41; 04 R80). -/
def applyDue (s : State) : Bool :=
  s.stg.sched.any fun a => actRank a.kind == 0 && isDue s a && !uncommitted s a.kind

/-- A sequencer whose issued periods start: not ahead of a start or a wait position, and not HELD. -/
def starts (st : SeqSt) : Bool := st == .running || st == .padding || st == .draining

/-- The next period of sector n stands at the edge logic from 4 ns before its start (04 R86). -/
def placeDue (s : State) (n : Nat) : State :=
  match (s.sec n).ahead.find? (!·.placed) with
  | some i => if stepDue s (i.start - 1639) then placePeriod s n i else s
  | none => s

/-- VECTOR_PERIOD_START: from 4 ns before its start a period stands at the edge logic, and at its start, once a due apply has
acted, it begins (04 R76, R80, R86; 03 R61). -/
def execVectorPeriodStart (sector : Fin 8) (s : State) : Host.Outcome State Fault Refusal :=
  .next <|
    let n := sector.val
    match (if (s.sec n).st == .held then none else repredict s n) with
    | none => s
    | some s =>
      let s := placeDue s n
      match (s.sec n).ahead.head? with
      | some i =>
        let x := s.sec n
        let held := x.waitEnd.isSome && x.base.any (· ≤ i.start)
        if i.placed && stepDue s i.start && starts x.st && !held && !applyDue s then periodStart s n i else s
      | none => s

/-! ### Fail capture (06 R136) -/

/-- The sector whose queue drains next: the first non-empty one in turn (06 R136). -/
def drainNext (s : State) : Option Nat :=
  ((List.range 8).map fun i => (s.drainAt + 1 + i) % 8).find? fun n => !(s.sec n).capQueue.isEmpty

/-- FAIL_RECORD_DRAIN: the oldest queued record of the sector whose turn it is, is written to DDR5, on capture capacity that
admitted items leave unused (06 R136); a read-modify-write that meets an uncorrectable beat is a class 0 notice (21 R470). -/
def execFailRecordDrain (sector : Fin 8) (s : State) : Host.Outcome State Fault Refusal :=
  .next <|
    let n := sector.val
    match (s.sec n).capQueue with
    | (a, _, bytes) :: rest =>
      if !s.memUp || drainNext s != some n || s.mem.capture ≥ scaleBudget s 12000000000 then s
      else
        let (s, bad) := scanModify ({ s with drainAt := n }.updSec n fun x => { x with capQueue := rest }) a bytes.length
        let s := ddrWrite s a bytes
        if bad then notice0 s (0x0440 + n) 57 0 else s
    | [] => s

/-! ### The end of a burst (06 R109, R137; 03 R64) -/

/-- Every issued period of a sector is over and every compare of it is decided (06 R109). -/
def drained (s : State) (n : Nat) : Bool :=
  let x := s.sec n
  x.st == .draining && x.ahead.isEmpty && stepDue s x.periodEnd &&
    (List.range 64).all fun c => (s.chan (64 * n + c)).compares.isEmpty

/-- SEQUENCER_DRAIN_DONE: the results still on their way count, the channels leave ACTIVE, and with the last sector of its lock
the burst completes (06 R109, R123, R137; 03 R64). -/
def execSequencerDrainDone (sector : Fin 8) (s : State) : Host.Outcome State Fault Refusal :=
  .next <|
    let n := sector.val
    if !drained s n then s
    else match burstOf s n with
      | some b =>
        let s := absorb s n b fun _ => true
        let s := (idleChannels s n).updSec n fun x => { clearRun x with st := .idle }
        if lockBusy s b then s else completeBurst s b.slot
      | none => (idleChannels s n).updSec n fun x => { clearRun x with st := .idle }

end Sys2Proof.Machine
end

