-- ==== Sys2Proof/Machine/Chan.lean ====
section
/-! DEFINITION. Channels and time-stampers: drive edges, compares, blanking, crossings, stamps, window generators, TIM_ARM
and STAMP_STREAM (03; 04 R82 to R86; 07). -/

namespace Sys2Proof.Machine

open Sys2Proof

/-! ### Drive edges (04 R82 to R85; 03 R50, R51, R58) -/

/-- The blank timer of a lane group starts at an edge step; runs of BETWEEN on its timer channels end there (03 R54, R58). -/
def startBlank (s : State) (ch : Nat) (t : Int) : State :=
  let lg := ch / 8
  let len := s.setting 2 lg 1
  if len == 0 then s
  else
    let s := forEach (List.range 8) s fun j s =>
      let n := 8 * lg + j
      let m := s.setting 1 n 0x00C
      match openWindow (s.chan n) with
      | some k => if m == 1 || m == 3 then endRun s n k t else s
      | none => s
    s.updLg lg fun l =>
      { l with blankFrom := if l.blankEnd.any (t ≤ ·) then min t l.blankFrom else t, blankEnd := some (t + len * 256) }

/-- The instant of an edge, with the DESKEW_FALL of its period where it lowers the level (04 R85, R87). -/
def edgeTime (s : State) (n : Nat) (e : PinEdge) (next : Drv) : Int :=
  if !e.delayed && edgeFalls s n e next e.at' then e.at' + e.fall else e.at'

/-- An edge falls less than 1.25 ns after the last acting one, and not on its step within its period (04 R83). -/
def tooClose (c : Chan) (e : PinEdge) (t : Int) : Option Int :=
  match c.lastEdge with
  | some (tl, p) => if t < tl + 512 && !(e.period == p && t == tl) then some (tl + 512) else none
  | none => none

/-- The driver after an edge at t: a park waits for the synthesizer's falling edge (03 R51). -/
def edgeDrive (s : State) (n : Nat) (c : Chan) (e : PinEdge) (next : Drv) (t : Int) : Chan :=
  if e.format == 4 && next == .vil then c.park s n t else c.drive s n next t

/-- Carry out an acting edge at t: older periods' edges are cancelled and count as slips (04 R83). -/
def carryEdge (s : State) (n : Nat) (e : PinEdge) (t : Int) (next : Drv) : State :=
  let gone := (s.chan n).edges.filter fun f => f.period < e.period
  let s := s.updChan n fun c =>
    { edgeDrive s n c e next t with lastEdge := some (t, e.period), edges := c.edges.filter fun f => !(f.period < e.period) }
  countSlips s n gone.length

/-- What an edge makes of the driver as it then stands. -/
def edgeNext (s : State) (n : Nat) (e : PinEdge) : Drv := edgeResult e.format e.code e.kind (drvAt s n e.at')

/-- The instant of a pending edge, judged from the level the driver now holds (04 R85). -/
def edgeDue (s : State) (n : Nat) (e : PinEdge) : Int := edgeTime s n e (edgeNext s n e)

/-- The pending edge that falls due first; on one step the order of 04 R82 (04 R83). -/
def nextEdge (s : State) (n : Nat) : Option PinEdge :=
  (s.chan n).edges.foldl (fun m e => match m with
    | some f => if edgeDue s n e < edgeDue s n f then some e else some f
    | none => some e) none

/-- A period of the sector of channel n that is not yet placed may have something at or before edge step t (04 R86). -/
def unplaced (s : State) (n : Nat) (t : Int) : Bool :=
  ((s.sec (n / 64)).ahead.find? fun i => !i.placed).any fun i => i.start - 1639 ≤ t

/-- Carry out a pending edge of a channel once it is due. It acts where it changes the driver's state: named levels are
compared, not their voltages (DESIGN CHOICE, log entry 65). One that falls too close, also one already delayed, is delayed
(04 R82, R83). Clock-format edges start no blank timer, nor does one before its channel is ACTIVE (03 R52, R58). An edge that
deskew puts before an apply that takes its channel out of HOLD or PMU does nothing (03 R63). -/
def driveEdge (s : State) (n : Nat) (e : PinEdge) : State :=
  let c := s.chan n
  let next := edgeNext s n e
  let t := edgeTime s n e next
  let blanks (s : State) : State := if e.format == 4 || (s.chan n).st != .active then s else startBlank s n t
  if !stepDue s t || unplaced s n t then s
  else
    let s := s.updChan n fun c => { c with edges := c.edges.erase e }
    if c.st != .active && c.st != .idle then s
    else if next == drvAt s n e.at' then blanks s
    else match tooClose c e t with
      | some t' => countSlips (s.updChan n fun c => { c with edges := insertEdge { e with at' := t', delayed := true } c.edges }) n 1
      | none => blanks (carryEdge s n e t next)

/-- DRIVER_EDGE (04 R83): the edge of the channel that falls due first. A period 0 has edges before its channels are ACTIVE
where deskew puts them before its start (04 R86); while the sweep holds short of that start no edge acts. -/
def execDriverEdge (ch : Fin 512) (s : State) : Host.Outcome State Fault Refusal :=
  .next <| match (s.chan ch).edges with
    | [] => s
    | _ => match repredict s (ch / 64) with
      | some s => match nextEdge s ch with
        | some e => driveEdge s ch e
        | none => s
      | none => s

/-! ### Compares and blanking (03 R54, R57 to R59; 04 R84) -/

/-- The compare of a channel that reaches its C0 next. -/
def nextCompare (c : Chan) : Option Compare :=
  (c.compares.filter fun k => !k.opened).foldl (fun m k => match m with
    | some j => if k.c0 < j.c0 then some k else some j
    | none => some k) none

/-- The period of a compare has not started. -/
def notStarted (s : State) (n : Nat) (k : Compare) : Bool := (s.sec (n / 64)).ahead.any fun i => i.num == some k.period

/-- A compare may be decided at edge step t: the tick of t is over, so that every crossing up to t is in (03 R54), its period
has started, and no period is to come that has anything before t (04 R86). -/
def compareDue (s : State) (n : Nat) (k : Compare) (t : Int) : Bool :=
  t < s.now * 256 && !notStarted s n k && !unplaced s n t

/-- A window that opens at t ends the window still open: truncated, unless its C1 is not after t (04 R84). -/
def ousted (s : State) (n : Nat) (t : Int) : State :=
  match openWindow (s.chan n) with
  | some j =>
    if j.c1 ≤ t then closeWindow s n j j.c1 false
    else (closeWindow s n j t true).updChan n fun c => { c with truncs := incSat 16 c.truncs }
  | none => s

/-- A compare reaches C0: in a wait it compares nothing; a strobe decides, CP is captured, a window opens (03 R54; 04 R84; 06
R121). -/
def reachC0 (s : State) (n : Nat) (k : Compare) : State :=
  let cls := classAt (s.chan n) k.c0
  if inWait s n k.c0 then oweLess (dropCompare s n k.period) n k.period
  else if k.code == 10 then deliver (dropCompare s n k.period) n k.period false (some cls) k.c0
  else if !k.window || k.c0 ≥ k.c1 then deliver (dropCompare s n k.period) n k.period (violates k.code cls) none k.c0
  else openAt (ousted s n k.c0) n k

/-- COMPARE_STROBE (03 R54): at C0 of the next compare. -/
def execCompareStrobe (ch : Fin 512) (s : State) : Host.Outcome State Fault Refusal :=
  .next <| match nextCompare (s.chan ch) with
    | some k => if compareDue s ch k k.c0 then reachC0 s ch k else s
    | none => s

/-- A compare of a channel is to open before edge step t: what changes its evaluation at t waits for it. -/
def opensBefore (s : State) (n : Nat) (t : Int) : Bool := (s.chan n).compares.any fun k => !k.opened && k.c0 < t

/-- COMPARE_WINDOW_CLOSE (03 R54, R59): at C1 of the open window, unless a window that opens earlier truncates it first. -/
def execCompareWindowClose (ch : Fin 512) (s : State) : Host.Outcome State Fault Refusal :=
  .next <| match openWindow (s.chan ch) with
    | some k => if compareDue s ch k (k.c1 - 1) && !opensBefore s ch k.c1 then closeWindow s ch k k.c1 false else s
    | none => s

/-- BLANK_TIMER_EXPIRY: the open windows of the lane group are evaluated at their first unblanked instant (03 R58, R59). -/
def execBlankTimerExpiry (lg : Fin 64) (s : State) : Host.Outcome State Fault Refusal :=
  .next <| match (s.lg lg).blankEnd with
    | some e =>
      let held := (List.range 8).any fun j => opensBefore s (8 * lg.val + j) e
      if stepDue s e && !held then
        forEach (List.range 8) (s.updLg lg fun l => { l with blankEnd := none }) fun j s =>
          let n := 8 * lg.val + j
          let m := s.setting 1 n 0x00C
          if m == 1 || m == 3 then evalOpen s n e else s
      else s
    | none => s

/-- EDGE_BLANKING_END: B1 of the interval that ends first (03 R57, R59). -/
def execEdgeBlankingEnd (ch : Fin 512) (s : State) : Host.Outcome State Fault Refusal :=
  .next <|
    let n := ch.val
    let first := (s.chan n).blanksDue.foldl (fun m p => match m with
      | some q => if p.2 < q.2 then some p else some q
      | none => some p) (none : Option (Int × Int))
    match first with
    | some p =>
      if !stepDue s p.2 || opensBefore s n p.2 then s
      else
        let m := s.setting 1 n 0x00C
        let s := match openWindow (s.chan n) with
          | some k => if (m == 2 || m == 3) && k.between.any (· < p.1) then endRun s n k p.1 else s
          | none => s
        let s := s.updChan n fun c => { c with blanksDue := c.blanksDue.filter (· != p) }
        if m == 2 || m == 3 then evalOpen s n p.2 else s
    | none => s

/-! ### Crossings (03 R53; 07 R139 to R145) -/

/-- The reference tick of the hold-off of a crossing (07 R140). -/
def holdRef (s : State) (n : Nat) (x : Cross) : Option Nat :=
  let c := s.chan n
  let atVol := x == .volFall || x == .volRise
  if s.setting 1 n 0x204 == 1 then (if atVol then c.refVol else c.refVoh)
  else match c.refVol, c.refVoh with
    | some a, some b => some (max a b)
    | some a, none => some a
    | none, b => b

/-- A start event of a type on a channel reaches the generators of its sector (07 R151). -/
def startWindows (s : State) (n type t : Nat) : State :=
  forEach (List.range 4) s fun g s =>
    let x := s.wg (n / 64) g
    if x.armed.isSome && x.src == 0 && x.sel == n % 64 + 64 * type then
      s.updWg (n / 64) g fun x => { x with due := x.due ++ [t] }
    else s

/-- The number of the TCLK tick that a stamp time lies in: edges fall on whole ticks and the fraction that alignment set (07
R143, R144; 16 R372). -/
def tickOfStamp (s : State) (t : Nat) : Int := ((t : Int) - s.tickFrac.toNat) / 65536

/-- An accepted crossing: interpolator, trigger tap, type filter, alignment (07 R139 steps 4 to 7, R141). -/
def acceptCrossing (s : State) (n : Nat) (x : Cross) (t code : Nat) : State :=
  let type := crossType x
  let tick := (tickOfStamp s t).toNat
  let atVol := x == .volFall || x == .volRise
  let s := s.updChan n fun c => if atVol then { c with refVol := some tick } else { c with refVoh := some tick }
  let dead : Bool := match (s.chan n).resolved with
    | some r => t < r + 419431
    | none => false
  if dead then tuCrossing (s.updChan n fun c => { c with deadMissed := incSat 32 c.deadMissed }) n type (65536 * tick) true
  else
    let r := stampRec type (stampTime s n (tickOfStamp s t + 2).toNat code)
    let s := s.updChan n fun c => { c with resolved := some t }
    let s := startWindows (tuCrossing s n type (r.tick * 65536 + r.fine) false) n type (r.tick * 65536 + r.fine)
    if s.setting 1 n 0x201 == 0 || !bitOf (s.settingN 1 n 0x202) type then s
    else s.updChan n fun c => { c with aligning := c.aligning ++ [(t + 6710887, r)] }

/-- COMPARATOR_CROSSING at stamp time t of the comparator, with the code its interpolator would give (03 R53, R54, R59, R60;
07 R139 to R142). -/
def execComparatorCrossing (ch : Fin 512) (x : Cross) (t : Nat) (code : BitVec 12) (s : State) :
    Host.Outcome State Fault Refusal :=
  .next <|
    let n := ch.val
    if !crossMoves (s.chan n) x then s
    else
      let step := stepOfStamp s t
      let s := takeCross s n x step
      let c := s.chan n
      if blankedAt s n step || c.st == .hold || c.st == .isolated || c.checking then s
      else
        let s := setFlag (evalOpen s n step) n (crossType x) (step / 256).toNat
        let near : Bool := match holdRef s n x with
          | some r => (tickOfStamp s t).toNat - r < s.settingN 1 n 0x203
          | none => false
        if near then s.updChan n fun c => { c with holdSuppressed := incSat 32 c.holdSuppressed }
        else acceptCrossing s n x t code.toNat

/-- A stamp time has fallen due by the end of the present tick. -/
def stampDue (s : State) (t : Nat) : Bool := t ≤ stampNow s + 65535

/-- A crossing at comparator time t lies before the opening of the stream that its channel is in: its record goes nowhere (07
R158). -/
def beforeStream (s : State) (n t : Nat) : Bool :=
  match streamOf s n with
  | some k => t < (s.stream k).since
  | none => false

/-- STAMP_ALIGNMENT_DONE: 64 ns on, the window test and the queue (07 R139 steps 7 to 9, R152, R162). -/
def execStampAlignmentDone (ch : Fin 512) (s : State) : Host.Outcome State Fault Refusal :=
  .next <|
    let n := ch.val
    match (s.chan n).aligning with
    | (due, r) :: rest =>
      if !stampDue s due then s
      else
        let s := s.updChan n fun c => { c with aligning := rest }
        if s.setting 1 n 0x201 == 0 then s
        else if s.setting 1 n 0x201 == 2 && !windowPass s n (r.tick * 65536 + r.fine) then
          s.updChan n fun c => { c with outsideWindow := incSat 32 c.outsideWindow }
        else if beforeStream s n (due - 6710887) then s.updChan n fun c => { c with stamps := addWrap 48 c.stamps 1 }
        else queueStamp s n r
    | [] => s

/-- The merger may take the first record of channel n: the channel is in an open stream and gave none in the last 8 ns, 64 fifths
of a tick; no
crossing of an earlier instant waits in its alignment, and a window record has waited the 64 ns too (07 R139, R157). -/
def mergeable (s : State) (n : Nat) : Bool :=
  match (s.chan n).queue with
  | r :: _ =>
    (streamOf s n).isSome && (s.chan n).mergeFrom ≤ 5 * s.now + 4 &&
    (s.chan n).aligning.all (fun q => !recBefore q.2 r) && (r.type ≤ 3 || stampDue s (r.tick * 65536 + r.fine + 6710887))
  | [] => false

/-- STAMP_MERGE: the next channel, in round robin, with a record to take; the merger takes one record per ns (07 R157,
R158). -/
def execStampMerge (s : State) : Host.Outcome State Fault Refusal :=
  .next <|
    if s.mergeNext > 5 * s.now + 4 then s
    else match ((List.range 512).map fun i => (s.mergeAt + 1 + i) % 512).find? (mergeable s) with
    | some n =>
      match (s.chan n).queue with
      | r :: rest =>
        raiseOwed <| sendStamp ({ s with mergeAt := n, mergeNext := max s.mergeNext (5 * s.now) + 8 }.updChan n fun c =>
          { c with queue := rest, mergeFrom := max c.mergeFrom (5 * s.now) + 64 }) n r
      | [] => s
    | none => s

/-- STAMP_BLOCK_FLUSH: FLUSH has passed since the block's first record (07 R160). -/
def execStampBlockFlush (stream : Fin 16) (ch : Fin 512) (s : State) : Host.Outcome State Fault Refusal :=
  .next <|
    let x := s.stream stream
    let c := s.chan ch
    if x.isOpen && x.dest == 1 && streamOf s ch == some stream.val && !c.block.isEmpty &&
        s.now - c.blockAt ≥ x.flush * usTicks then flushStampBlock s stream ch false
    else s

/-! ### Window generators (07 R150 to R154) -/

/-- A conversion is running on PE die d (02 R45). -/
def converting (s : State) (d : Nat) : Bool := (Tab.get none s.thm.running d).isSome

/-- The stamp time at which the sweep reached a position it has passed, to 2^-16 tick by the sweep rate (07 R151). -/
def stampOfPos (s : State) (p : Pos) : Nat := ((stampNow s : Int) + (passTime s p - s.now * 65536)).toNat

/-- A start at stamp time t waits: the window before it has reached its W_C and is not closed yet (07 R153). -/
def startWaits (s : State) (n g t : Nat) : Bool :=
  match (s.wg n g).win with
  | some w => w.2 ≤ t
  | none => false

/-- A start at stamp time t reaches generator g of sector n: ignored while a window is due or open (07 R152, R153). -/
def startAt (s : State) (n g t : Nat) : State :=
  let x := s.wg n g
  if x.win.isSome then s.updSec n fun y => { y with ignoredStarts := y.ignoredStarts + 1 }
  else
    let w (off : Nat) : Nat := 256 * ((t + 256 * off) / 256)
    s.updWg n g fun x => { x with win := some (w x.opens, w x.closes), isOpen := false, uncertain := false }


/-- WINDOW_GENERATOR_START: a sweep start falls due, or the earliest start event, at stamp time t, arrives (07 R151 to R153; 09
R192: the trigger units see sweep starts). -/
def execWindowGeneratorStart (sector : Fin 8) (wg : Fin 4) (t : Nat) (s : State) : Host.Outcome State Fault Refusal :=
  .next <|
    let n := sector.val
    let g := wg.val
    let x := s.wg n g
    if x.armed.isNone then s
    else if x.src == 1 then
      match findAct s (.window n g) with
      | some a =>
        let t := stampOfPos s a.pos
        if mayAct s a && !startWaits s n g t then
          tuAll (startAt (nextSweepStart s n g a 1) n g t) [2 * n, 2 * n + 1] (0x50 + g) 0 t
        else s
      | none => s
    else if x.due.contains t && x.due.all (t ≤ ·) &&
      !startWaits s n g t then startAt (s.updWg n g fun x => { x with due := x.due.erase t }) n g t
    else s

/-- WIN_OPEN at W_O (07 R152, R154; 02 R45). -/
def execWinOpen (sector : Fin 8) (wg : Fin 4) (s : State) : Host.Outcome State Fault Refusal :=
  .next <|
    let n := sector.val
    let g := wg.val
    let x := s.wg n g
    match x.win with
    | some (o, _) =>
      if x.armed.isSome && !x.isOpen && stampDue s o then
        let unc := converting s (n / 2)
        let s := s.updWg n g fun x =>
          { x with isOpen := true, uncertain := unc, firstPos := some (x.firstPos.getD (posAtStamp s o)) }
        forEach (followers s n g) s fun ch s =>
          if (s.chan ch).st == .hold || (s.chan ch).st == .isolated then s else queueStamp s ch (winRec 4 o g)
      else s
    | none => s

/-- WIN_CLOSE at W_C; the COUNT-th window ends the arming (07 R152 to R154, R156). -/
def execWinClose (sector : Fin 8) (wg : Fin 4) (s : State) : Host.Outcome State Fault Refusal :=
  .next <|
    let n := sector.val
    let g := wg.val
    let x := s.wg n g
    match x.win with
    | some (o, c) =>
      if x.armed.isSome && x.isOpen && stampDue s c then
        let last := x.count != 0xFFFFFFFF && x.done + 1 ≥ x.count
        let s := closeRecords s n g o c x.uncertain last false
        let s := s.updWg n g fun x => { x with
          isOpen := false, past := keptWins s n x.past ++ x.win.toList, win := none, done := x.done + 1, uncertain := false }
        if last then endArming s n g Status.ok else s
      else s
    | none => s

/-! ### TIM_ARM (07 R155, R156) -/

/-- 10 s in femtoseconds. -/
def tenSeconds : Nat := 10000000000000000

/-- The operands of ARM are in range (07 R155). -/
def timArmOk (sl : Slot) : Bool :=
  let src := sl.op 10 1
  let sel := sl.op 11 1
  let count := sl.op 12 4
  let opens := sl.op 16 8
  let closes := sl.op 24 8
  let stride := sl.op 40 8
  sl.op 9 1 ≤ 3 && src ≤ 2 && (src == 0 || (src == 1 && sel == 0) || (src == 2 && sel ≤ 7)) && count ≥ 1 &&
    opens ≤ tenSeconds && closes ≤ tenSeconds && stepsOf closes > stepsOf opens && (src == 1 || sl.zero 32 40) &&
    (if src == 1 && count > 1 then 1 ≤ stride && stride < 2 ^ 63 else stride == 0) && sl.zero 48 64 &&
    popcount 8 sl.secMask == 1

/-- TIM_ARM ARM (07 R155, R156; 02 R39, R42). An ACTION that names no action is refused here. -/
def execTimArmArm (id : Nat) (s : State) : Host.Outcome State Fault Refusal :=
  .next <| withDesc s id (fun sl => sl.opc == 0x20 && sl.op 8 1 != 1) fun sl =>
    let n := lowestBit 8 sl.secMask
    let g := sl.op 9 1
    let src := sl.op 10 1
    let p : Pos := BitVec.ofNat 64 (sl.op 32 8)
    guardedSched s id (src == 1)
      [(sl.op 8 1 != 0 || !timArmOk sl, Status.field, 0),
       (!sl.covers0 sl.secMask, Status.claim, 0),
       ((s.wg n g).armed.isSome, Status.consistency, 0),
       (inRecovery s (domSec n), Status.recovery, 0),
       (src == 1 && isLate s p 1000, Status.late, 0)]
      (let s := s.updWg n g fun x =>
          { armed := some id, src := src, sel := sl.op 11 1, count := sl.op 12 4, opens := (stepsOf (sl.op 16 8)).toNat,
            closes := (stepsOf (sl.op 24 8)).toNat, pos := p, stride := sl.op 40 8,
            checkPos := s.sweep.pos, past := x.past }
       let s := if src == 1 then schedule s { kind := .window n g, slot := some id, pos := p } else s
       park s id .ending)

/-- TIM_ARM DISARM (07 R155, R156). -/
def execTimArmDisarm (id : Nat) (s : State) : Host.Outcome State Fault Refusal :=
  .next <| withDesc s id (fun sl => sl.opc == 0x20 && sl.op 8 1 == 1) fun sl =>
    let n := lowestBit 8 sl.secMask
    let g := sl.op 9 1
    guarded s id
      [(g > 3 || !sl.zero 10 64 || popcount 8 sl.secMask != 1, Status.field, 0),
       (!sl.covers0 sl.secMask, Status.claim, 0)]
      (let armed := (s.wg n g).armed.isSome
       done (endArming s n g Status.ok) id Status.ok (b2n armed))

/-! ### STAMP_STREAM (07 R158) -/

/-- The operands of STAMP_STREAM are in range (07 R158). -/
def stampStreamOk (sl : Slot) : Bool :=
  let dest := sl.op 8 1
  let first := sl.op 12 2
  let count := sl.op 14 2
  let flush := sl.op 20 4
  dest ≤ 2 && (sl.op 9 1 == 0 || (dest == 0 && sl.op 9 1 == 1)) && sl.op 10 1 ≤ 15 &&
    (sl.op 11 1 == 0 || (dest == 1 && sl.op 11 1 ≤ 31)) && first ≤ 511 && 1 ≤ count && first + count ≤ 512 &&
    1 ≤ sl.op 16 4 && sl.op 16 4 ≤ 1000000000 && (if dest == 1 then 1 ≤ flush && flush ≤ 1000000 else flush == 0) &&
    sl.op 24 8 % 4096 == 0 && sl.op 32 8 % 4096 == 0 && (dest == 0 || sl.zero 24 40) && sl.zero 40 64

/-- Channels of a STAMP_STREAM. -/
def streamChans (first count : Nat) : List Nat := (List.range count).map (first + ·)

/-- The dies of some channels. -/
def chanDies (chans : List Nat) : List Nat := (chans.map (· / 128)).eraseDups

/-- STAMP_STREAM (07 R158; 01 R18, R20). The declared rate counts on the link of every die that has channels in the stream
(log entry 14). -/
def execStampStream (id : Nat) (s : State) : Host.Outcome State Fault Refusal :=
  .next <| withDesc s id (fun sl => sl.opc == 0x21) fun sl =>
    let dest := sl.op 8 1
    let k := sl.op 10 1
    let str := sl.op 11 1
    let first := sl.op 12 2
    let count := sl.op 14 2
    let rate := 8 * sl.op 16 4
    let base := sl.op 24 8
    let size := sl.op 32 8
    let chans := streamChans first count
    let dies := chanDies chans
    guarded s id
      [(!stampStreamOk sl, Status.field, 0),
       (dest == 0 && (size == 0 || (regionHolding s [4] base (count * size)).isNone), Status.length, 0),
       (chans.any fun n => !sl.covers0 (2 ^ (n / 64)), Status.claim, 0),
       ((s.stream k).isOpen || chans.any (fun n => (streamOf s n).isSome) || (dest == 1 && !strFree s str),
          Status.consistency, 0),
       (dest == 0 && !s.memUp, Status.testerFault, 0),
       ((dest == 0 && (!fitsStamp s rate || dies.any fun d => !fitsUp s d rate)) || (dest == 1 && !fitsHost s rate),
          Status.budget, 0)]
      (let s := if dest == 0 then forEach dies { s with mem.stamp := s.mem.stamp + rate } fun d s => takeUp s d rate
         else if dest == 1 then bindStr { s with mem.host := s.mem.host + rate } str else s
       let s := s.updStream k fun _ =>
         { isOpen := true, dest := dest, ringMode := sl.op 9 1 == 1, str := str, first := first, count := count,
           rate := rate, flush := sl.op 20 4, base := base, size := size, port := boundPort s 1 k,
           since := stampNow s }
       let s := meetPort s 1 k
       let s := forEach chans s fun n s => s.updChan n fun c =>
         { c with queue := [], queuePeak := 0, epochSent := none, lostCount := 0, lostTold := false,
                  wrOff := 0, wraps := 0, areaFull := false, block := [], prevStamp := none }
       done s id Status.ok 0)

end Sys2Proof.Machine
end

