-- ==== Sys2Proof/Machine/Dig.lean ====
section
/-! DEFINITION. The commands of the digitizers, their flows and acquisitions, the trigger units and the trigger bus (09), and
STREAM_CLOSE (14 R334). -/

namespace Sys2Proof.Machine

open Sys2Proof

/-! ### Descriptors (09 R204, R205, R213 to R216) -/

/-- The bytes of a mask table, with those that a command does not carry as 0 (log entry 9). -/
def maskTable (bytes : List Byte) : List Byte :=
  let head := hostBytes bytes 32
  hostBytes bytes (32 + 2 * (maskUp head + maskLo head))

/-- The operands of ARM are in range (09 R213). -/
def acqArmOk (sl : Slot) : Bool :=
  let d := sl.op 9 1
  let start := sl.op 10 1
  let sel := sl.op 11 1
  sl.op 8 1 == 0 && d ≤ 15 && start ≤ 3 &&
    (if start == 2 then sel ≤ 7 else if start == 3 then sel / 4 == d / 4 else sel == 0) &&
    sl.op 16 8 < 2 ^ 48 && (start == 1 || sl.zero 24 32) && sl.op 32 8 % 16 == 0 && sl.zero 40 64 && sl.secMask == 0

/-- ACQ_ARM ARM (09 R213, R216; 02 R39, R42). An ACTION that names no action is refused here. -/
def execAcqArmArm (id : Nat) (mask : List Byte) (s : State) : Host.Outcome State Fault Refusal :=
  .next <| withDesc s id (fun sl => sl.opc == 0x28 && sl.op 8 1 != 1) fun sl =>
    let n := sl.op 9 1
    let d := s.dig n
    let start := sl.op 10 1
    let p : Pos := BitVec.ofNat 64 (sl.op 24 8)
    let table := if sl.op 32 8 == 0 then [] else maskTable mask
    guardedSched s id (start == 1)
      [(!acqArmOk sl || (sl.op 32 8 != 0 && !maskOk table), Status.field, 0),
       (!sl.coversBit 2, Status.claim, 0),
       (d.acq != .idle || (!d.raw.isOpen && !d.dec.isOpen), Status.consistency, 0),
       (inRecovery s (domDig n), Status.recovery, 0),
       (throttled s, Status.throttled, 0),
       (((d.raw.isOpen && d.raw.dest == 0) || (d.dec.isOpen && d.dec.dest == 0)) && !s.memUp, Status.testerFault, 0),
       (start == 1 && isLate s p 1000, Status.late, 0)]
      (let s := s.updDig n fun d =>
         { d with acq := .armed, slot := some id, start := start, sel := sl.op 11 1, post := sl.op 12 4, len := sl.op 16 8,
                  startG := if start == 0 then some (sampleAt (stampNow s)) else none, last := none, cause := 0,
                  gapCount := 0, touched := false, mask := table, test := none, testSeq := 0, startPos := s.sweep.pos, line := [] }
       let s := if start == 1 then schedule s { kind := .acq n, slot := some id, pos := p } else s
       park s id .ending)

/-- The sample that a digitizer has taken last (09 R213: the current sample). -/
def currentSample (s : State) (n : Nat) : Nat := (s.dig n).g - 1

/-- ACQ_ARM STOP (09 R213 to R215). -/
def execAcqArmStop (id : Nat) (s : State) : Host.Outcome State Fault Refusal :=
  .next <| withDesc s id (fun sl => sl.opc == 0x28 && sl.op 8 1 == 1) fun sl =>
    let n := sl.op 9 1
    let d := s.dig n
    guarded s id
      [(n > 15 || !sl.zero 10 64 || sl.secMask != 0, Status.field, 0), (!sl.coversBit 2, Status.claim, 0)]
      (match d.acq with
       | .armed => done (endAcq s n Status.ok) id Status.ok 1
       | .running => done (stopCause s n 4 (currentSample s n) d.post) id Status.ok 1
       | _ => done s id Status.ok 0)

/-- The admitted rate of a flow in bytes per second (09 R204). -/
def flowRate (s : State) (n : Nat) (dec : Bool) : Nat :=
  let num := if dec then 500000000 * 64 else 250000000 * 64
  let den := if dec then 63 * 2 ^ decK s n else 63
  (num + den - 1) / den

/-- The operands of STREAM_OPEN are in range (09 R204). -/
def streamOpenOk (sl : Slot) : Bool :=
  let dest := sl.op 10 1
  let base := sl.op 16 8
  let size := sl.op 24 8
  let flush := sl.op 32 4
  sl.op 8 1 ≤ 15 && sl.op 9 1 ≤ 1 && dest ≤ 2 && (if dest == 0 then sl.op 11 1 ≤ 1 else sl.op 11 1 == 0) &&
    (if dest == 1 then sl.op 12 1 ≤ 31 else sl.op 12 1 == 0) && sl.zero 13 16 &&
    (if dest == 0 then base % 4096 == 0 && size % 4096 == 0 && size != 0 else base == 0 && size == 0) &&
    (if dest == 1 then 1 ≤ flush && flush ≤ 1000000 else flush == 0) && sl.zero 36 64

/-- STREAM_OPEN (09 R204, R205; 13 R309). -/
def execStreamOpen (id : Nat) (s : State) : Host.Outcome State Fault Refusal :=
  .next <| withDesc s id (fun sl => sl.opc == 0x29) fun sl =>
    let n := sl.op 8 1
    let dec := sl.op 9 1 == 1
    let dest := sl.op 10 1
    let str := sl.op 12 1
    let base := sl.op 16 8
    let size := sl.op 24 8
    let rate := flowRate s n dec
    guarded s id
      [(!streamOpenOk sl, Status.field, 0),
       (dest == 0 && (regionHolding s [3] base size).isNone, Status.length, 0),
       (!sl.coversBit 2, Status.claim, 0),
       ((getFlow (s.dig n) dec).isOpen || (s.dig n).acq != .idle || (dec && decK s n == 0) ||
          (dest == 1 && !strFree s str), Status.consistency, 0),
       (dest == 0 && !s.memUp, Status.testerFault, 0),
       ((dest == 0 && (!fitsCapture s rate || !fitsUp s (n / 4) rate)) || (dest == 1 && !fitsHost s rate), Status.budget, 0)]
      (let s := if dest == 0 then takeUp { s with mem.capture := s.mem.capture + rate } (n / 4) rate
         else if dest == 1 then bindStr { s with mem.host := s.mem.host + rate } str else s
       let s := s.updFlow n dec fun _ =>
         { isOpen := true, dest := dest, ringMode := sl.op 11 1 == 1, str := str, base := base, size := size,
           flush := sl.op 32 4, rate := rate, port := boundPort s 2 (n + 16 * b2n dec) }
       let s := meetPort s 2 (n + 16 * b2n dec)
       done s id Status.ok ((rate + 999) / 1000))

/-- Mark the engine port bound to a closing source (12 R273). -/
def closePort (s : State) : Option (Nat × Nat) → State
  | some (e, p) => s.updIn e p fun x => { x with closed := true }
  | none => s

/-- The stop cause of a STREAM_CLOSE of the last open flow: the current sample is the last kept one, and in a DEC flow the last Q
delivered; an earlier cause stands, and its stop record moves there (09 R205, R214). -/
def closeStop (s : State) (n : Nat) (dec : Bool) : State :=
  let d := s.dig n
  let cur := currentSample s n
  let cause := if d.cause = 0 then 5 else d.cause
  let isStop (r : FlowRec) : Bool := field r.bytes 0 1 == 3 && field r.bytes 1 1 == 1
  let last := match d.last with
    | some l => min l cur
    | none => cur
  let s := trimLine (s.updDig n fun d => { d with acq := .post, cause := cause, last := some last }) n last
  let s := s.updFlow n dec fun f => { f with recs := f.recs.filter fun r => !isStop r }
  addRec s n dec (stopRec cause (if dec then min (d.q - 1) (last / 2 ^ decK s n) else last))

/-- Close a flow: during RUNNING or POST it ends with a LAST block, for which the ARM waits, and the last open flow ends the
acquisition (09 R205, R214, R215). -/
def closeFlow (s : State) (id n : Nat) (dec : Bool) : State :=
  let d := s.dig n
  let f := getFlow d dec
  let other := getFlow d (!dec)
  let ends := acqRuns d && !other.isOpen
  let s := if ends then endAcq (closeStop s n dec) n Status.ok else if acqRuns d then lastBlock s n dec else s
  let s := if acqRuns d && !ends && f.dest == 1 then
      s.updDig n fun d => { d with closing := d.closing ++ [(f.str, (s.ring .str f.str).unseen)] }
    else s
  let lost := satTo 32 (getFlow (s.dig n) dec).lostTotal
  let s := closePort s f.port
  let s := s.updFlow n dec fun _ => {}
  let s := if f.dest == 0 then giveUp { s with mem.capture := s.mem.capture - f.rate } (n / 4) f.rate
    else if f.dest == 1 then { s with mem.host := s.mem.host - f.rate } else s
  if f.dest == 1 then closeStr s f.str id lost else done s id Status.ok lost

/-- Close a stamp stream: queued records are delivered, a LINEAR area that dropped records takes its LOST record, and blocks
in progress go to staging (07 R159, R160; 14 R334; log entry 15). -/
def closeStamps (s : State) (id k : Nat) : State :=
  let x := s.stream k
  let chans := streamChans x.first x.count
  let s := forEach chans s fun n s =>
    forEach (s.chan n).queue (s.updChan n fun c => { c with queue := [] }) fun r s => sendStamp s n r
  let s := forEach chans s fun n s =>
    let c := s.chan n
    if x.dest == 0 && !x.ringMode && c.areaFull && s.memUp then
      let (s, bad) := rmwWrite s (x.base + (n - x.first) * x.size + x.size - 8) (leBytes 8 (lostWord c.lostFirst c.lostCount))
      if bad then notice0 s n 57 0 else s
    else s
  let open' := chans.filter fun n => !(s.chan n).block.isEmpty
  let s := if x.dest == 1 then
      forEach open' s fun n s =>
        let b := (s.chan n).block
        let t := match b with
          | r :: _ => r.tick
          | [] => 0
        let bytes := stampBlock n (blockWords (t / 2 ^ 45) b) t (s.stream k).blockSeq
        (stageBlock s x.str bytes (open'.getLast? == some n)).updStream k fun x => { x with blockSeq := addWrap 32 x.blockSeq 1 }
    else s
  let s := forEach chans s fun n s => s.updChan n fun c => { c with block := [] }
  let lost := satTo 32 (s.stream k).lost
  let s := closePort s x.port
  let s := s.updStream k fun _ => {}
  let s := if x.dest == 0 then
      forEach (chanDies chans) { s with mem.stamp := s.mem.stamp - x.rate } fun d s => giveUp s d x.rate
    else if x.dest == 1 then { s with mem.host := s.mem.host - x.rate } else s
  if x.dest == 1 then closeStr s x.str id lost else done s id Status.ok lost

/-- STREAM_CLOSE (14 R334; 09 R205; 13 R310). -/
def execStreamClose (id : Nat) (s : State) : Host.Outcome State Fault Refusal :=
  .next <| withDesc s id (fun sl => sl.opc == 0x2A) fun sl =>
    let kind := sl.op 8 1
    let n := sl.op 9 1
    let dec := sl.op 10 1 == 1
    let x := s.stream n
    let open' := if kind == 0 then x.isOpen else (getFlow (s.dig n) dec).isOpen
    let unclaimed := if kind == 0 then
        x.isOpen && (streamChans x.first x.count).any fun c => !sl.covers0 (2 ^ (c / 64))
      else !sl.coversBit 2
    guarded s id
      [(kind > 1 || n > 15 || sl.op 10 1 > kind || !sl.zero 11 64, Status.field, 0),
       (unclaimed, Status.claim, 0),
       (!open', Status.consistency, 0)]
      (let s := park s id .ending
       if kind == 0 then raiseOwed (closeStamps s id n) else closeFlow s id n dec)

/-! ### Samples (09 R188, R189, R193, R210, R217) -/

/-- Keep raw sample g of value v, where the acquisition keeps it: the RAW flow, the mask test, LENGTH (09 R210, R212, R214,
R217). -/
def keepSample (s : State) (n g : Nat) (v : BitVec 16) (lost sat : Bool) : State :=
  let d := s.dig n
  let kept := acqRuns d && d.g0 ≤ g && (match d.last with
    | some l => g ≤ l
    | none => true)
  if !kept then s
  else
    let x : DigSample := ⟨g, v, lost, sat, posAtStamp s (sampleTime g), s.now⟩
    let s := s.updDig n fun d =>
      { d with kept := addWrap 48 d.kept 1, keptTo := g + 1, line := if d.raw.isOpen then d.line ++ [x] else d.line }
    let s := maskSample s n g v.toInt lost
    if d.len != 0 && g + 1 == d.g0 + d.len then stopCause s n 1 g 0 else s

/-- The comparator bits of a digitizer after a sample, and the derived crossings in their order (09 R193). -/
def derivedOf (s : State) (n : Nat) (v : Int) : Bool × Bool × List Nat :=
  let d := s.dig n
  let hys := s.setting 7 n 8
  let bit (t : Int) (was : Bool) : Bool := if 2 * v > 2 * t + hys then true else if 2 * v < 2 * t - hys then false else was
  let lo := bit (s.setting 7 n 6) d.lo
  let hi := bit (s.setting 7 n 7) d.hi
  let loEv := if lo == d.lo then [] else if lo then [1] else [0]
  let hiEv := if hi == d.hi then [] else if hi then [3] else [2]
  (lo, hi, if hi == d.hi || hi then loEv ++ hiEv else hiEv ++ loEv)

/-- Nothing is connected to the input of a digitizer: it is under check (20 R454), or the channel that it taps is ISOLATED, which
opens the tap (09 R186). -/
def inputOpen (s : State) (n : Nat) : Bool :=
  (s.dig n).checking || (s.setting 7 n 1 == 1 && (s.chan (128 * (n / 4) + s.settingN 7 n 2)).st == .isolated)

/-- A raw sample of digitizer n from the converter's code v: corrected, and whether it saturated; without an input the converter's
code is a free value (09 R186, R187; 20 R442, R454; log entries 3, 77 and 86). -/
def rawSample (s : State) (n : Nat) (v : BitVec 16) : BitVec 16 × Bool × State :=
  let (w, s) := if inputOpen s n then s.fresh else (v.setWidth 64, s)
  let raw := (w.setWidth 16).toInt
  let x := (digCal s n).code 16 raw
  let full (y : Int) : Bool := y == 32767 || y == -32768
  (BitVec.ofInt 16 x, full raw || full x, s)

/-- The chunks of the decimator after raw sample g (09 R189, R206). -/
def chunksAfter (s : State) (n g : Nat) (sat : Bool) : List DecChunk :=
  let d := s.dig n
  let q := g / 2 ^ decK s n
  let x : DecChunk := ⟨q, posAtStamp s (sampleTime g), sat, converting s (n / 4), inputOpen s n, digCal s n⟩
  match d.chunks.getLast? with
  | some c =>
    if c.q == q then d.chunks.dropLast ++ [{ x with pos := c.pos, sat := c.sat || sat, unc := c.unc || x.unc, cut := c.cut || x.cut }]
    else d.chunks.drop (d.chunks.length + 1 - 80) ++ [x]
  | none => [x]

/-- DIG_SAMPLE: digitizer n takes its next raw sample, its converter giving code v; the samples that every mark has reached are
placed (09 R188, R191, R193, R197, R210, R217; 20 R442). A code of -32,768 or 32,767 counts as saturated (09 R187, R206; DESIGN
CHOICE, log entry 77). -/
def execDigSample (n : Fin 16) (v : BitVec 16) (s : State) : Host.Outcome State Fault Refusal :=
  .next <|
    let d := s.dig n
    if !s.running || !stampDue s (sampleTime d.g) then s
    else
      let lost := isContained s (domDig n)
      let (v, sat, s) := rawSample s n v
      let (lo, hi, evs) := derivedOf s n v.toInt
      let chunks := if decK s n == 0 then [] else chunksAfter s n d.g sat
      let s := s.updDig n fun d =>
        { d with g := d.g + 1, chunks := chunks, recent := (d.recent ++ [(v, lost, sat)]).drop ((d.recent.length + 1) - 64),
                 lo := if lost then d.lo else lo, hi := if lost then d.hi else hi }
      let s := if lost then s else forEach evs s fun ev s => tuDerived s n ev (sampleTime d.g)
      drainLine (keepSample s n d.g v lost sat) n false

/-- The first raw sample of the support of decimated sample Q: it is 64 × 2^k samples wide, centred on Q's label (09
R189). -/
def supportStart (k q : Nat) : Int := ((q : Int) - 32) * 2 ^ k

/-- The value of decimated sample q of digitizer n from the decimator's value v: corrected as the last raw sample of its support
was, so an overlay entry written after that sample leaves it alone (20 R442, R447; log entry 86); free where the support holds
samples of an open line (20 R454; log entry 3). -/
def decValue (s : State) (n q : Nat) (v : BitVec 24) : BitVec 24 × State :=
  let support := (s.dig n).chunks.filter fun c => q ≤ c.q + 32 && c.q < q + 32
  let (w, s) := if support.any (·.cut) then s.fresh else (v.setWidth 64, s)
  let cal := match support.getLast? with
    | some c => c.cal
    | none => digCal s n
  (BitVec.ofInt 24 (cal.code 24 (w.setWidth 24).toInt), s)

/-- DEC_SAMPLE: the decimator puts out its next sample, of value v before correction, once its support is complete; it is OVERRANGE
or UNCERTAIN where a raw sample of its support saturated or overlapped a conversion (09 R189, R206, R210, R211; 20 R442). -/
def execDecSample (n : Fin 16) (v : BitVec 24) (s : State) : Host.Outcome State Fault Refusal :=
  .next <|
    let d := s.dig n
    let k := decK s n
    let q := d.q
    let inRun := match d.last with
      | some l => q * 2 ^ k ≤ l
      | none => true
    if k == 0 || !acqRuns d || !d.dec.isOpen || !inRun || (d.g : Int) < supportStart k (q + 64) then s
    else
      let lost := isContained s (domDig n) || supportStart k q < (d.decFrom : Int)
      let support := d.chunks.filter fun c => q ≤ c.q + 32 && c.q < q + 32
      let clipped := support.any (·.sat)
      let unc := support.any (·.unc)
      let pos := match d.chunks.find? fun c => c.q == q with
        | some c => c.pos
        | none => posAtStamp s (sampleTime (q * 2 ^ k))
      let (v, s) := decValue s n q v
      let s := s.updDig n fun d => { d with q := q + 1 }
      if lost then loseSample s n true q 4
      else flowSample s n true q (v.toNat + b2n clipped * 2 ^ 24 + b2n unc * 2 ^ 25) clipped unc pos s.now

/-! ### Acquisitions (09 R212, R214, R215) -/

/-- Start an acquisition at sample g0: its STATUS start record, a mask test anchored on the start, and the samples already
taken from g0 on (09 R212, R217). -/
def startAcq (s : State) (n g0 : Nat) : State :=
  let k := decK s n
  let s := (unschedule s (.acq n)).updDig n fun d =>
    { d with acq := .running, g0 := g0, keptTo := g0, startG := none, startPos := posAtStamp s (sampleTime g0), decFrom := g0,
             q := (g0 + 2 ^ k - 1) / 2 ^ k + 32 }
  let s := addRecs s n (fun q => mkRec 3 0 0 0 q 0 0) g0
  let d := s.dig n
  let s := if !d.mask.isEmpty && maskAnchor d.mask = 0 then maskStart s n g0 else s
  let first := d.g - d.recent.length
  forEach d.recent.zipIdx s fun p s => keepSample s n (first + p.2) p.1.1 p.1.2.1 p.1.2.2

/-- ACQ_START: the start event of an armed acquisition has come (09 R212, R213). -/
def execAcqStart (n : Fin 16) (s : State) : Host.Outcome State Fault Refusal :=
  .next <|
    let d := s.dig n
    if d.acq != .armed then s
    else match d.startG with
      | some g => startAcq s n g
      | none => match findAct s (.acq n) with
        | some a => if mayAct s a then startAcq s n (sampleAt (stampOfPos s a.pos)) else s
        | none => s

/-- ACQ_POST_DONE: the last kept sample of every open flow has passed, and every mark at it is decided (09 R197, R212, R214,
R215). -/
def execAcqPostDone (n : Fin 16) (s : State) : Host.Outcome State Fault Refusal :=
  .next <|
    let d := s.dig n
    match d.acq, d.last with
    | .post, some l =>
      if l < d.g && stampDue s (sampleTime (l + 30)) && (!d.dec.isOpen || l < d.q * 2 ^ decK s n) then endAcq s n Status.ok else s
    | _, _ => s

/-- FLOW_BLOCK_DELIVER: a full block, or on the host one whose FLUSH has passed (09 R209). -/
def execFlowBlockDeliver (n : Fin 16) (dec : Bool) (s : State) : Host.Outcome State Fault Refusal :=
  .next <|
    let f := getFlow (s.dig n) dec
    let full := f.samples.length ≥ blockCap dec f.block.length
    let flush := f.dest == 1 && s.now - f.firstAt ≥ f.flush * usTicks
    if f.isOpen && f.dest != 2 && !f.samples.isEmpty && (full || flush) && blockRoom s n f then deliverBlock s n dec false
    else s

/-! ### Trigger units (09 R194, R198) -/

/-- Fire unit u at sample g on the hits of that sample, the first of them at td (09 R198, R200, R203). -/
def fireUnit (s : State) (u g td : Nat) (hits : List TuHit) : State :=
  let cause := hits.foldl (fun c h => c ||| 2 ^ h.slot) 0
  let coarse := hits.any fun h => h.t == td && h.coarse
  let seq := (s.tu u).firings
  let s := s.updTu u fun x =>
    { x with firings := addWrap 32 x.firings 1, lastG := g + 1,
             holdoff := some (sampleTime g + (stampUnits (tuSet s u 4 td)).toNat) }
  fireActions s u g td cause seq coarse

/-- A completion lies in the hold-off of its unit, one that has ended since or one that runs, or at or before the sample of its
last firing (09 R198). -/
def inHoldoff (x : TrigUnit) (k : TuHit) : Bool :=
  sampleAt k.t < x.lastG || k.t < x.heldTo || (match x.holdoff with
    | some e => k.t < e
    | none => false)

/-- The decision instant of a TIMEOUT that starts at t0: by the T_MAX of the start, unless an apply changes it before (09 R194,
R197). -/
def timeoutAt (s : State) (u m t0 : Nat) : Nat :=
  let at' (v : Int) : Nat := t0 + (stampUnits v).toNat
  let v := slotPar s u m 5 t0
  if slotPar s u m 5 (at' v) == v then at' v else at' (s.setting 8 u (0x105 + 16 * m))

/-- An input of source code c that the device still owes unit u has an event at or before stamp time t (09 R192, R197): a
digitizer has not taken its samples so far, a sweep start or a MARK vector's period start has not been seen. Crossings and line
edges come with their ticks. -/
def inputOwed (s : State) (u c t : Nat) : Bool :=
  let n := u / 2
  if 0x40 ≤ c && c ≤ 0x43 then sampleTime (s.dig (4 * (u / 4) + (c - 0x40))).g ≤ t
  else if 0x50 ≤ c && c ≤ 0x53 then
    (s.wg n (c - 0x50)).armed.isSome && (s.wg n (c - 0x50)).src == 1 && (match findAct s (.window n (c - 0x50)) with
      | some a => isDue s a && stampOfPos s a.pos ≤ t
      | none => false)
  else if c == 0x48 then
    let x := s.sec n
    starts x.st && x.waitEnd.isNone && (match x.ahead.head? with
      | some i => i.placed && vOpc i.word == 0x0A && (stampOfStep s i.start : Int) ≤ t
      | none => false)
  else false

/-- Every input of unit u up to sample g has arrived (09 R197; 01 R14): the tick of the sample is over, no source of a slot owes an
event up to it, and no TIMEOUT that falls due by it is undecided. -/
def inputsIn (s : State) (u g : Nat) : Bool :=
  let t := sampleTime g
  t < stampNow s && (List.range 4).all fun m =>
    let k := Tab.get {} (s.tu u).slots m
    (slotPar s u m 0 t == 0 || !inputOwed s u (slotPar s u m 1 t).toNat t) &&
    !k.start.any fun t0 => timeoutAt s u m t0 ≤ t && slotPar s u m 0 (timeoutAt s u m t0) == 4 && !k.fired

/-- TU_DECISION: the completions of the earliest sample are decided, once every input up to that sample has arrived: those in
hold-off are counted, and of the others those at which the gate holds fire the unit (09 R196 to R198). -/
def execTuDecision (u : Fin 16) (s : State) : Host.Outcome State Fault Refusal :=
  .next <|
    let x := s.tu u
    match x.hits with
    | [] => s
    | h :: rest =>
      let g := sampleAt (rest.foldl (fun m k => min m k.t) h.t)
      if !inputsIn s u g then s
      else
        let mine := x.hits.filter fun k => sampleAt k.t == g
        let held := mine.filter (inHoldoff x)
        let s := s.updTu u fun x =>
          { x with hits := x.hits.filter fun k => sampleAt k.t != g, suppressed := satTo 32 (x.suppressed + held.length) }
        match mine.filter fun k => !inHoldoff x k && gateHolds s u k.t with
        | [] => s
        | k :: more => fireUnit s u g (more.foldl (fun m k => min m k.t) k.t) (k :: more)

/-- TU_TIMEOUT: a TIMEOUT slot reaches start + T_MAX without the signal's return; it fires once for each stay (09 R194). -/
def execTuTimeout (u : Fin 16) (slot : Fin 4) (s : State) : Host.Outcome State Fault Refusal :=
  .next <|
    let k := Tab.get {} (s.tu u).slots slot
    match k.start with
    | some t0 =>
      let td := timeoutAt s u slot t0
      if slotPar s u slot 0 td != 4 || k.fired || !stampDue s td then s
      else
        let s := s.updTuSlot u slot fun k => { k with start := none, fired := true }
        if tuSet s u 1 td == 1 && stillCounts k.cut t0 td then
          s.updTu u fun x => { x with hits := x.hits ++ [⟨slot, td, false⟩] }
        else s
    | none => s

/-- TU_HOLDOFF_END: HOLDOFF has run from the time of the firing's sample (09 R198). -/
def execTuHoldoffEnd (u : Fin 16) (s : State) : Host.Outcome State Fault Refusal :=
  .next <| match (s.tu u).holdoff with
    | some e => if stampDue s e then s.updTu u fun x => { x with holdoff := none, heldTo := e } else s
    | none => s

/-! ### Trigger bus (09 R192, R200; 07 R151; 10 R232; 16 R373) -/

/-- The line delay that an aligned worker takes off the arrival of every line edge (16 R373). -/
def lineDelay (s : State) : Nat :=
  if s.grp.keeper || !s.grp.aligned then 0
  else match Tab.get none s.grp.delays s.grp.groupId with
    | some (_, l) => l
    | none => 0

/-- Line TB[k] changes, as received at stamp time t (09 R192; 16 R373): the trigger units see both edges; an assertion starts
windows, acquisitions and triggers of sources. -/
def lineEdge (s : State) (k : Nat) (asserted : Bool) (t : Nat) : State :=
  let t := t - lineDelay s
  let s := s.updLine k fun x =>
    { x with asserted := asserted, edges := (x.edges.filter fun e => e.1 + usStamp > t) ++ [(t, asserted)] }
  let s := tuAll s (List.range 16) (0x58 + k) (if asserted then 0 else 1) t
  if !asserted then s
  else
    let s := forEach (List.range 8) s fun n s => forEach (List.range 4) s fun g s =>
      let x := s.wg n g
      if x.armed.isSome && x.src == 2 && x.sel == k then s.updWg n g fun x => { x with due := x.due ++ [t] } else s
    let s := forEach (List.range 16) s fun n s =>
      let d := s.dig n
      if d.acq == .armed && d.start == 2 && d.sel == k && d.startG.isNone then
        s.updDig n fun d => { d with startG := some (sampleAt t) }
      else s
    forEach (List.range 16) s fun n s =>
      if s.setting 6 n 12 == 1 && s.setting 6 n 13 == (k : Int) then
        s.updAwg n fun a => { a with due := a.due ++ [t] }
      else s

/-- This device drives line TB[k] with a pulse (09 R200; 10 R237). -/
def drivesLine (s : State) (k : Nat) : Bool := (s.line k).pulseEnd.any fun e => decide (s.now < e)

/-- TB_LINE_EDGE: line TB[k] changes, as received at stamp time t (09 R192). The line stays asserted while this device drives it (16
R365). -/
def execTbLineEdge (line : Fin 8) (asserted : Bool) (t : Nat) (s : State) : Host.Outcome State Fault Refusal :=
  .next <|
    if (s.line line).asserted == asserted || !stampDue s t || (!asserted && drivesLine s line) then s
    else lineEdge s line asserted t

/-- Lines that this device drives are asserted: a pulse on a released line is received by the end of the tick (16 R364, R365;
DEDUCED, log entry 84). -/
def ownLines (s : State) : State :=
  forEach (List.range 8) s fun k s =>
    if drivesLine s k && !(s.line k).asserted then lineEdge s k true (stampNow s) else s

/-- TB_PULSE_END: this device's pulse on a line ends (09 R200). -/
def execTbPulseEnd (line : Fin 8) (s : State) : Host.Outcome State Fault Refusal :=
  .next <| match (s.line line).pulseEnd with
    | some e => if e ≤ s.now then s.updLine line fun x => { x with pulseEnd := none } else s
    | none => s

end Sys2Proof.Machine
end

