-- ==== Sys2Proof/Machine/AwgCmd.lean ====
section
/-! DEFINITION. The commands of the waveform sources (10). -/

namespace Sys2Proof.Machine

open Sys2Proof

/-! ### Sequence table and segments (10 R224 to R228) -/

/-- An entry's own bits are in range (10 R227, R228). -/
def entryOk (e : BitVec 64) : Bool :=
  let n := e.toNat
  eMark e != 3 && bits n 11 10 == 0 && bits n 31 28 == 0 && bits n 63 56 == 0 && (eRepeat e != 0 || n == 0)

/-- AWG_SEQ (10 R228); DETAIL of a refused entry is its index in the table. -/
def execAwgSeq (id : Nat) (data : List Byte) (s : State) : Host.Outcome State Fault Refusal :=
  .next <| withDesc s id (fun sl => sl.opc == 0x30) fun sl =>
    let n := sl.op 8 1
    let a := s.awg n
    let first := sl.op 10 2
    let count := sl.op 12 2
    let es : List (BitVec 64) := (chunks 8 count (hostBytes data (8 * count))).map fun b => BitVec.ofNat 64 (leNat b)
    let operands := n ≤ 15 && sl.zero 9 10 && first ≤ 4095 && 1 ≤ count && count ≤ 4096 && sl.zero 14 16 &&
      sl.op 16 8 % 8 == 0 && sl.zero 24 64 && sl.secMask == 0
    let badEntry := es.findIdx? fun e => !entryOk e
    let badActive := (List.range count).find? fun i => entryActive a (first + i)
    let badSeg := es.findIdx? fun e => eRepeat e != 0 && (match awgSegOf a (eSeg e) with
      | none => true
      | some g => g.kind == 2 && awgBusy a && !a.streaming)
    guarded s id
      [(!operands, Status.field, 0),
       (badEntry.isSome, Status.field, first + badEntry.getD 0),
       (first + count > 4096, Status.length, 0),
       (!sl.coversBit 1, Status.claim, 0),
       (badActive.isSome, Status.segmentActive, first + badActive.getD 0),
       (badSeg.isSome, Status.consistency, first + badSeg.getD 0)]
      (let s := s.updAwg n fun a =>
         { a with table := es.zipIdx.foldl (fun t p => Tab.set 0 t (first + p.2) p.1) a.table }
       done s id Status.ok count)

/-- Granules of a source's resident segments (10 R223). -/
def residentGranules : Nat := 8064

/-- The operands of AWG_WRITE are in range (10 R225): kind 0 RESIDENT, 1 STREAMED, 2 FREE. -/
def awgWriteOk (sl : Slot) : Bool :=
  let kind := sl.op 9 1
  let space := sl.op 12 1
  let addr := sl.op 16 8
  sl.op 8 1 ≤ 15 && kind ≤ 2 && sl.op 10 2 ≤ 1023 && space ≤ 1 && (kind != 1 || space == 1) && (kind != 2 || space == 0) &&
    sl.zero 13 16 && addr % 4 == 0 && (kind != 1 || addr % 128 == 0) && (kind != 2 || (addr == 0 && sl.op 24 8 == 0)) &&
    (if kind == 0 then sl.op 32 4 ≤ 8063 else sl.op 32 4 == 0) && sl.zero 36 64 && sl.secMask == 0

/-- Write samples to the buffer of a source from a sample index on. -/
def writeSamples (a : Awg) (k : Nat) (bytes : List Byte) : Awg :=
  let put (t : Tab (BitVec 16)) (p : List Byte × Nat) : Tab (BitVec 16) := Tab.set 0 t (k + p.2) (BitVec.ofNat 16 (leNat p.1))
  { a with buffer := (chunks 2 (bytes.length / 2) bytes).zipIdx.foldl put a.buffer }

/-- A RESIDENT write of `len` samples at granule `base`: a defining one overlaps another segment, or an occupied entry has
another base or length (10 R225 test 4). -/
def residentClash (a : Awg) (seg base len : Nat) : Bool :=
  match awgSegOf a seg with
  | some g => !(g.kind == 1 && g.base == base && g.len == len)
  | none => a.dir.any fun p => match p.2 with
    | some g => p.1 != seg && g.kind == 1 && overlap (64 * g.base) g.len (64 * base) len
    | none => false

/-- A RESIDENT write copies its next granules, `k` of them or as many as are left: it stops where an occupied SEG has become active
or the source bytes prove bad, and completes after the last (10 R226; 21 R470). -/
def copyGranules (s : State) (id : Nat) (sl : Slot) (data : List Byte) (k : Nat) : State :=
  let n := sl.op 8 1
  let seg := sl.op 10 2
  let ddr := sl.op 12 1 == 1
  let len := sl.op 24 8
  let base := sl.op 32 4
  let from' := sl.progress
  let upTo := min (len / 64) (from' + k)
  let src := sl.op 16 8 + 128 * from'
  let size := 128 * (upTo - from')
  if dmaWaits s ddr then s
  else if (awgSegOf (s.awg n) seg).isSome && awgSegActive (s.awg n) seg then done s id Status.segmentActive from'
  else
    let bytes := if ddr then ddrRead s src size else ((hostBytes data (2 * len)).drop (128 * from')).take size
    let put (m : Nat) : State := s.updAwg n fun a => writeSamples a (64 * (base + from')) (bytes.take (128 * m))
    match (if ddr then badBeats s src size else []) with
    | b :: _ =>
      let m := (4 * b - src) / 128
      let (s, _) := scanRead (correctRead (put m) src (128 * m)) (4 * b / 64 * 64) 64
      done s id Status.testerFault (from' + m)
    | [] =>
      let s := put (upTo - from')
      let s := if ddr then correctRead s src size else s
      if upTo < len / 64 then s.updSlot id fun x => { x with progress := upTo }
      else done (s.updAwg n fun a => { a with dir := Tab.set none a.dir seg (some ⟨1, base, len⟩) }) id Status.ok (len / 64)

/-- AWG_WRITE: a STREAMED write or a FREE at once; of a RESIDENT write the next `granules` granules, the tests before the first
of them (10 R225, R226). -/
def execAwgWrite (id : Nat) (data : List Byte) (granules : Nat) (s : State) : Host.Outcome State Fault Refusal :=
  .next <| withDesc s id (fun sl => sl.opc == 0x31 && !dmaHeld s id sl) fun sl =>
    let n := sl.op 8 1
    let a := s.awg n
    let kind := sl.op 9 1
    let seg := sl.op 10 2
    let ddr := sl.op 12 1 == 1
    let src := sl.op 16 8
    let len := sl.op 24 8
    let base := sl.op 32 4
    let region := regionHolding s (if kind == 1 then [2] else [2, 6]) src (2 * len)
    let badLen := len < 256 || len % 64 != 0 || (kind == 0 && base + len / 64 > residentGranules) || len > 2 ^ 36 ||
      (ddr && region.isNone)
    let setDir (g : Option AwgSeg) : State := s.updAwg n fun a => { a with dir := Tab.set none a.dir seg g }
    if sl.progress > 0 then copyGranules s id sl data granules
    else
      guarded s id
        [(!awgWriteOk sl, Status.field, 0),
         (kind != 2 && badLen, Status.length, 0),
         (!sl.coversBit 1, Status.claim, 0),
         (awgSegActive a seg, Status.segmentActive, 0),
         (kind == 0 && residentClash a seg base len, Status.consistency, 0),
         (ddr && !s.memUp, Status.testerFault, 0)]
        (if kind == 2 then done (setDir none) id Status.ok 0
         else if kind == 1 then done (setDir (some ⟨2, src, len⟩)) id Status.ok (len / 64)
         else copyGranules s id sl data granules)

/-! ### Play order, and the streaming window (10 R229, R233, R234) -/

/-- The DAC clock at which a request that reached a WAITING source takes effect (10 R234). -/
def waitingJumpClk (a : Awg) (j : AwgJump) : Nat := max (j.clk + 128) (dacAt a.waitFrom)

/-- A trigger has fixed the start of a WAITING source at or before the clock of a request that reached it (10 R234). -/
def startFixed (a : Awg) (j : AwgJump) : Bool := a.release.any fun r => r ≤ waitingJumpClk a j

/-- Repetitions that play before a pending jump takes effect: none for one that ends a wait, else up to the first boundary with 128
samples since the request, those of a hold that has run for `held` clocks among them (10 R233, R234). -/
def repsBeforeJump (held : Nat) (a : Awg) (j : AwgJump) : Nat :=
  match a.st with
  | .waiting => if j.waiting && !startFixed a j then 0 else 1
  | .armed => 1
  | _ => if repEnd a + held ≥ j.clk + 128 then 1 else 2

/-- The segment runs of look-ahead entries: (segment, repetitions). -/
def entryRuns (a : Awg) (look : List (Nat × BitVec 64)) : List (AwgSeg × Nat) :=
  look.filterMap fun p => (awgSegOf a (eSeg p.2)).map fun g => (g, eRepeat p.2)

/-- The first `k` repetitions of runs. -/
def takeReps : Nat → List (AwgSeg × Nat) → List (AwgSeg × Nat)
  | _, [] => []
  | k, (g, c) :: rest => if k ≤ c then [(g, k)] else (g, c) :: takeReps (k - c) rest

/-- The repetitions of the look-ahead from the present one on. -/
def lookRuns (a : Awg) : List (AwgSeg × Nat) :=
  match entryRuns a a.look with
  | (g, c) :: rest => (g, c - a.reps) :: rest
  | [] => []

/-- The repetitions that will play from the present one on, as far as the look-ahead knows them, where a running hold has lasted
`held` clocks. -/
def playOrder (held : Nat) (a : Awg) : List (AwgSeg × Nat) :=
  match a.jump with
  | some j => takeReps (repsBeforeJump held a j) (lookRuns a) ++ entryRuns a (jumpLook a)
  | none => lookRuns a

/-- Where streamed sample f of runs lies: its segment and offset. -/
def streamPlace : Nat → List (AwgSeg × Nat) → Option (AwgSeg × Nat)
  | _, [] => none
  | f, (g, c) :: rest =>
    if g.kind != 2 then streamPlace f rest
    else if f < g.len * c then some (g, f % g.len)
    else streamPlace (f - g.len * c) rest

/-- Streamed samples in runs. -/
def streamedIn (runs : List (AwgSeg × Nat)) : Nat := (runs.map fun p => if p.1.kind == 2 then p.1.len * p.2 else 0).sum

/-- A pending jump changes what plays, when it arrives and when a hold moves its boundary: samples fetched for repetitions that no
longer play there are dropped from the window (10 R233, R234). -/
def syncJump (held : Nat) (a : Awg) : Awg :=
  match a.jump with
  | some j =>
    let after := streamedIn (takeReps (repsBeforeJump held a j) (lookRuns a))
    let gone := a.fetch - a.window.length
    let keep := if after = j.after then a.fetch else max gone (min a.fetch (min after j.after))
    { a with jump := some { j with after := after }, fetch := keep, window := a.window.take (keep - gone) }
  | none => a

/-- The segment of the present repetition. -/
def currentSeg (a : Awg) : Option AwgSeg := match a.look with
  | (_, e) :: _ => awgSegOf a (eSeg e)
  | [] => none

/-- A mark of a source at DAC clock A; a running pulse is extended, never cut. The SEQ of its MARK record, which counts firings of
a trigger unit, is a free value (log entry 3). -/
def awgMark (s : State) (n clk : Nat) : State :=
  let t := dacTime clk
  let dest := s.settingN 6 n 8
  let len := s.settingN 6 n 10
  let s := s.updAwg n fun a => { a with marks := incSat 32 a.marks }
  let s := if bitOf dest 0 then s.updAwg n fun a => { a with mkEnd := some (max (a.mkEnd.getD 0) (s.now + 32 * len)) } else s
  let s := if bitOf dest 1 then pulseLine s (s.settingN 6 n 9) len else s
  if bitOf dest 2 then
    let g := sampleAt t
    forEach (maskList 4 (s.settingN 6 n 11)) s fun j s =>
      let d := 4 * (n / 4) + j
      if acqRuns (s.dig d) then
        let (v, s) := s.fresh
        addRecs s d (fun q => mkRec 1 (16 + n) 0 0 q (sampleTime g - t) (v.toNat % 65536)) g
      else s
  else s

/-- AWG_REFILL_ARRIVAL: the next 128 bytes of the stream reach the window; beats that prove uncorrectable play as
CLEAR_CODE; a hold ends once 4,096 samples are held, and a mark that waits for its sample is issued (10 R233, R237; 21
R470). -/
def execAwgRefillArrival (n : Fin 16) (badBeats : List (Fin 32)) (s : State) : Host.Outcome State Fault Refusal :=
  .next <|
    let held := heldRepeats s (s.awg n)
    let a := syncJump held (awgOutput s n)
    if !awgBusy a || !a.streaming || !s.memUp || a.window.length + 64 > 8192 then s
    else match streamPlace a.fetch (playOrder held a) with
      | none => s
      | some (g, o) =>
        let addr := g.base + 2 * o
        let fresh := (badBeats.map fun i => addr / 4 + i.val).filter fun b => !(s.mem.poison ++ s.mem.bad).contains b
        let s := { s with mem.bad := fresh.eraseDups ++ s.mem.bad }
        let bad := Sys2Proof.Machine.badBeats s addr 128
        let data := (chunks 2 64 (ddrRead s addr 128)).zipIdx.map fun p =>
          if bad.contains (addr / 4 + p.2 / 2) then clearCode s n else BitVec.ofNat 16 (leNat p.1)
        let (s, ue) := scanRead s addr 128
        let s := if ue then notice0 s (0x0400 + n.val) 57 0 else s
        let a := { a with fetch := a.fetch + 64, window := a.window ++ data }
        let a := match a.st, a.heldAt with
          | .holding, some h =>
            if a.window.length ≥ 4096 then
              let k := dacNow s - h
              { a with st := .running, heldAt := none, heldFor := a.heldFor + k, underSamples := satTo 32 (a.underSamples + k) }
            else a
          | _, _ => a
        let s := s.updAwg n fun _ => a
        if a.markOwed && a.st == .running then
          awgMark (s.updAwg n fun a => { a with markOwed := false }) n (a.clk + a.heldFor)
        else s

/-- AWG_UNDERRUN: a streamed sample is not in the window at its DAC clock (10 R233). -/
def execAwgUnderrun (n : Fin 16) (s : State) : Host.Outcome State Fault Refusal :=
  .next <|
    let a := s.awg n
    match a.st, currentSeg a with
    | .running, some g =>
      let at' := a.clk + a.heldFor + a.fetch
      if a.dds || g.kind != 2 || a.fetch ≥ g.len || !stampDue s (dacTime at') then s
      else
        let s := s.updAwg n fun _ => { awgOutput s n with underruns := incSat 16 a.underruns, underTold := true }
        let s := if a.underTold then s else notice s (0x0400 + n.val) 0
        if a.holdOn then s.updAwg n fun a => { a with st := .holding, heldAt := some at' }
        else endSequence s n Status.underrun .cleared false
    | _, _ => s

/-! ### Marks (10 R237) -/

/-- AWG_MARK_END: a mark pulse on AWG_MK, or on the trigger line of the source, ends (10 R237). -/
def execAwgMarkEnd (n : Fin 16) (s : State) : Host.Outcome State Fault Refusal :=
  .next <|
    let passed (t : Option Nat) : Bool := match t with
      | some e => e ≤ s.now
      | none => false
    let line := s.settingN 6 n 9
    let s := if passed (s.awg n).mkEnd then s.updAwg n fun a => { a with mkEnd := none } else s
    if bitOf (s.settingN 6 n 8) 1 && passed (s.line line).pulseEnd then s.updLine line fun x => { x with pulseEnd := none } else s

/-! ### Running a sequence (10 R229 to R232, R234, R238) -/

/-- The first sample of a repetition plays at DAC clock A; `first` says that it is its entry's first repetition. Its mark waits
for a first sample that the window lacks, and clocks at which the source waited do not count to the lead of a jump (10 R231,
R234, R236, R237). -/
def playRep (s : State) (n clk : Nat) (first : Bool) : State :=
  let s := s.updAwg n fun a =>
    { a with st := .running, clk := clk, heldFor := 0, release := none, atClear := false, markOwed := false,
             jump := a.jump.map fun j =>
               if a.st == .running then j else { j with clk := j.clk + (clk - max j.clk (min clk (dacAt a.waitFrom))) },
             firstPos := some (a.firstPos.getD (posAtStamp s (dacTime clk))) }
  match (s.awg n).look with
  | (_, e) :: _ =>
    if !(eMark e == 2 || (first && eMark e == 1)) then s
    else if (currentSeg (s.awg n)).any (fun g => g.kind == 2) && (s.awg n).fetch == 0 then
      s.updAwg n fun a => { a with markOwed := true }
    else awgMark s n clk
  | [] => s

/-- Begin the first entry of a look-ahead at DAC clock A: play it, or wait for a trigger (10 R230 to R232). -/
def beginEntry (s : State) (n clk : Nat) (look : List (Nat × BitVec 64)) : State :=
  match look with
  | [] => s
  | (k, e) :: _ =>
    let s := s.updAwg n fun a => { a with look := look, entry := k, reps := 0 }
    if eWait e then s.updAwg n fun a => { a with st := .waiting, waitFrom := dacTime clk, release := none }
    else playRep s n clk true

/-- A pending request takes effect at DAC clock A: a STOP ends the sequence, a JUMP begins its target; samples that the window holds
for another repetition are fetched for nothing (10 R233, R234, R236). -/
def awgTakeJump (s : State) (n clk : Nat) (j : AwgJump) : State :=
  match j.target with
  | none => endPlayed s n Status.ok .idle true
  | some t =>
    let a := s.awg n
    let s := s.updAwg n fun a => if j.after = 0 then { a with jump := none } else { a with jump := none, window := [], fetch := 0 }
    let s := beginEntry s n clk (lookFrom a 3 t)
    complete s j.slot Status.ok 0 (posAtStamp s (dacTime clk))

/-- AWG_SEQUENCE_START: an armed source reaches its start position (10 R230, R238; 02 R39). -/
def execAwgSequenceStart (n : Fin 16) (s : State) : Host.Outcome State Fault Refusal :=
  .next <|
    let a := s.awg n
    match a.st, findAct s (.awg n) with
    | .armed, some act =>
      if !mayAct s act then s
      else
        let passed : Int := stampOfPos s act.pos
        let led : Int := (stampNow s : Int) + ((act.startAt.getD 0 : Int) - s.now) * 65536
        let t := (if act.late then max led passed else passed).toNat
        let clk := dacAt t
        let s := (unschedule s act.kind).updAwg n fun a =>
          { a with late := act.late, waitFrom := t, jump := a.jump.map fun j => { j with clk := max j.clk clk } }
        if s.setting 6 n 1 == 1 then
          s.updAwg n fun a =>
            { a with st := .running, dds := true, ddsClk := clk, ftw := ddsFtw (s.setting 6 n 14),
                     ddsPhase := s.settingN 6 n 15, atClear := false, firstPos := some (posAtStamp s (dacTime clk)) }
        else
          let s := beginEntry s n clk a.look
          s.updAwg n fun a =>
            if a.st == .waiting then { a with waitFrom := t, last := clearCode s n, atClear := true } else a
    | _, _ => s

/-- The DAC clock of the granule boundary at which a request reaches a DDS source's boundary (10 R238). -/
def ddsBoundary (j : AwgJump) : Nat := (j.clk + 128 + 63) / 64 * 64

/-- A repetition has ended at DAC clock A (10 R231, R234). -/
def endRep (s : State) (n clk : Nat) (g : AwgSeg) : State :=
  let a := awgOutputAt s n clk
  let a := { a with total := a.total + 1, repetitions := addWrap 48 a.repetitions 1, reps := a.reps + 1,
                    fetch := if g.kind == 2 then a.fetch - g.len else a.fetch,
                    jump := if g.kind == 2 then a.jump.map fun j => { j with after := j.after - g.len } else a.jump }
  let s := s.updAwg n fun _ => a
  let jump := match a.jump with
    | some j => if clk ≥ j.clk + 128 then some j else none
    | none => none
  match jump, a.look with
  | some j, _ => awgTakeJump s n clk j
  | none, (_, e) :: rest =>
    if a.reps < eRepeat e then playRep s n clk false
    else if eEnd e then endPlayed s n Status.ok .idle false
    else match rest with
      | (_, e2) :: _ =>
        if entryEmpty a e2 then notice (endPlayed s n Status.consistency .idle false) (0x0400 + n) 0
        else beginEntry s n clk (lookNext a)
      | [] => endPlayed s n Status.ok .idle false
  | none, [] => s

/-- AWG_SEGMENT_BOUNDARY: a repetition, or for a DDS source the granule at which a STOP takes effect, ends (10 R231, R234,
R238). -/
def execAwgSegmentBoundary (n : Fin 16) (s : State) : Host.Outcome State Fault Refusal :=
  .next <|
    let a := s.awg n
    if a.st != .running then s
    else if a.dds then
      match a.jump with
      | some j =>
        let clk := ddsBoundary j
        if stampDue s (dacTime clk) then endPlayed (s.updAwg n fun _ => awgOutputAt s n clk) n Status.ok .idle true else s
      | none => s
    else match currentSeg a with
      | some g =>
        if (g.kind == 2 && a.fetch < g.len) || !stampDue s (dacTime (repEnd a)) then s else endRep s n (repEnd a) g
      | none => s

/-- Take the triggers of trigger units and lines on their way whose event times are at or before t, in the order of those times
(10 R232). -/
def takeDue (s : State) (n t : Nat) : Nat → State
  | 0 => s
  | fuel + 1 =>
    match (s.awg n).due.filter (· ≤ t) with
    | [] => s
    | x :: rest =>
      let first := rest.foldl min x
      takeDue (awgTrig (s.updAwg n fun a => { a with due := a.due.erase first }) n first).1 n t fuel

/-- AWG_TRIGGER: a trigger of a trigger unit or a line, of event time t, reaches the source, those of earlier event times before
it (10 R232). -/
def execAwgTrigger (n : Fin 16) (t : Nat) (s : State) : Host.Outcome State Fault Refusal :=
  .next <| if (s.awg n).due.contains t then takeDue s n t (s.awg n).due.length else s

/-- AWG_WAIT_RELEASE: 400 ns after the releasing trigger the entry's first sample plays (10 R232). -/
def execAwgWaitRelease (n : Fin 16) (s : State) : Host.Outcome State Fault Refusal :=
  .next <|
    let a := s.awg n
    match a.st, a.release with
    | .waiting, some clk => if stampDue s (dacTime clk) then playRep s n clk true else s
    | _, _ => s

/-- AWG_WAITING_JUMP: a request that reached a WAITING source takes effect 128 ns after its arrival, unless a trigger has fixed a
start at or before that clock (10 R234). -/
def execAwgWaitingJump (n : Fin 16) (s : State) : Host.Outcome State Fault Refusal :=
  .next <|
    let a := s.awg n
    match a.st, a.jump with
    | .waiting, some j =>
      let clk := waitingJumpClk a j
      if !j.waiting || startFixed a j || !stampDue s (dacTime clk) then s else awgTakeJump s n clk j
    | _, _ => s

/-- DDS_PHASE_RESET: a change of frequency or phase takes effect at its granule boundary (10 R238). -/
def execDdsPhaseReset (n : Fin 16) (s : State) : Host.Outcome State Fault Refusal :=
  .next <| match (s.awg n).ddsDue with
    | (clk, ftw, phase) :: rest =>
      if stampDue s (dacTime clk) then
        s.updAwg n fun _ => { awgOutputAt s n clk with ddsClk := clk, ddsDue := rest, ftw := ftw, ddsPhase := phase }
      else s
    | [] => s

/-! ### AWG_CTL (10 R235, R236) -/

/-- The chain from an entry along NEXT, up to END or to the first repeated entry, holds an entry that cannot be played
(10 R235 test 2). -/
def chainBad (a : Awg) (streaming : Bool) : Nat → List Nat → Nat → Bool
  | 0, _, _ => false
  | fuel + 1, seen, k =>
    let e := entryOf a k
    if seen.contains k then false
    else if entryEmpty a e then true
    else if !streaming && ((awgSegOf a (eSeg e)).any fun g => g.kind == 2) then true
    else if eEnd e then false
    else chainBad a streaming fuel (k :: seen) (eNext e)

/-- The operands of START are in range (10 R235). -/
def awgStartOk (sl : Slot) (dds : Bool) : Bool :=
  sl.op 8 1 == 0 && sl.op 9 1 ≤ 15 && sl.op 10 2 ≤ 4095 && (!dds || (sl.op 10 2 == 0 && sl.op 13 1 == 0)) &&
    sl.zero 12 13 && sl.op 13 1 ≤ 1 && sl.op 14 1 ≤ 1 && sl.op 15 1 ≤ 1 && (sl.op 15 1 == 1 || sl.zero 16 24) &&
    sl.zero 24 64 && sl.secMask == 0

/-- AWG_CTL START (10 R235; 02 R39). The lead is the streamed one where STREAMING is 1 (log entry 16). An ACTION that names
no action is refused here. -/
def execAwgCtlStart (id : Nat) (s : State) : Host.Outcome State Fault Refusal :=
  .next <| withDesc s id (fun sl => sl.opc == 0x32 && (sl.op 8 1 == 0 || sl.op 8 1 > 3)) fun sl =>
    let n := sl.op 9 1
    let a := s.awg n
    let dds := s.setting 6 n 1 == 1
    let entry := sl.op 10 2
    let streaming := sl.op 13 1 == 1
    let lead := if streaming then 4000 else 1000
    let p := requestPos s sl 15 16 lead
    let late := requestLate s sl 15 16 lead
    guardedSched s id true
      [(!awgStartOk sl dds, Status.field, 0),
       (!sl.coversBit 1, Status.claim, 0),
       (awgBusy a || s.flt.awgClr || (!dds && chainBad a streaming 4097 [] entry), Status.consistency, 0),
       (inRecovery s (domAwg n), Status.recovery, 0),
       (throttled s, Status.throttled, 0),
       (a.st == .isolated || (streaming && !s.memUp), Status.testerFault, 0),
       (streaming && (!fitsWaveform s 2000000000 || !fitsDown s (n / 4) 2000000000), Status.budget, 0),
       (late && !sl.runLate, Status.late, 0)]
      (let s := if streaming then takeDown { s with mem.waveform := s.mem.waveform + 2000000000 } (n / 4) 2000000000 else s
       let s := s.updAwg n fun a =>
         { a with st := .armed, slot := some id, streaming := streaming, holdOn := sl.op 14 1 == 1, firstPos := none,
                  late := false, dds := false, entry := entry, reps := 0, look := if dds then [] else lookFrom a 3 entry,
                  total := 0, jump := none, heldFor := 0, heldAt := none, release := none, window := [], fetch := 0,
                  underTold := false, ddsDue := [], markOwed := false }
       let at' := if late then some (s.now + (lead * 8 + 4) / 5) else none
       park (schedule s { kind := .awg n, slot := some id, pos := p, late := late, startAt := at', runLate := sl.runLate })
         id .ending)

/-- Hold a request as the source's pending one; a pending one before it completes ABORTED (10 R234). -/
def holdJump (s : State) (n : Nat) (target : Option Nat) (id : Nat) : State :=
  let s := dropAwgJump s n
  let a := awgOutput s n
  let a := { a with jump := some ⟨target, id, dacNow s, a.st == .waiting, a.fetch⟩ }
  park (s.updAwg n fun _ => syncJump (heldRepeats s a) a) id .ending

/-- AWG_CTL STOP (10 R234, R236). A STOP of an ARMED source ends it at once, its START completing OK (log entry 17). -/
def execAwgCtlStop (id : Nat) (s : State) : Host.Outcome State Fault Refusal :=
  .next <| withDesc s id (fun sl => sl.opc == 0x32 && sl.op 8 1 == 1) fun sl =>
    let n := sl.op 9 1
    let a := s.awg n
    guarded s id
      [(n > 15 || !sl.zero 10 12 || sl.op 12 1 > 1 || !sl.zero 13 64 || sl.secMask != 0, Status.field, 0),
       (!sl.coversBit 1, Status.claim, 0)]
      (if !awgBusy a then done s id Status.ok 0
       else if sl.op 12 1 == 1 || a.st == .armed then
         done (endSequence (dropAwgJump s n) n Status.ok .idle false) id Status.ok 1
       else holdJump s n none id)

/-- AWG_CTL JUMP (10 R234, R235, R238). A source that runs no sequence takes no jump (log entry 17). -/
def execAwgCtlJump (id : Nat) (s : State) : Host.Outcome State Fault Refusal :=
  .next <| withDesc s id (fun sl => sl.opc == 0x32 && sl.op 8 1 == 2) fun sl =>
    let n := sl.op 9 1
    let a := s.awg n
    let t := sl.op 10 2
    let e := entryOf a t
    let streamed := (awgSegOf a (eSeg e)).any fun g => g.kind == 2
    guarded s id
      [(n > 15 || t > 4095 || !sl.zero 12 64 || sl.secMask != 0, Status.field, 0),
       (!sl.coversBit 1, Status.claim, 0),
       (!awgBusy a || s.setting 6 n 1 == 1 || entryEmpty a e || (streamed && !a.streaming), Status.consistency, 0)]
      (holdJump s n (some t) id)

/-- AWG_CTL TRIGGER: its event time is the instant of its arrival; triggers of units and lines with the same time go before it (10
R232, R236; 06 R127). -/
def execAwgCtlTrigger (id : Nat) (s : State) : Host.Outcome State Fault Refusal :=
  .next <| withDesc s id (fun sl => sl.opc == 0x32 && sl.op 8 1 == 3) fun sl =>
    let n := sl.op 9 1
    guarded s id
      [(n > 15 || !sl.zero 10 64 || sl.secMask != 0, Status.field, 0), (!sl.coversBit 1, Status.claim, 0)]
      (let t := stampNow s
       let (s, hit) := awgTrig (takeDue s n t (s.awg n).due.length) n t
       done s id Status.ok (b2n hit))

end Sys2Proof.Machine
end

