-- ==== Sys2Proof/Machine/DcsCmd.lean ====
section
/-! DEFINITION. The commands of the clock synthesizers and their ramps (11). -/

namespace Sys2Proof.Machine

open Sys2Proof

/-! ### Lock, retune and gate (11 R246 to R250, R255) -/

/-- TCLK ticks of one PFD cycle: M cycles of 50 MHz (11 R243). -/
def pfdTicks (m : Nat) : Nat := 32 * max m 1

/-- The first PFD cycle at or after an instant; PFD cycles fall on whole multiples of their length from power-up (log entry
18). -/
def pfdCeil (m t : Nat) : Nat := (t + pfdTicks m - 1) / pfdTicks m * pfdTicks m

/-- Start a retune to the ratios of the image: the gate closes at the next falling edge, from which the new ratios divide; its 2 ms
count from here, also where a ramp has held it back (11 R246, R250; DESIGN CHOICE, log entry 78). -/
def startRetune (s : State) (n : Nat) : State :=
  let s := s.updDcs n fun d =>
    { d with retune := some (s.now + 2000 * usTicks), retunePending := false, retuneAt := none, oNext := none, st := .locking }
  (setGate s n).updDcs n fun d =>
    { endClk s d (dcsFall d (s.now * 256)) with
        m := s.settingN 9 n 1, nNow := s.settingN 9 n 2, o := s.settingN 9 n 3, bw := s.settingN 9 n 4, locked := false }

/-- STATE of a synthesizer: where several codes fit, CONTAINED, LOCKING, RAMPING, then RUNNING or GATED by OUT_EN (11 R250, R255;
DESIGN CHOICE, log entry 78). -/
def dcsStateOf (s : State) (n : Nat) : DcsSt :=
  let d := s.dcs n
  if d.st == .contained then .contained
  else if !d.locked || d.retune.isSome then .locking
  else if d.ramp.any (·.running) then .ramping
  else if s.setting 9 n 5 == 1 then .running
  else .gated

/-- Bring STATE and the gate in line; a retune that waited for the end of a ramp begins on the PFD cycle after it (11 R246,
R250). -/
def settleDcs (s : State) (n : Nat) : State :=
  let d := s.dcs n
  let s := if d.retunePending && d.ramp.isNone && d.st != .contained then
      s.updDcs n fun d => { d with retunePending := false, retuneAt := some (pfdCeil d.m (s.now + 1)) }
    else s
  setGate (s.updDcs n fun d => { d with st := dcsStateOf s n }) n

/-- DCS_LOCK_DECLARED: 256 good PFD cycles have passed, no sooner than a retune allows (11 R247). -/
def execDcsLockDeclared (n : Fin 8) (s : State) : Host.Outcome State Fault Refusal :=
  .next <|
    let d := s.dcs n
    let early := match d.retune with
      | some t => s.now + 2000 * usTicks < t + 256 * pfdTicks d.m
      | none => false
    if d.locked || !d.refOk || d.st == .contained || early then s
    else settleDcs ((freshAnchor s n).updDcs n fun d => { d with locked := true, retune := none }) n

/-- A fault of a synthesizer (11 R249): counted, then raised. -/
def dcsFault (s : State) (n bit : Nat) : State :=
  raiseFault (s.updDcs n fun d => { d with unlocks := incSat 16 d.unlocks }) (domDcs n) bit

/-- DCS_RETUNE_TIMEOUT: no lock within 2 ms of a retune (11 R246). -/
def execDcsRetuneTimeout (n : Fin 8) (s : State) : Host.Outcome State Fault Refusal :=
  .next <| match (s.dcs n).retune with
    | some t => if t ≤ s.now then dcsFault s n 24 else s
    | none => s

/-- DCS_REF_GOOD: 256 reference edges at the expected period (11 R248). -/
def execDcsRefGood (n : Fin 8) (s : State) : Host.Outcome State Fault Refusal :=
  .next <| if (s.dcs n).refOk then s else s.updDcs n fun d => { d with refOk := true }

/-! ### Ramps (11 R251 to R254) -/

/-- TARGET_N and DWELL of a profile point. -/
def pointOf (d : Dcs) (k : Nat) : Nat × Nat := (d.profile[k]?).getD (0, 0)

/-- Update the ramp of a synthesizer. -/
def updRamp (s : State) (n : Nat) (f : Ramp → Ramp) : State := s.updDcs n fun d => { d with ramp := d.ramp.map f }

/-- Begin the dwell of the present point where N has reached its target (11 R251). -/
def checkDwell (s : State) (n : Nat) : State :=
  let d := s.dcs n
  match d.ramp with
  | some r =>
    let (t, w) := pointOf d r.point
    if d.nNow == t then updRamp s n fun r => { r with dwell := some (s.sweep.pos + BitVec.ofNat 64 (w * 65536)) } else s
  | none => s

/-- One step of N towards the target of the present point; the next step falls STEP_INTERVAL PFD cycles on (11 R251). -/
def rampMove (s : State) (n at' : Nat) : State :=
  let d := s.dcs n
  match d.ramp with
  | some r =>
    let t := (pointOf d r.point).1
    let s := (moveN s n (if d.nNow < t then d.nNow + 1 else if d.nNow > t then d.nNow - 1 else d.nNow)).updDcs n fun d =>
      { d with point := r.point }
    checkDwell (updRamp s n fun r => { r with stepAt := at' + s.settingN 9 n 7 * pfdTicks d.m }) n
  | none => s

/-- DCS_RAMP_START: the first PFD cycle at or after the start position (11 R251). -/
def execDcsRampStart (n : Fin 8) (s : State) : Host.Outcome State Fault Refusal :=
  .next <|
    let d := s.dcs n
    match d.ramp, findAct s (.dcs n) with
    | some r, some a =>
      let first := pfdCeil d.m (((passTime s a.pos).toNat + 65535) / 65536)
      if r.running || !mayAct s a || s.now < first then s
      else
        let s := unschedule s a.kind
        let s := updRamp s n fun r => { r with running := true, point := 0, done := 0, firstPos := some s.sweep.pos }
        settleDcs (rampMove s n first) n
    | _, _ => s

/-- DCS_RAMP_STEP (11 R251). -/
def execDcsRampStep (n : Fin 8) (s : State) : Host.Outcome State Fault Refusal :=
  .next <| match (s.dcs n).ramp with
    | some r => if r.running && r.dwell.isNone && r.stepAt ≤ s.now then rampMove s n r.stepAt else s
    | none => s

/-- DCS_DWELL_END: the sweep reaches the end of a dwell; the next point follows, or the ramp ends (11 R251, R254). -/
def execDcsDwellEnd (n : Fin 8) (s : State) : Host.Outcome State Fault Refusal :=
  .next <|
    let d := s.dcs n
    match d.ramp with
    | some r => match r.dwell with
      | some p =>
        if isFuture s.sweep.pos p then s
        else
          let s := updRamp s n fun r => { r with done := r.done + 1, dwell := none }
          if r.point + 1 ≥ d.profile.length then settleDcs (endRamp s n Status.ok) n
          else
            let s := updRamp s n fun r => { r with point := r.point + 1, stepAt := pfdCeil d.m s.now }
            checkDwell (s.updDcs n fun d => { d with point := r.point + 1 }) n
      | none => s
    | none => s

/-- DCS_PROFILE (11 R252). -/
def execDcsProfile (id : Nat) (data : List Byte) (s : State) : Host.Outcome State Fault Refusal :=
  .next <| withDesc s id (fun sl => sl.opc == 0x38) fun sl =>
    let n := sl.op 8 1
    let count := sl.op 9 1
    let pts := chunks 8 count (hostBytes data (8 * count))
    let bad := pts.findIdx? fun b => !(80 ≤ field b 0 2 && field b 0 2 ≤ 10240 && field b 2 2 == 0)
    guarded s id
      [(n > 7 || count == 0 || count > 64 || !sl.zero 10 16 || sl.op 16 8 % 8 != 0 || !sl.zero 24 64 || sl.secMask != 0,
          Status.field, 0),
       (bad.isSome, Status.field, bad.getD 0),
       (!sl.coversBit 3, Status.claim, 0),
       ((s.dcs n).ramp.isSome, Status.consistency, 0)]
      (done (s.updDcs n fun d => { d with profile := pts.map fun b => (field b 0 2, field b 4 4) }) id Status.ok count)

/-- A ramp target lies outside the ranges of f_VCO and f_OUT with the applied M and O (11 R245, R253). -/
def targetBad (m o t : Nat) : Bool := t < 80 * m || t > 160 * m || 50 * t < 4 * m * o || 50 * t > 1000 * m * o

/-- DCS_CTL START (11 R253; 02 R39, R42). An ACTION that names no action is refused here. -/
def execDcsCtlStart (id : Nat) (s : State) : Host.Outcome State Fault Refusal :=
  .next <| withDesc s id (fun sl => sl.opc == 0x39 && sl.op 8 1 != 1) fun sl =>
    let n := sl.op 9 1
    let d := s.dcs n
    let p := requestPos s sl 10 16 2000
    guardedSched s id true
      [(sl.op 8 1 != 0 || n > 7 || sl.op 10 1 > 1 || !sl.zero 11 16 || (sl.op 10 1 == 0 && !sl.zero 16 24) ||
          !sl.zero 24 64 || sl.secMask != 0, Status.field, 0),
       (!sl.coversBit 3, Status.claim, 0),
       (d.ramp.isSome || d.profile.isEmpty || !d.locked || d.retune.isSome || d.retuneAt.isSome ||
          d.profile.any (fun q => targetBad (s.settingN 9 n 1) (s.settingN 9 n 3) q.1), Status.consistency, 0),
       (inRecovery s (domDcs n), Status.recovery, 0),
       (requestLate s sl 10 16 2000, Status.late, 0)]
      (let s := s.updDcs n fun d =>
         { d with ramp := some { slot := id, running := false, point := 0, done := 0, firstPos := none, dwell := none,
                                 stepAt := 0 } }
       park (schedule s { kind := .dcs n, slot := some id, pos := p }) id .ending)

/-- DCS_CTL STOP: it acts on the next PFD cycle; with a STOP already on its way, or no ramp, there is none to end (11 R253,
R254). -/
def execDcsCtlStop (id : Nat) (s : State) : Host.Outcome State Fault Refusal :=
  .next <| withDesc s id (fun sl => sl.opc == 0x39 && sl.op 8 1 == 1) fun sl =>
    let n := sl.op 9 1
    guarded s id
      [(n > 7 || !sl.zero 10 64 || sl.secMask != 0, Status.field, 0), (!sl.coversBit 3, Status.claim, 0)]
      (if (s.dcs n).ramp.any fun r => r.stopAt.isNone then
         park (updRamp s n fun r => { r with stopAt := some (pfdCeil (s.dcs n).m (s.now + 1), id) }) id .ending
       else done s id Status.ok 0)

/-- A STOP acts on its PFD cycle: the ramp ends ABORTED, the STOP completes OK with DETAIL 1 (11 R254). -/
def stopRamp (s : State) (n : Nat) : State :=
  match (s.dcs n).ramp.bind Ramp.stopAt with
  | some (t, id) =>
    if t ≤ s.now then
      let s := updRamp s n fun r => { r with stopAt := none }
      done (settleDcs (endRamp s n Status.aborted) n) id Status.ok 1
    else s
  | none => s

/-- A retune that waited for a ramp begins on its PFD cycle (11 R246). -/
def retuneDue (s : State) (n : Nat) : State :=
  if (s.dcs n).retuneAt.any (· ≤ s.now) then startRetune s n else s

/-- What a tick does to the synthesizers: a new O at its falling edge, a STOP and a deferred retune on their PFD cycles (11
R246, R254). -/
def dcsTick (s : State) : State :=
  forEach (Tab.keys s.dcss) s fun n s => retuneDue (stopRamp (takeO s n) n) n

end Sys2Proof.Machine
end

