-- ==== Sys2Proof/Machine/Flags.lean ====
section
/-! DEFINITION. Results and flags of the engine instructions: ST (12 R258), the ALU (R262), multiplies and accumulators
(R264, R265), stores (R267). -/

namespace Sys2Proof.Machine

open Sys2Proof

/-- Set or clear bit `i` of ST. -/
def stBit (st : Word) (i : Nat) (b : Bool) : Word :=
  if b then st ||| BitVec.ofNat 32 (2 ^ i) else st &&& ~~~(BitVec.ofNat 32 (2 ^ i))

/-- Set the sticky bit `i` of ST where b holds. -/
def stSticky (st : Word) (i : Nat) (b : Bool) : Word := if b then stBit st i true else st

/-- The bits of ST that a write sets: [9:0] and [14:12] (12 R258). -/
def stMask : Word := 0x73FF

/-- ST after an ALU result: Z, N and V (12 R262). -/
def aluFlags (st r : Word) (v : Bool) : Word := stBit (stBit (stBit st 0 (r == 0)) 1 (bitOf r.toNat 31)) 2 v

/-- A signed value does not fit w bits. -/
def overflows (w : Nat) (i : Int) : Bool := i < -(2 ^ (w - 1) : Int) || i ≥ (2 ^ (w - 1) : Int)

/-- Sum and signed overflow (12 R262). -/
def aluAdd (a b : Word) : Word × Bool := (a + b, overflows 32 (a.toInt + b.toInt))
/-- Difference and signed overflow. -/
def aluSub (a b : Word) : Word × Bool := (a - b, overflows 32 (a.toInt - b.toInt))
/-- Left shift; it overflows where the shifted value does not fit (12 R262; log entry 19). -/
def aluShl (a : Word) (k : Nat) : Word × Bool := (a <<< k, overflows 32 (a.toInt * 2 ^ k))

/-- The product of two signed w-bit operands, and whether a fractional one overflowed (12 R265). -/
def mulFrac (w : Nat) (frac : Bool) (a b : Int) : Int × Bool :=
  let p := if frac then 2 * (a * b) else a * b
  if frac && a == -(2 ^ (w - 1) : Int) && b == -(2 ^ (w - 1) : Int) then (2 ^ (2 * w - 1) - 1, true) else (p, false)

/-- An accumulator of w bits takes a value, which wraps; whether it wrapped (12 R265). -/
def accWrap (w : Nat) (v : Int) : BitVec w × Bool := (BitVec.ofInt w v, overflows w v)

/-- ST after a MAC: V for an overflowed product or a wrap, AV for a wrap (12 R265). -/
def macFlags (st : Word) (mul wrap : Bool) : Word := stSticky (stBit st 2 (mul || wrap)) 3 wrap

/-- A store of an accumulator: the word, and whether it saturated (12 R267). -/
def storeAcc (st : Word) (acc : Int) (shift : Nat) (wid24 : Bool) : Word × Bool :=
  let w := if wid24 then 24 else 32
  let r := if bitOf st.toNat 13 then roundDiv acc (2 ^ shift) else acc / 2 ^ shift
  if !overflows w r then (BitVec.ofInt 32 r, false)
  else if bitOf st.toNat 14 then (BitVec.ofInt 32 (if r < 0 then -(2 ^ (w - 1)) else 2 ^ (w - 1) - 1), true)
  else (BitVec.ofInt 32 (toSigned w (fromSigned w r)), false)

/-- ST after a store: SV and V where it saturated (12 R267). -/
def storeFlags (st : Word) (sat : Bool) : Word := stSticky (stSticky st 4 sat) 2 sat

/-- COND of a branch (12 R263). -/
def engCond (st : Word) (cond : Nat) : Bool :=
  let b (i : Nat) : Bool := bitOf st.toNat i
  match cond with
  | 0 => true
  | 1 => b 0
  | 2 => !b 0
  | 3 => b 1
  | 4 => !b 1
  | 5 => !b 1 && !b 0
  | 6 => b 1 || b 0
  | 7 => b 7
  | 8 => !b 7
  | 9 => b 8
  | 10 => b 5
  | 11 => b 6
  | 12 => b 5 || b 6
  | 13 => b 3
  | 14 => b 9
  | _ => false

end Sys2Proof.Machine
end

