-- ==== Sys2Proof/Machine/Engine.lean ====
section
/-! DEFINITION. The instructions of the measurement engines (12 R256 to R276, R282): engine e executes the word at its PC. -/

namespace Sys2Proof.Machine

open Sys2Proof

/-! ### Words and their load check (12 R261, R279) -/

/-- The code store word at an address. -/
def codeWord (x : Engine) (a : Nat) : Nat := (Tab.get haltWord x.code (a % 16384)).toNat

/-- Opcode of a word. -/
def wOpc (w : Nat) : Nat := bits w 47 42

/-- A register code that an instruction may name, and as a destination not PC or B (12 R257, R279). -/
def regOk (c : Nat) (written : Bool) : Bool := c ≤ 0x2A && !(written && c ≥ 0x22)

/-- An opcode that a DUP may not repeat and a LOOP body may not hold: LOOP, JMP, CALL, RET, HALT (12 R279). -/
def noRepeat (opc : Nat) : Bool := opc == 0x24 || (0x20 ≤ opc && opc ≤ 0x22) || opc == 0x3F

/-- The fields of one move of a MAC: (EN, DIR, WREG, PSEL, SSEL, MODE); U has its EN at bit 30, V at bit 15 (12 R261). -/
def moveOf (w en : Nat) : Bool × Bool × Nat × Nat × Nat × Nat :=
  (bitOf w en, bitOf w (en - 1), bits w (en - 2) (en - 4), bits w (en - 5) (en - 7), bits w (en - 8) (en - 10),
    bits w (en - 11) (en - 12))

/-- A MAC word passes the load check (12 R264, R279). -/
def macOk (w : Nat) : Bool :=
  let (ue, ud, uw, up, _, um) := moveOf w 30
  let (ve, vd, vw, vp, _, vm) := moveOf w 15
  let ptrs := (if ue then [up] else []) ++ (if ve then [vp] else []) ++ (if bitOf w 34 then [bits w 33 31] else [])
  bits w 17 16 == 0 && bits w 2 0 == 0 && !(ue && um == 3) && !(ve && vm == 3) &&
    !(ue && ve && !ud && !vd && uw == vw) && ptrs.eraseDups.length == ptrs.length &&
    !(wOpc w == 0x10 && bits w 41 40 == 3)

/-- A code word passes the load check at an address, in a code store given by its words (12 R261, R262, R279; log entry
19). -/
def engWordOk (code : Nat → Nat) (a : Nat) : Bool :=
  let w := code a
  let count := bitOf w 25 || bits w 41 26 != 0
  let alu (written : Bool) : Bool := regOk (bits w 41 36) written && regOk (bits w 35 30) false && bits w 29 0 == 0
  let immed (written : Bool) : Bool := regOk (bits w 41 36) written && bits w 35 32 == 0
  match wOpc w with
  | 0x00 => bits w 41 0 == 0
  | 0x01 => alu true
  | 0x02 => immed true
  | 0x03 => bits w 41 36 ≤ 0x1F && bits w 26 15 == 0
  | 0x04 => bits w 41 36 ≤ 0x1F && bits w 26 15 == 0
  | 0x05 => alu true
  | 0x06 => alu true
  | 0x07 => immed true
  | 0x08 => alu true
  | 0x09 => alu true
  | 0x0A => alu true
  | 0x0B => immed true
  | 0x0C => immed true
  | 0x0D => immed true
  | 0x0E => alu false
  | 0x0F => immed false
  | 0x10 => macOk w
  | 0x11 => macOk w
  | 0x12 => bits w 37 0 == 0
  | 0x13 => bits w 33 0 == 0
  | 0x14 => bits w 28 0 == 0 && bits w 38 36 ≤ 3 && bits w 35 30 ≤ 55
  | 0x15 => bits w 28 0 == 0 && bits w 35 30 ≤ 39
  | 0x16 => bits w 35 0 == 0
  | 0x18 => bits w 35 0 == 0
  | 0x19 => bits w 36 0 == 0
  | 0x20 => bits w 37 14 == 0 && bits w 41 38 ≤ 14
  | 0x21 => bits w 37 14 == 0 && bits w 41 38 == 0
  | 0x22 => bits w 41 0 == 0
  | 0x23 =>
    bits w 21 0 == 0 && count && a != 16383 &&
      !(wOpc (code (a + 1)) == 0x23 || noRepeat (wOpc (code (a + 1))))
  | 0x24 =>
    let stop := bits w 13 0
    bits w 21 14 == 0 && count && a + 1 ≤ stop && stop ≤ a + 32 &&
      ((List.range (stop - a)).all fun i => !noRepeat (wOpc (code (a + 1 + i)))) && wOpc (code stop) != 0x23
  | 0x28 => bits w 30 0 == 0
  | 0x3F => bits w 41 0 == 0
  | _ => false

/-! ### Registers and addresses (12 R257 to R260) -/

/-- A register as an instruction reads it (12 R257). -/
def regGet (x : Engine) (c : Nat) : Word :=
  if c < 8 then (x.w[c]?).getD 0
  else if c < 16 then ((x.p[c - 8]?).getD 0).setWidth 32
  else if c < 24 then ((x.s[c - 16]?).getD 0).signExtend 32
  else if c < 32 then ((x.q[c - 24]?).getD 0).setWidth 32
  else if c == 0x20 then x.stReg
  else if c == 0x21 then (if x.loop.isSome then x.lc else 0)
  else if c == 0x22 then BitVec.ofNat 32 x.pc
  else ((x.b[c - 0x23]?).getD 0).setWidth 32

/-- Write a register at issue cycle c; a pointer writes its base too, and addresses may use P, S and Q from three cycles on
(12 R257, R271). LC counts only inside a LOOP (log entry 19). -/
def regPut (x : Engine) (r : Nat) (v : Word) (c : Nat) : Engine :=
  let v16 : BitVec 16 := v.setWidth 16
  let x := if 8 ≤ r && r < 32 then { x with ptrAt := setNth x.ptrAt (r - 8) (c + 3) } else x
  if r < 8 then
    { x with w := setNth x.w r v, sqrtAt := setNth x.sqrtAt r 0 }
  else if r < 16 then { x with p := setNth x.p (r - 8) v16, b := setNth x.b (r - 8) v16 }
  else if r < 24 then { x with s := setNth x.s (r - 16) v16 }
  else if r < 32 then { x with q := setNth x.q (r - 24) v16 }
  else if r == 0x20 then { x with stReg := v &&& stMask }
  else if r == 0x21 && x.loop.isSome then { x with lc := v }
  else x

/-- Size of a memory: the code store, or bank U or V (12 R259). -/
def memSize (code : Bool) : Nat := if code then 16384 else 32768

/-- The pointer n after a step by delta in a memory (12 R260). -/
def stepPtr (x : Engine) (n : Nat) (delta : Int) (size : Nat) : BitVec 16 :=
  let p : BitVec 16 := (x.p[n]?).getD 0
  let m := ((x.q[n]?).getD 0).toNat
  let b : Int := (((x.b[n]?).getD 0).toNat : Nat)
  let r := (p.toNat : Int) + delta
  BitVec.ofInt 16 (if m == 0 || m > size then r else if r ≥ b + m then r - m else if r < b then r + m else r)

/-- The pointer after its mode: 1 adds the stride, 2 subtracts it (12 R259). -/
def modePtr (x : Engine) (n ss mode : Nat) : BitVec 16 :=
  let d := ((x.s[ss]?).getD 0).toInt
  match mode with
  | 1 => stepPtr x n d 32768
  | 2 => stepPtr x n (-d) 32768
  | _ => (x.p[n]?).getD 0

/-- The bank address of a pointer. -/
def ptrAddr (x : Engine) (n : Nat) : Nat := ((x.p[n]?).getD 0).toNat % 32768

/-- A word of a bank (`v`: bank V). -/
def bankGet (x : Engine) (v : Bool) (a : Nat) : Word := Tab.get 0 (if v then x.v else x.u) a

/-- Write a word of a bank; it is good again. -/
def bankPut (x : Engine) (v : Bool) (a : Nat) (d : Word) : Engine :=
  let k := if v then 2 else 1
  let x := { x with bad := x.bad.filter fun p => p != (k, a) }
  if v then { x with v := Tab.set 0 x.v a d } else { x with u := Tab.set 0 x.u a d }

/-- A bank word holds an uncorrectable error. -/
def bankBad (x : Engine) (v : Bool) (a : Nat) : Bool := x.bad.contains (if v then 2 else 1, a)

/-! ### Issue (12 R269 to R271, R282) -/

/-- Cycle from which pointer n, and with a step stride ss and its Q, can address (12 R271). -/
def ptrReady (x : Engine) (n ss mode : Nat) : Nat :=
  let at' (i : Nat) : Nat := (x.ptrAt[i]?).getD 0
  if mode == 0 then at' n else max (at' n) (max (at' (8 + ss)) (at' (16 + n)))

/-- Cycle from which the W registers among some register codes can be read: a SQRT result takes 16 cycles (12 R271). -/
def wReady (x : Engine) (rs : List Nat) : Nat := (rs.map fun r => (x.sqrtAt[r]?).getD 0).foldl max 0

/-- The cycle at which an instruction that must wait for `ready` issues. -/
def issueAt (x : Engine) (ready : Nat) : Nat := max x.cycles ready

/-- Take the cycles of an instruction: it issues no sooner than `ready`, and lasts `cost`. The wait counts in STALL_CYCLES; the
cycles past the first, of a code-store operand and of a taken branch, count in CYCLES alone (12 R271; DESIGN CHOICE, log entry
79). -/
def spend (x : Engine) (ready cost : Nat) : Engine :=
  let c := issueAt x ready
  { x with stalls := x.stalls + (c - x.cycles), cycles := c + cost }

/-- One cycle of a stalled IN or OUT. -/
def stallOne (x : Engine) : Engine := { x with stalls := x.stalls + 1, cycles := x.cycles + 1 }

/-- The address after one. -/
def nextPc (pc : Nat) : Nat := (pc + 1) % 16384

/-- Leave the present instruction in order: to the next word, or back to the start of a LOOP body (12 R269). -/
def leavePc (x : Engine) : Engine :=
  match x.loop with
  | some l =>
    if x.pc != l.stop then { x with pc := nextPc x.pc }
    else if x.lc.toNat ≤ 1 then { x with loop := none, lc := 0, pc := nextPc x.pc }
    else { x with lc := x.lc - 1, pc := l.start, loop := some { l with cached := true } }
  | none => { x with pc := nextPc x.pc }

/-- Go on after an instruction that does not branch: the next repetition of a DUP, or in order (12 R269). -/
def engAdvance (x : Engine) : Engine :=
  match x.dup with
  | some d =>
    if x.pc != d.start then leavePc x
    else if d.left ≤ 1 then leavePc { x with dup := none }
    else { x with dup := some { d with left := d.left - 1, cached := true } }
  | none => leavePc x

/-- The present instruction runs from the repeat cache (12 R270). -/
def fromCache (x : Engine) : Bool :=
  x.dup.any (fun d => d.start == x.pc && d.cached) || x.loop.any fun l => l.start ≤ x.pc && x.pc ≤ l.stop && l.cached

/-- A class 2 fault of an engine (12 R282). -/
def engRaise (s : State) (e bit : Nat) : State := raiseFault s (domEng e) bit

/-- Execute the word at the PC of a running engine where it has this opcode; an uncorrectable or ill-formed word is a fault
(12 R282). Where the engine does not run, or stands at another opcode, nothing is under way (log entry 7). -/
def engExec (s : State) (e opc : Nat) (f : Nat → State) : State :=
  let x := s.eng e
  let w := codeWord x x.pc
  if x.st != .running || x.ending.isSome || wOpc w != opc then s
  else if x.bad.contains (0, x.pc) then engRaise s e 34
  else if !engWordOk (codeWord x) x.pc then engRaise s e 32
  else f w

/-- An instruction that works on registers only: its cost and its effect on the engine at its issue cycle. -/
def engPlain (s : State) (e opc : Nat) (ready : Nat → Nat) (f : Nat → Nat → Engine → Engine) : State :=
  engExec s e opc fun w =>
    s.updEng e fun x =>
      let c := issueAt x (ready w)
      engAdvance (f w c (spend x (ready w) 1))

/-- Cycle from which an ALU word can read its registers: DST, and SRC where the operand is no immediate (12 R261, R271). -/
def rrReady (x : Engine) (imm : Bool) (w : Nat) : Nat := wReady x (bits w 41 36 :: if imm then [] else [bits w 35 30])

/-! ### Moves and ALU (12 R262) -/

/-- An ALU instruction on DST and an operand: the result goes to DST where `put` holds; flags follow. -/
def engAlu (s : State) (e opc : Nat) (imm put : Bool) (op : Word → Word → Word × Bool) : State :=
  engPlain s e opc (rrReady (s.eng e) imm) fun w c x =>
    let d := bits w 41 36
    let b : Word := if imm then BitVec.ofNat 32 (bits w 31 0) else regGet x (bits w 35 30)
    let (r, v) := op (regGet x d) b
    let y := if put then regPut x d r c else x
    { y with stReg := aluFlags y.stReg r v }

/-- A shift by an immediate; beyond 31 the manual states no result: result and V are free values (log entry 3). -/
def engShift (s : State) (e opc : Nat) (op : Word → Nat → Word × Bool) : State :=
  let (v, s1) := s.fresh
  let far := bits (codeWord (s.eng e) (s.eng e).pc) 31 0 > 31
  engAlu (if far then s1 else s) e opc true true fun a b =>
    if b.toNat > 31 then (v.setWidth 32, bitOf v.toNat 32) else op a b.toNat

/-- NOP (12 R262). -/
def execEngNop (e : Fin 16) (s : State) : Host.Outcome State Fault Refusal :=
  .next (engPlain s e 0x00 (fun _ => 0) fun _ _ x => x)

/-- MOV: DST = SRC (12 R262). -/
def execMov (e : Fin 16) (s : State) : Host.Outcome State Fault Refusal :=
  .next (engPlain s e 0x01 (fun w => wReady (s.eng e) [bits w 35 30]) fun w c x =>
    regPut x (bits w 41 36) (regGet x (bits w 35 30)) c)

/-- MOVI: DST = IMM (12 R262). -/
def execMovi (e : Fin 16) (s : State) : Host.Outcome State Fault Refusal :=
  .next (engPlain s e 0x02 (fun _ => 0) fun w c x => regPut x (bits w 41 36) (BitVec.ofNat 32 (bits w 31 0)) c)

/-- ADD (12 R262). -/
def execAdd (e : Fin 16) (s : State) : Host.Outcome State Fault Refusal := .next (engAlu s e 0x05 false true aluAdd)
/-- SUB (12 R262). -/
def execSub (e : Fin 16) (s : State) : Host.Outcome State Fault Refusal := .next (engAlu s e 0x06 false true aluSub)
/-- ADDI (12 R262). -/
def execAddi (e : Fin 16) (s : State) : Host.Outcome State Fault Refusal := .next (engAlu s e 0x07 true true aluAdd)
/-- AND (12 R262). -/
def execAnd (e : Fin 16) (s : State) : Host.Outcome State Fault Refusal :=
  .next (engAlu s e 0x08 false true fun a b => (a &&& b, false))
/-- OR (12 R262). -/
def execOr (e : Fin 16) (s : State) : Host.Outcome State Fault Refusal :=
  .next (engAlu s e 0x09 false true fun a b => (a ||| b, false))
/-- XOR (12 R262). -/
def execXor (e : Fin 16) (s : State) : Host.Outcome State Fault Refusal :=
  .next (engAlu s e 0x0A false true fun a b => (a ^^^ b, false))
/-- SHL (12 R262). -/
def execShl (e : Fin 16) (s : State) : Host.Outcome State Fault Refusal := .next (engShift s e 0x0B aluShl)
/-- ASR (12 R262). -/
def execAsr (e : Fin 16) (s : State) : Host.Outcome State Fault Refusal :=
  .next (engShift s e 0x0C fun a k => (a.sshiftRight k, false))
/-- LSR (12 R262). -/
def execLsr (e : Fin 16) (s : State) : Host.Outcome State Fault Refusal :=
  .next (engShift s e 0x0D fun a k => (a >>> k, false))
/-- CMP: flags from DST − SRC (12 R262). -/
def execCmp (e : Fin 16) (s : State) : Host.Outcome State Fault Refusal := .next (engAlu s e 0x0E false false aluSub)
/-- CMPI: flags from DST − IMM (12 R262). -/
def execCmpi (e : Fin 16) (s : State) : Host.Outcome State Fault Refusal := .next (engAlu s e 0x0F true false aluSub)

/-! ### Bank accesses (12 R259, R260, R262) -/

/-- The fields of a MEM word: register, bank V, pointer, stride, mode, absolute address. -/
def memFields (w : Nat) : Nat × Bool × Nat × Nat × Nat × Nat :=
  (bits w 41 36, bitOf w 35, bits w 34 32, bits w 31 29, bits w 28 27, bits w 14 0)

/-- Address of a MEM word, and when it can be used. -/
def memAddr (x : Engine) (ps mode addr : Nat) : Nat := if mode == 3 then addr else ptrAddr x ps
/-- Cycle from which a MEM word's address is ready. -/
def memReady (x : Engine) (ps ss mode : Nat) : Nat := if mode == 3 then 0 else ptrReady x ps ss mode

/-- LD: REG = memory (12 R262). A load into the pointer that its own mode steps leaves the pointer open: a free value (log
entry 3). -/
def execLd (e : Fin 16) (s : State) : Host.Outcome State Fault Refusal :=
  .next <| engExec s e 0x03 fun w =>
    let x := s.eng e
    let (r, v, ps, ss, mode, addr) := memFields w
    let a := memAddr x ps mode addr
    if bankBad x v a then engRaise s e 34
    else
      let ready := memReady x ps ss mode
      let c := issueAt x ready
      let step := mode == 1 || mode == 2
      let p := modePtr x ps ss mode
      let x := spend x ready 1
      let x := if step then { x with p := setNth x.p ps p } else x
      let x := regPut x r (bankGet x v a) c
      if step && r == 8 + ps then
        let (f, s) := s.fresh
        s.updEng e fun _ => engAdvance { x with p := setNth x.p ps (f.setWidth 16) }
      else s.updEng e fun _ => engAdvance x

/-- ST: memory = REG (12 R262). -/
def execSt (e : Fin 16) (s : State) : Host.Outcome State Fault Refusal :=
  .next <| engExec s e 0x04 fun w =>
    s.updEng e fun x =>
      let (r, v, ps, ss, mode, addr) := memFields w
      let a := memAddr x ps mode addr
      let d := regGet x r
      let p := modePtr x ps ss mode
      let x := spend x (max (memReady x ps ss mode) (wReady x [r])) 1
      let x := if mode == 1 || mode == 2 then { x with p := setNth x.p ps p } else x
      engAdvance (bankPut x v a d)

/-! ### MAC (12 R264 to R266, R270, R271) -/

/-- What one enabled move of a MAC does, with registers as they stood before the instruction (12 R261, R264, R271). -/
def macMove (old : Engine) (v : Bool) (m : Bool × Bool × Nat × Nat × Nat × Nat) (c : Nat) (x : Engine) : Engine :=
  let (en, dir, wr, ps, ss, mode) := m
  if !en then x
  else
    let a := ptrAddr old ps
    let x := if mode == 0 then x else { x with p := setNth x.p ps (modePtr old ps ss mode) }
    if dir then bankPut x v a ((old.w[wr]?).getD 0) else regPut x wr (bankGet old v a) c

/-- A move reads an uncorrectable word. -/
def moveBad (x : Engine) (v : Bool) (m : Bool × Bool × Nat × Nat × Nat × Nat) : Bool :=
  m.1 && !m.2.1 && bankBad x v (ptrAddr x m.2.2.2.1)

/-- Cycle from which a move can issue. -/
def moveReady (x : Engine) (m : Bool × Bool × Nat × Nat × Nat × Nat) : Nat :=
  if m.1 then max (ptrReady x m.2.2.2.1 m.2.2.2.2.1 m.2.2.2.2.2) (if m.2.1 then wReady x [m.2.2.1] else 0) else 0

/-- A MAC instruction: operands as they stood, the accumulation, both moves, the step of the code-store pointer (12 R264,
R270). -/
def engMac (s : State) (e opc : Nat) (acc : Nat → Int → Int → Nat → Engine → Engine) (code1 code2 : Nat → Int)
    (half : Word → Int) : State :=
  engExec s e opc fun w =>
    let x := s.eng e
    let u := moveOf w 30
    let v := moveOf w 15
    let third := bitOf w 34
    let f2 := bits w 33 31
    let f1 := bits w 37 35
    let ca := ((x.p[f2]?).getD 0).toNat % 16384
    if moveBad x false u || moveBad x true v || (third && x.bad.contains (0, ca)) then engRaise s e 34
    else
      let wr := wReady x (f1 :: (if third then [] else [f2]))
      let cr := if third then max ((x.ptrAt[f2]?).getD 0) ((x.ptrAt[16 + f2]?).getD 0) else 0
      let ready := max (max wr cr) (max (moveReady x u) (moveReady x v))
      let c := issueAt x ready
      let cost := if third && !fromCache x then 2 else 1
      let a1 : Word := (x.w[f1]?).getD 0
      let p1 := half a1
      let p2 := if third then code1 (codeWord x ca) else half ((x.w[f2]?).getD 0)
      let hi1 := (toSigned 16 (a1.toNat / 65536))
      let hi2 := if third then code2 (codeWord x ca) else toSigned 16 (((x.w[f2]?).getD 0).toNat / 65536)
      let y := spend x ready cost
      let y := if opc == 0x10 then acc w p1 p2 c y
        else acc w (p1 * 2 ^ 32 + hi1) (p2 * 2 ^ 32 + hi2) c y
      let y := macMove x true v c (macMove x false u c y)
      let y := if third then { y with p := setNth y.p f2 (stepPtr x f2 1 16384) } else y
      s.updEng e fun _ => engAdvance y

/-- The accumulation of MACP: OP 0 MPY, 1 MAC, 2 MSU (12 R264, R265). -/
def accP (w : Nat) (a b : Int) (c : Nat) (x : Engine) : Engine :=
  let i := bits w 39 38
  let (p, ov) := mulFrac 24 (bitOf x.stReg.toNat 12) a b
  let old := ((x.pa[i]?).getD 0).toInt
  let sum := match bits w 41 40 with
    | 0 => p
    | 1 => old + p
    | _ => old - p
  let (r, wrap) := accWrap 56 sum
  { x with pa := setNth x.pa i r, paAt := setNth x.paAt i (c + 3), stReg := macFlags x.stReg ov wrap }

/-- The low and the high half of the operands of MACS, carried as lo × 2^32 + hi. -/
def splitHalves (v : Int) : Int × Int :=
  let hi := toSigned 32 (fromSigned 32 v)
  ((v - hi) / 2 ^ 32, hi)

/-- The accumulation of MACS: OP 0 MPY, 1 MAC, 2 MSU, 3 MAC2 (12 R264, R265). -/
def accS (w : Nat) (a b : Int) (c : Nat) (x : Engine) : Engine :=
  let i := 2 * bits w 39 38
  let frac := bitOf x.stReg.toNat 12
  let (al, ah) := splitHalves a
  let (bl, bh) := splitHalves b
  let (lo, ov1) := mulFrac 16 frac al bl
  let (hi, ov2) := mulFrac 16 frac ah bh
  let old (k : Nat) : Int := ((x.sa[k]?).getD 0).toInt
  let (s0, s1) := match bits w 41 40 with
    | 0 => (lo, hi)
    | 1 => (old i + lo, old (i + 1) + hi)
    | 2 => (old i - lo, old (i + 1) - hi)
    | _ => (old i + lo + hi, old (i + 1))
  let (r0, w0) := accWrap 40 s0
  let (r1, w1) := accWrap 40 s1
  let at' := setNth x.saAt i (c + 3)
  { x with sa := setNth (setNth x.sa i r0) (i + 1) r1,
           saAt := if bits w 41 40 == 3 then at' else setNth at' (i + 1) (c + 3),
           stReg := macFlags x.stReg (ov1 || ov2) (w0 || w1) }

/-- MACP: precision MAC on signed 24-bit values (12 R264). -/
def execMacp (e : Fin 16) (s : State) : Host.Outcome State Fault Refusal :=
  .next (engMac s e 0x10 accP (fun k => toSigned 24 k) (fun _ => 0) fun r => toSigned 24 r.toNat)

/-- MACS: dual stream MAC on signed 16-bit halves (12 R264). -/
def execMacs (e : Fin 16) (s : State) : Host.Outcome State Fault Refusal :=
  .next (engMac s e 0x11 accS (fun k => toSigned 16 k) (fun k => toSigned 16 (k / 65536)) fun r => toSigned 16 r.toNat)

/-- CLRP: the PA accumulators in the mask = 0, bit 41 for PA3 to bit 38 for PA0 (12 R261, R262). -/
def execClrp (e : Fin 16) (s : State) : Host.Outcome State Fault Refusal :=
  .next (engPlain s e 0x12 (fun _ => 0) fun w _ x =>
    { x with pa := x.pa.zipIdx.map fun p => if bitOf w (38 + p.2) then 0 else p.1 })

/-- CLRS: the SA accumulators in the mask = 0, bit 41 for SA7 to bit 34 for SA0 (12 R261, R262). -/
def execClrs (e : Fin 16) (s : State) : Host.Outcome State Fault Refusal :=
  .next (engPlain s e 0x13 (fun _ => 0) fun w _ x =>
    { x with sa := x.sa.zipIdx.map fun p => if bitOf w (34 + p.2) then 0 else p.1 })

/-- STPA: WD = PA[ACC] under R267 (12 R262, R271). -/
def execStpa (e : Fin 16) (s : State) : Host.Outcome State Fault Refusal :=
  .next (engPlain s e 0x14 (fun w => ((s.eng e).paAt[bits w 38 36]?).getD 0) fun w c x =>
    let (r, sat) := storeAcc x.stReg ((x.pa[bits w 38 36]?).getD 0).toInt (bits w 35 30) (bitOf w 29)
    let y := regPut x (bits w 41 39) r c
    { y with stReg := storeFlags y.stReg sat })

/-- STSA: WD = SA[ACC] under R267 (12 R262, R271). -/
def execStsa (e : Fin 16) (s : State) : Host.Outcome State Fault Refusal :=
  .next (engPlain s e 0x15 (fun w => ((s.eng e).saAt[bits w 38 36]?).getD 0) fun w c x =>
    let (r, sat) := storeAcc x.stReg ((x.sa[bits w 38 36]?).getD 0).toInt (bits w 35 30) (bitOf w 29)
    let y := regPut x (bits w 41 39) r c
    { y with stReg := storeFlags y.stReg sat })

/-- SQRT: WD = floor(√x × 256) of an unsigned W; Z for a result of 0 (12 R268). -/
def execSqrt (e : Fin 16) (s : State) : Host.Outcome State Fault Refusal :=
  .next (engPlain s e 0x16 (fun w => wReady (s.eng e) [bits w 38 36]) fun w c x =>
    let r := isqrt (((x.w[bits w 38 36]?).getD 0).toNat * 65536)
    let y := regPut x (bits w 41 39) (BitVec.ofNat 32 r) c
    { y with stReg := stBit y.stReg 0 (r == 0), sqrtAt := setNth y.sqrtAt (bits w 41 39) (c + 16) })

/-! ### Ports (12 R272 to R274, R281) -/

/-- The sources of a port whose words wait for room in it: PMU lists and other engines (12 R273). -/
def refillPort (s : State) (k : InPort) : State :=
  match k.kind with
  | 3 => forEach (s.pmu.map (·.slot)) s fun id s => finishRun (pumpPmu s id 4096) id
  | 4 => tryFinishEng s (k.sel % 16)
  | _ => s

/-- IN: the oldest word of the port into WD; on an empty port 0 with IE where its source is closed or it is unbound, else one
stalled cycle (12 R273). -/
def execEngIn (e : Fin 16) (s : State) : Host.Outcome State Fault Refusal :=
  .next <| engExec s e 0x18 fun w =>
    let p := bits w 38 36
    let k := s.inPort e p
    let put (v : Word) (im ie : Bool) (s : State) : State :=
      s.updEng e fun x =>
        let c := issueAt x 0
        let y := regPut (spend x 0 1) (bits w 41 39) v c
        engAdvance { y with stReg := stBit (stBit y.stReg 7 im) 8 ie }
    match k.words with
    | (v, rec') :: rest =>
      refillPort (put v rec' false (s.updIn e p fun k => { k with words := rest })) k
    | [] =>
      if k.kind == 0 || k.closed then put 0 false true s else s.updEng e stallOne

/-- The DDR5 writes of an engine's outputs meet an uncorrectable beat: a fault of the engine (12 R282; 21 R470). -/
def reportOutBad (s : State) (e : Nat) : State :=
  match (List.range 4).find? fun p => outBad s e p with
  | some p =>
    let o := s.outPort e p
    engRaise (scanModify s (o.base + o.wrOff) 4).1 e 35
  | none => s

/-- OUT: append WD to the port; an output with no destination loses its words, a closed one discards them, a full one costs
a stalled cycle (12 R274, R281). -/
def execEngOut (e : Fin 16) (s : State) : Host.Outcome State Fault Refusal :=
  .next <| engExec s e 0x19 fun w =>
    let s := drainOuts s e
    let p := bits w 38 37
    let o := s.outPort e p
    let r := bits w 41 39
    let go (s : State) : State := s.updEng e fun x => engAdvance (spend x (wReady x [r]) 1)
    if s.setting 12 (16 * e.val + 8 + p) 1 == 0 then
      go (s.updEng e fun x => { x with discarded := incSat 32 x.discarded })
    else if o.words.length ≥ 1024 then s.updEng e stallOne
    else
      let s := go (s.updOut e p fun o => { o with words := o.words ++ [((s.eng e).w[r]?).getD 0] })
      raiseOwed (reportOutBad (drainOuts s e) e)

/-! ### Branches and repeats (12 R262, R263, R269, R271) -/

/-- A taken branch to an address: two more cycles (12 R271). -/
def branch (x : Engine) (ready a : Nat) : Engine := { spend x ready 3 with pc := a }

/-- JMP: if COND, go to ADDR; LIM flags are readable from 4 cycles on (12 R262, R263, R271). A JMP on the flags of a SQRT does not
wait for its result (DESIGN CHOICE, log entry 79). -/
def execEngJmp (e : Fin 16) (s : State) : Host.Outcome State Fault Refusal :=
  .next <| engExec s e 0x20 fun w =>
    s.updEng e fun x =>
      let cond := bits w 41 38
      let ready := if 10 ≤ cond && cond ≤ 12 then x.limAt else 0
      if engCond x.stReg cond then branch x ready (bits w 13 0) else engAdvance (spend x ready 1)

/-- CALL: push the next address and go to ADDR (12 R262, R282). -/
def execEngCall (e : Fin 16) (s : State) : Host.Outcome State Fault Refusal :=
  .next <| engExec s e 0x21 fun w =>
    if (s.eng e).calls.length ≥ 8 then engRaise s e 33
    else s.updEng e fun x => branch { x with calls := x.calls ++ [nextPc x.pc] } 0 (bits w 13 0)

/-- RET: pop the return address (12 R262, R282). -/
def execEngRet (e : Fin 16) (s : State) : Host.Outcome State Fault Refusal :=
  .next <| engExec s e 0x22 fun _ =>
    match (s.eng e).calls.getLast? with
    | none => engRaise s e 33
    | some a => s.updEng e fun x => branch { x with calls := x.calls.dropLast } 0 a

/-- The count of a DUP or LOOP: immediate, or a W register (12 R261, R269). -/
def repeatCount (x : Engine) (w : Nat) : Nat :=
  if bitOf w 25 then ((x.w[bits w 24 22]?).getD 0).toNat else bits w 41 26

/-- DUP: repeat the next instruction; a count of 0 skips it (12 R269). -/
def execDup (e : Fin 16) (s : State) : Host.Outcome State Fault Refusal :=
  .next <| engExec s e 0x23 fun w =>
    s.updEng e fun x =>
      let n := repeatCount x w
      let x := spend x (if bitOf w 25 then wReady x [bits w 24 22] else 0) 1
      if n = 0 then leavePc { x with pc := nextPc x.pc }
      else { x with dup := some { start := nextPc x.pc, stop := nextPc x.pc, left := n }, pc := nextPc x.pc }

/-- LOOP: run the body through END COUNT times; a count of 0 skips it (12 R269). -/
def execLoop (e : Fin 16) (s : State) : Host.Outcome State Fault Refusal :=
  .next <| engExec s e 0x24 fun w =>
    s.updEng e fun x =>
      let n := repeatCount x w
      let stop := bits w 13 0
      let x := spend x (if bitOf w 25 then wReady x [bits w 24 22] else 0) 1
      if n = 0 then { x with pc := nextPc stop }
      else
        { x with loop := some { start := nextPc x.pc, stop := stop, left := n }, lc := BitVec.ofNat 32 n, pc := nextPc x.pc }

/-! ### Limits and HALT (12 R275, R276, R280) -/

/-- LF and GF of a value against a limit entry (12 R276). -/
def limitTest (s : State) (entry : List Byte) (v : Int) : Bool × Bool :=
  let low := fieldS entry 0 4
  let high := fieldS entry 4 4
  let q := field entry 12 2
  let lf := v < low || v > high
  if lf || field entry 14 1 != 1 || q == 0xFFFF then (lf, false)
  else
    let g := roundDiv ((planOf s (qClass q)).k * uNow s q * field entry 8 4) (256 * 65536)
    (false, v < low + g || v > high - g || (s.ledger q).oom)

/-- LIM: compare WD with a limit entry (12 R276, R283). -/
def execLim (e : Fin 16) (s : State) : Host.Outcome State Fault Refusal :=
  .next <| engExec s e 0x28 fun w =>
    let x := s.eng e
    let i := bits w 38 31
    if x.bad.contains (3, i) then engRaise s e 34
    else
      let r := bits w 41 39
      let (lf, gf) := limitTest s (Tab.get [] x.limits i) ((x.w[r]?).getD 0).toInt
      s.updEng e fun x =>
        let ready := wReady x [r]
        let c := issueAt x ready
        let y := spend x ready 1
        engAdvance { y with stReg := stBit (stBit y.stReg 5 lf) 6 gf, limAt := c + 4,
                            limitFails := if lf then incSat 32 y.limitFails else y.limitFails,
                            guardFails := if gf then incSat 32 y.guardFails else y.guardFails,
                            runFails := if lf || gf then y.runFails + 1 else y.runFails }

/-- HALT: the run ends OK (12 R280). -/
def execEngHalt (e : Fin 16) (s : State) : Host.Outcome State Fault Refusal :=
  .next <| engExec s e 0x3F fun _ =>
    tryFinishEng (s.updEng e fun x => { spend x 0 1 with ending := some Status.ok }) e

/-- ENG_BLOCK_FLUSH: FLUSH has passed since the first word of the block in progress (12 R274). -/
def execEngBlockFlush (e : Fin 16) (port : Fin 4) (s : State) : Host.Outcome State Fault Refusal :=
  .next <|
    let o := s.outPort e port
    if o.kind == 2 && !o.block.isEmpty && s.now - o.blockAt ≥ o.flush * usTicks && stageRoom s o.str then
      tryFinishEng (stageEngBlock s e port false) e
    else s

end Sys2Proof.Machine
end

