-- ==== Sys2Proof/Machine/EngCmd.lean ====
section
/-! DEFINITION. ENG_LOAD, ENG_RUN and the faults of the engines (12 R277 to R282). -/

namespace Sys2Proof.Machine

open Sys2Proof

/-! ### ENG_LOAD (12 R277) -/

/-- Words or entries of a space: code store, banks, limit table (12 R256). -/
def engSpaceSize (space : Nat) : Nat := if space ≤ 1 then 16384 else if space ≤ 3 then 32768 else 256

/-- The operands of ENG_LOAD are in range (12 R277). -/
def engLoadOk (sl : Slot) : Bool :=
  let space := sl.op 9 1
  sl.secMask == 0 && sl.op 8 1 ≤ 15 && space ≤ 4 && sl.op 10 1 ≤ 1 && sl.zero 11 12 && sl.op 12 4 < engSpaceSize space &&
    sl.zero 20 24 && sl.op 24 8 % engItemBytes space == 0 && sl.zero 32 64

/-- The code store with an image of 8-byte items placed over it from an address on. -/
def codeOver (x : Engine) (base : Nat) (items : List (List Byte)) (a : Nat) : Nat :=
  if base ≤ a % 16384 && a % 16384 < base + items.length then field (items[a % 16384 - base]?.getD []) 0 8
  else codeWord x a

/-- An item fails test 5: an instruction word with bits above 47 or that fails the load check, a limit entry with LOW above
HIGH or a nonzero reserved byte (12 R277, R279). -/
def engItemBad (x : Engine) (space base : Nat) (items : List (List Byte)) (i : Nat) : Bool :=
  let it := items[i]?.getD []
  if space == 0 then field it 6 2 != 0 || !engWordOk (codeOver x base items) (base + i)
  else if space == 4 then fieldS it 0 4 > fieldS it 4 4 || field it 15 1 != 0
  else false

/-- Place one item of a space; the word is good again. -/
def engPlace (x : Engine) (space a : Nat) (it : List Byte) : Engine :=
  let k := if space ≤ 1 then 0 else space - 1
  let x := { x with bad := x.bad.filter fun p => p != (k, a) }
  if space ≤ 1 then { x with code := Tab.set haltWord x.code a (BitVec.ofNat 48 (field it 0 6)) }
  else if space == 2 then { x with u := Tab.set 0 x.u a (BitVec.ofNat 32 (field it 0 4)) }
  else if space == 3 then { x with v := Tab.set 0 x.v a (BitVec.ofNat 32 (field it 0 4)) }
  else { x with limits := Tab.set [] x.limits a (if it.all (· == 0) then [] else it) }

/-- Place items from an address on. -/
def engPlaceAll (x : Engine) (space base : Nat) (items : List (List Byte)) : Engine :=
  items.zipIdx.foldl (fun x p => engPlace x space (base + p.2) p.1) x

/-- ENG_LOAD: the tests and the read of its items, then the next `words` words or entries (12 R277; 21 R470). -/
def execEngLoad (id : Nat) (data : List Byte) (words : Nat) (s : State) : Host.Outcome State Fault Refusal :=
  .next <| withDesc s id (fun sl => sl.opc == 0x40 && !dmaHeld s id sl) fun sl =>
    let e := sl.op 8 1
    let space := sl.op 9 1
    let ddr := sl.op 10 1 == 1
    let base := sl.op 12 4
    let count := sl.op 16 4
    let src := sl.op 24 8
    let k := engItemBytes space
    let go (s : State) (sl : Slot) : State :=
      let upTo := itemsTo sl words count
      let items := ((chunks k count sl.held).take upTo).drop sl.progress
      goOn (s.updEng e fun x => engPlaceAll x space (base + sl.progress) items) id upTo count fun s => done s id Status.ok count
    if sl.progress > 0 then go s sl
    else guarded s id
      [(!engLoadOk sl, Status.field, 0),
       (count == 0 || base + count > engSpaceSize space || (ddr && (regionHolding s [5, 6] src (k * count)).isNone),
          Status.length, 0),
       (!sl.coversBit 4, Status.claim, 0),
       (space ≤ 1 && (s.eng e).st == .running, Status.consistency, 0),
       (ddr && !s.memUp, Status.testerFault, 0)]
      (let bytes := if ddr then ddrRead s src (k * count) else hostBytes data (k * count)
       let items := chunks k count bytes
       match (if ddr then badBeats s src (k * count) else []) with
       | b :: _ =>
         let n := (4 * b - src) / k
         let (s, _) := scanRead (correctRead s src (k * n)) (4 * b / 64 * 64) 64
         match (List.range n).find? (engItemBad (s.eng e) space base (items.take n)) with
         | some i => refuse s id Status.field (base + i)
         | none => done (s.updEng e fun x => engPlaceAll x space base (items.take n)) id Status.testerFault n
       | [] =>
         match (List.range count).find? (engItemBad (s.eng e) space base items) with
         | some i => refuse s id Status.field (base + i)
         | none =>
           let s := if ddr then correctRead s src (k * count) else s
           go (s.updSlot id fun x => { x with held := bytes }) { sl with held := bytes })

/-! ### ENG_RUN (12 R278 to R280) -/

/-- Input entry p of a binding table. -/
def bindIn (t : List Byte) (p : Nat) : List Byte := (t.drop (8 * p)).take 8
/-- Output entry p of a binding table. -/
def bindOut (t : List Byte) (p : Nat) : List Byte := (t.drop (64 + 32 * p)).take 32

/-- An input entry is in range (12 R278). -/
def bindInOk (b : List Byte) : Bool :=
  let kind := field b 0 1
  let sel := field b 1 1
  kind ≤ 4 && (if kind == 1 then sel ≤ 15 else if kind == 2 then sel ≤ 31 else if kind == 3 then sel ≤ 3 else kind == 0 || sel ≤ 63) &&
    field b 2 1 ≤ (if kind == 1 || kind == 2 then 1 else 0) && zeroBytes b 3 8

/-- An output entry is in range (12 R278). -/
def bindOutOk (b : List Byte) : Bool :=
  let kind := field b 0 1
  let rate := field b 4 4
  let flush := field b 8 4
  let base := field b 16 8
  let size := field b 24 8
  kind ≤ 3 && field b 1 1 ≤ (if kind == 1 then 1 else 0) && field b 2 1 ≤ 31 && zeroBytes b 3 4 &&
    (if kind == 1 || kind == 2 then 1 ≤ rate && rate ≤ 24000000 else kind == 0 || rate == 0) &&
    (if kind == 2 then 1 ≤ flush && flush ≤ 1000000 else flush == 0) && zeroBytes b 12 16 &&
    (if kind == 1 then base % 4096 == 0 && size % 4096 == 0 && size != 0 else base == 0 && size == 0)

/-- The operands of START are in range (12 R278). -/
def engStartOk (sl : Slot) (t : List Byte) : Bool :=
  sl.secMask == 0 && sl.op 8 1 ≤ 15 && sl.op 10 2 ≤ 16383 && sl.zero 12 16 && sl.op 16 8 % 16 == 0 && sl.zero 24 64 &&
    (List.range 8).all (fun p => bindInOk (bindIn t p)) && (List.range 4).all fun p => bindOutOk (bindOut t p)

/-- The kinds and selectors of the bound inputs of a table. -/
def boundIns (t : List Byte) : List (Nat × Nat) :=
  (List.range 8).filterMap fun p =>
    let b := bindIn t p
    if field b 0 1 == 0 then none else some (field b 0 1, field b 1 1)

/-- Output entries of a kind. -/
def outsOf (t : List Byte) (kind : Nat) : List (List Byte) :=
  ((List.range 4).map (bindOut t)).filter fun b => field b 0 1 == kind

/-- The kind of an output as a table for engine e leaves it: its own outputs by the table, others as they run. -/
def outKind (s : State) (t : List Byte) (e sel : Nat) : Nat :=
  if sel % 16 == e then field (bindOut t (sel / 16)) 0 1
  else if (s.eng (sel % 16)).st == .running then (s.outPort (sel % 16) (sel / 16)).kind else 0

/-- The CONSISTENCY test of START (12 R279 test 3). -/
def engStartBad (s : State) (e : Nat) (t : List Byte) : Bool :=
  let ins := boundIns t
  let strs := (outsOf t 2).map fun b => field b 2 1
  (s.eng e).st == .running || (s.eng e).ending.isSome || ins.eraseDups.length != ins.length ||
    ins.any (fun b => (boundPort s b.1 b.2).isSome) ||
    strs.eraseDups.length != strs.length || strs.any (fun r => !strFree s r) ||
    ins.any fun b => b.1 == 4 && outKind s t e b.2 != 3

/-- A bound source is in recovery (12 R279 test 4). -/
def sourceRecovers (s : State) (b : Nat × Nat) : Bool :=
  match b.1 with
  | 1 =>
    let x := s.stream b.2
    x.isOpen && (List.range x.count).any fun i => inRecovery s (domChan (x.first + i))
  | 2 => inRecovery s (domDig (b.2 % 16))
  | 4 => inRecovery s (domEng (b.2 % 16))
  | _ => false

/-- Declared rates of output entries in bytes per second. -/
def outRates (bs : List (List Byte)) : Nat := (bs.map fun b => 1000 * field b 4 4).sum

/-- The source of an input entry is closed at START: a stream or flow that is not open (12 R273). -/
def sourceClosed (s : State) (kind sel : Nat) : Bool :=
  match kind with
  | 1 => !(s.stream sel).isOpen
  | 2 => !(getFlow (s.dig (sel % 16)) (sel / 16 == 1)).isOpen
  | _ => false

/-- A source learns the port bound to it (12 R278). -/
def bindSource (s : State) (e p kind sel : Nat) : State :=
  match kind with
  | 1 => if (s.stream sel).isOpen then s.updStream sel fun x => { x with port := some (e, p) } else s
  | 2 =>
    if (getFlow (s.dig (sel % 16)) (sel / 16 == 1)).isOpen then
      s.updFlow (sel % 16) (sel / 16 == 1) fun x => { x with port := some (e, p) }
    else s
  | _ => s

/-- The engine at its first instruction: registers, ST, call stack and ports as START leaves them (12 R278). -/
def startedEng (s : State) (x : Engine) (id entry : Nat) (t : List Byte) : Engine :=
  let ins : Tab InPort := (List.range 8).foldl (fun m p =>
    let b := bindIn t p
    let kind := field b 0 1
    let sel := field b 1 1
    Tab.upd {} m p fun i => { kind := kind, sel := if kind == 0 then 0 else sel, mode := field b 2 1, lost := i.lost,
                              gates := i.gates, closed := sourceClosed s kind sel }) x.ins
  let outs : Tab OutPort := (List.range 4).foldl (fun m p =>
    let b := bindOut t p
    if field b 0 1 == 0 then m
    else Tab.set {} m p { kind := field b 0 1, ringMode := field b 1 1 == 1, str := field b 2 1, rate := 1000 * field b 4 4,
                          flush := field b 8 4, base := field b 16 8, size := field b 24 8 }) []
  { x with st := .running, slot := some id, startPos := s.sweep.pos, pc := entry, w := List.replicate 8 0,
           p := List.replicate 8 0, s := List.replicate 8 0, q := List.replicate 8 0, b := List.replicate 8 0,
           stReg := 0x6000, lc := 0, pa := List.replicate 4 0, sa := List.replicate 8 0, calls := [], dup := none,
           loop := none, ins := ins, outs := outs, runFails := 0, ptrAt := List.replicate 24 0,
           paAt := List.replicate 4 0, saAt := List.replicate 8 0, sqrtAt := List.replicate 8 0, limAt := 0, ending := none }

/-- ENG_RUN START (12 R278, R279). -/
def execEngRunStart (id : Nat) (bind : List Byte) (s : State) : Host.Outcome State Fault Refusal :=
  .next <| withDesc s id (fun sl => sl.opc == 0x41 && sl.op 9 1 != 1) fun sl =>
    let e := sl.op 8 1
    let t := hostBytes bind 192
    let ddr := outsOf t 1
    let str := outsOf t 2
    guarded s id
      [(sl.op 9 1 != 0 || !engStartOk sl t, Status.field, 0),
       (ddr.any fun b => (regionHolding s [5] (field b 16 8) (field b 24 8)).isNone, Status.length, 0),
       (!sl.coversBit 4, Status.claim, 0),
       (engStartBad s e t, Status.consistency, 0),
       (isContained s (domEng e) || (boundIns t).any (sourceRecovers s), Status.recovery, 0),
       (!ddr.isEmpty && !s.memUp, Status.testerFault, 0),
       ((!ddr.isEmpty && !fitsCapture s (outRates ddr)) ||
          (!str.isEmpty && (str.any (fun b => !fitsHost s (1000 * field b 4 4)) ||
            s.mem.host + outRates str > streamCapBytes s)), Status.budget, 0)]
      (let s := { s with mem.capture := s.mem.capture + outRates ddr, mem.host := s.mem.host + outRates str }
       let s := forEach str s fun b s => bindStr s (field b 2 1)
       let s := s.updEng e fun x => startedEng s x id (sl.op 10 2) t
       let s := forEach (List.range 8) s fun p s =>
         bindSource s e p (field (bindIn t p) 0 1) (field (bindIn t p) 1 1)
       park s id .ending)

/-- ENG_RUN STOP (12 R278, R280). -/
def execEngRunStop (id : Nat) (s : State) : Host.Outcome State Fault Refusal :=
  .next <| withDesc s id (fun sl => sl.opc == 0x41 && sl.op 9 1 == 1) fun sl =>
    let e := sl.op 8 1
    guarded s id
      [(sl.secMask != 0 || e > 15 || !sl.zero 10 64, Status.field, 0), (!sl.coversBit 4, Status.claim, 0)]
      (if (s.eng e).st == .running && (s.eng e).ending.isNone then
         let s := s.updEng e fun x => { x with ending := some Status.aborted, dup := none, loop := none }
         done (tryFinishEng s e) id Status.ok 1
       else done s id Status.ok 0)

/-! ### Faults (12 R282) -/

/-- A word of an engine's memories (0 code store, 1 bank U, 2 bank V, 3 limit table) that holds an uncorrectable error is on
record for its restoration (12 R256, R282). -/
def markBad (x : Engine) (mem addr : Nat) : Engine :=
  let p := (mem, addr % (if mem = 0 then 16384 else if mem = 3 then 256 else 32768))
  { x with bad := if x.bad.contains p then x.bad else p :: x.bad }

/-- ENG_FAULT: cause 0 an ill-formed word at the PC, 1 CALL on a full stack or RET on an empty one, 2 an uncorrectable error
in a word of the engine's memories, 3 an uncorrectable DDR5 beat under an output, 4 an error of an engine memory that SEC-DED
corrects (12 R256, R282). The word of causes 2 and 4 is what the memory's decoder reports (log entry 68). -/
def execEngFault (e : Fin 16) (cause : Fin 5) (mem : Fin 4) (addr : Fin 32768) (s : State) :
    Host.Outcome State Fault Refusal :=
  .next <|
    let x := s.eng e
    let w := codeWord x x.pc
    let going := x.st == .running && x.ending.isNone
    if cause.val == 0 then (if going && !engWordOk (codeWord x) x.pc then engRaise s e 32 else s)
    else if cause.val == 1 then
      if going && ((wOpc w == 0x21 && x.calls.length ≥ 8) || (wOpc w == 0x22 && x.calls.isEmpty)) then
        engRaise s e 33
      else s
    else if cause.val == 2 then engRaise (s.updEng e fun x => markBad x mem addr) e 34
    else if cause.val == 4 then s.updEng e fun x => { x with eccCorrected := incSat 16 x.eccCorrected }
    else
      match (List.range 4).find? (outBad s e) with
      | some p =>
        let o := s.outPort e p
        let (s, _) := scanModify s (o.base + o.wrOff) 4
        if x.st == .running then engRaise s e 35 else s
      | none => s

end Sys2Proof.Machine
end

