-- ==== Sys2Proof/Machine/Sweep.lean ====
section
/-! DEFINITION. The sweep (02): the ends of scheduled actions, jumps, shaft teeth, the beacon position, and the tick. -/

namespace Sys2Proof.Machine

open Sys2Proof

/-! ### Ends of pending actions (02 R31, R37, R40) -/

/-- Take one action out of the scheduler. -/
def dropAct (s : State) (a : Action) : State := { s with stg.sched := s.stg.sched.filter (· != a) }

/-- The keeper's group operation is that of a slot. -/
def isGroupSlot (s : State) (id : Nat) : Bool := match s.grp.op with
  | some o => o.slot == id
  | none => false

/-- Complete the descriptor of a group operation of the keeper, which ends with it (16 R377). -/
def endGroupOp (s : State) (status detail : Nat) (sweep : Pos) : State :=
  match s.grp.op with
  | some o => complete { s with grp.op := none } o.slot status detail sweep
  | none => s

/-- Complete the slot of an action; a group operation ends with its slot. -/
def completeAct (s : State) (a : Action) (status detail : Nat) (sweep : Pos) : State :=
  match a.slot with
  | some id => if isGroupSlot s id then endGroupOp s status detail sweep else complete s id status detail sweep
  | none => s

/-- A burst that has not begun ends without effect, completing with a status (02 R37). -/
def dropBurst (s : State) (id status : Nat) : State :=
  match s.burst id with
  | none => s
  | some b =>
    let s := returnBudget (disarm s b) b
    done (unschedule { s with bursts := Tab.erase s.bursts id } (.burst id)) id status 0

/-- A pending action ends without taking effect, with status ABORTED or LATE (02 R31, R37). -/
def cancelAct (s : State) (a : Action) (status : Nat) : State :=
  match a.kind with
  | .apply k =>
    let s := reopenSet (dropAct s a) k
    let s := if a.slot.isNone then { s with grp.worker := none } else s
    completeAct s a status 0 s.sweep.pos
  | .daymark => completeAct (dropAct s a) a status 0 s.sweep.pos
  | .groupDaymark _ => completeAct (dropAct s a) a status 0 s.sweep.pos
  | .burst id => if status == Status.aborted then endArmed s id .aborted else dropBurst s id status
  | .awg n => endSequence s n status .idle false
  | .dcs n => settleDcs (endRamp s n status) n
  | .window n g => endArming s n g status
  | .acq n => endAcq s n status

/-- A change of sweep source aborts every other pending action, every sweep arming and every ramp (02 R31; 07 R156; 11
R254). -/
def sourceChanged (s : State) : State :=
  let s := forEach s.stg.sched s fun a s => cancelAct s a Status.aborted
  let s := forEach (List.range 8) s fun n s => forEach (List.range 4) s fun g s =>
    if (s.wg n g).armed.isSome && (s.wg n g).src == 1 then endArming s n g Status.aborted else s
  forEach (List.range 8) s fun n s => if (s.dcs n).ramp.isSome then settleDcs (endRamp s n Status.aborted) n else s

/-- The sweep starts of an arming that a resynchronisation jump to P passes open no window and are counted (07 R153). -/
def skipStarts (s : State) (n g : Nat) (a : Action) (p : Pos) : State :=
  let stride := (s.wg n g).stride
  let m := if stride = 0 then 1 else (ahead a.pos p - 1) / stride + 1
  (nextSweepStart s n g a m).updSec n fun x => { x with wgSkipped := x.wgSkipped + m }

/-- An action that a resynchronisation jump to P passes: a sweep start is skipped, a start under RUN_LATE acts at the jump,
every other completes LATE (02 R37; 07 R153). -/
def passAct (s : State) (a : Action) (p : Pos) : State :=
  match a.kind with
  | .window n g => skipStarts s n g a p
  | _ =>
  if !a.runLate then cancelAct s a Status.late
  else { s with stg.sched := s.stg.sched.map fun b => if b == a then { b with late := true, startAt := none } else b }

/-- A resynchronisation jump: actions strictly between the old and the new position are passed (02 R37). -/
def resyncTo (s : State) (p : Pos) : State :=
  let old := s.sweep.pos
  let passed := s.stg.sched.filter fun a => 0 < ahead old a.pos && ahead old a.pos < ahead old p
  let s := { s with sweep.pos := p, sweep.acc := 0, sweep.jumpAt := s.now * 65536, sweep.resync := incSat 16 s.sweep.resync }
  let s := forEach passed s fun a s => passAct s a p
  event s 0x04A2 s.sweep.resync

/-! ### ANGLE (02 R35 to R38) -/

/-- Fraction units of one wheel revolution: 360 degrees of 2^-32 degree. -/
def revUnits : Nat := 360 * 2 ^ 32

/-- The ANGLE parameters of the applied image (02 R29). -/
def anglePars (s : State) : AnglePars :=
  { slots := s.settingN 10 0 2, missing := s.settingN 10 0 3, mode := s.settingN 10 0 4, revs := s.settingN 10 0 5,
    thresh := s.settingN 10 0 6, toothEdge := s.settingN 10 0 7, indexEdge := s.settingN 10 0 8, timeout := s.setting 10 0 9,
    predict := s.settingN 10 0 0x00A, origin := s.setting 10 0 0x00B }

/-- The ANGLE parameters of the image come into force (02 R31). -/
def takeAngle (s : State) : State := { s with sweep.ang := anglePars s }

/-- Cycle phase of slot k of revolution r, in fraction units (02 R35). -/
def toothPhase (s : State) (k r : Nat) : Nat :=
  r * revUnits + (roundDiv (k * revUnits : Nat) s.sweep.ang.slots).toNat

/-- The lowest position not below p with a cycle phase (02 R35, R37). -/
def phaseFrom (s : State) (p : Pos) (phase : Nat) : Pos :=
  let c := cycleUnits s
  p + BitVec.ofNat 64 ((phase + c - cyclePhase s p) % c)

/-- The rate of R38 from the last two intervals and the pitches that they span: pitch over predicted interval, rounded down.
SECOND with no earlier interval, or with a predicted interval of 0 or less, predicts as FIRST (DESIGN CHOICE, log entry 23). -/
def toothRate (s : State) (last prev : Option (Nat × Nat)) : Nat :=
  let slots := s.sweep.ang.slots
  let num := revUnits * 2 ^ 24
  let first (iv pitches : Nat) : Nat := if iv = 0 then 0 else num * pitches / (slots * iv)
  match last, prev with
  | some (i, p), some (j, q) =>
    let pred : Int := 2 * (i * q : Nat) - (j * p : Nat)
    if s.sweep.ang.predict == 1 && pred > 0 then num * p * q / (slots * pred.toNat) else first i p
  | some (i, p), none => first i p
  | none, _ => 0

/-- Synchronisation is lost: the sweep holds in LOST (02 R36). -/
def loseSync (s : State) : State :=
  notice { s with sweep.st := .lost, sweep.synced := false, sweep.rate := 0, sweep.acc := 0, sweep.limit := none } 0x04A1 0

/-- The slot and revolution after one (02 R35). -/
def nextTooth (s : State) (k r : Nat) : Nat × Nat :=
  let a := s.sweep.ang
  if k + 1 < a.slots - a.missing then (k + 1, r) else (0, (r + 1) % a.revs)

/-- A tooth of known slot and revolution arrives at stamp time t: the sweep is at its position as of t, and goes on at the
new rate up to the next tooth (02 R37, R38). -/
def toothArrives (s : State) (k r t : Nat) (gained : Bool) : State :=
  let phase := toothPhase s k r
  let p := phaseFrom s s.sweep.pos phase
  let s := if gained then resyncTo s p else { s with sweep.pos := p, sweep.acc := 0 }
  let (k', r') := nextTooth s k r
  let c := cycleUnits s
  let gap := (toothPhase s k' r' + c - phase) % c
  let limit := p + BitVec.ofNat 64 (if gap = 0 then c else gap)
  let rate := toothRate s s.sweep.lastIv s.sweep.prevIv
  let run := (stampNow s - t) * rate / 2 ^ 24
  { s with sweep := { s.sweep with
      st := .running, synced := true, slot := k, rev := r, rate := rate, limit := some limit, holdFor := none,
      jumpAt := s.now * 65536 + t - stampNow s,
      origin := p - BitVec.ofNat 64 phase, pos := p + BitVec.ofNat 64 (min run (ahead p limit - 1)),
      teeth := if gained then 0 else s.sweep.teeth } }

/-- The number of the revolution that a gap ends (02 R36 GAP_INDEX): 0 if it saw the index edge, else counted on from the last
one that did; after CYCLE_REVS - 1 whole revolutions without one it is the last of its cycle (log entry 57). -/
def revEnded (revs : Nat) (seen : Bool) (before : Option Nat) (without : Nat) : Option Nat :=
  if seen then some 0
  else match before with
    | some e => some (e + 1)
    | none => if without + 1 == revs then some (revs - 1) else none

/-- What a tooth at a gap or index edge means: a wrong count or a missing index loses synchronisation, the second good one
gains it (02 R36). -/
def markTooth (s : State) (t : Nat) (count : Option Nat) (need : Nat) : State :=
  let x := s.sweep
  let mode := x.ang.mode
  let revs := x.ang.revs
  let good := count == some need
  let seen := x.indexInRev
  let without := if seen then 0 else if good then x.revsNoIndex + 1 else 0
  let ended := revEnded revs seen (if good then x.endedRev else none) without
  let s := { s with sweep.sinceMark := some 1, sweep.indexInRev := false, sweep.revsNoIndex := without, sweep.endedRev := ended }
  if x.synced then
    if !good || (mode == 2 && (without ≥ revs || (seen && x.rev != 0))) then loseSync s
    else toothArrives s 0 (if mode == 1 then 0 else (x.rev + 1) % revs) t false
  else if !good then s
  else if mode != 2 || revs == 1 then toothArrives s 0 0 t true
  else match ended with
    | some e => if e < revs then toothArrives s 0 ((e + 1) % revs) t true else s
    | none => s

/-- A tooth between two marks (02 R36). -/
def plainTooth (s : State) (t : Nat) (count : Option Nat) (need : Nat) : State :=
  let s1 := { s with sweep.sinceMark := count.map (· + 1) }
  match count with
  | none => s1
  | some c =>
    let a := s.sweep.ang
    let r := if a.mode == 1 then c / a.slots else s.sweep.rev
    if !s.sweep.synced then s1
    else if c + 1 > need || r ≥ a.revs then loseSync s1
    else toothArrives s1 (if a.mode == 1 then c % a.slots else c) r t false

/-- New ANGLE parameters take effect at a tooth edge; another wheel or cycle contradicts the teeth seen so far, and drops
synchronisation (02 R31; log entry 57). -/
def newGeometry (s : State) : State :=
  let o := s.sweep.ang
  let s := takeAngle s
  let a := s.sweep.ang
  if a.slots == o.slots && a.missing == o.missing && a.revs == o.revs then s
  else
    let s := { s with sweep.sinceMark := none, sweep.endedRev := none, sweep.revsNoIndex := 0 }
    if s.sweep.synced then loseSync s else s

/-- Teeth from one mark to the next (02 R36). -/
def AnglePars.need (a : AnglePars) : Nat := if a.mode == 1 then a.revs * a.slots else a.slots - a.missing

/-- Accept a tooth edge: its interval, whether it ends a gap or follows an index edge, and what that means (02 R36). -/
def acceptTooth (s : State) (t : Nat) : State :=
  let s := newGeometry s
  let x := s.sweep
  let a := x.ang
  let iv := x.lastTooth.map fun u => t - u
  let gap := a.mode != 1 && match iv, x.lastIv with
    | some i, some (p, _) => decide (i * 16 > a.thresh * p)
    | _, _ => false
  let s := { s with sweep := { x with
    lastTooth := some t, prevIv := x.lastIv, indexNow := false, teeth := addWrap 32 x.teeth 1,
    lastIv := iv.map fun i => (i, if gap then a.missing + 1 else 1),
    lastTicks := match iv with
      | some i => satTo 32 (i / 65536)
      | none => x.lastTicks } }
  if (a.mode == 1 && x.indexNow) || gap then markTooth s t x.sinceMark a.need else plainTooth s t x.sinceMark a.need

/-- An edge at stamp time t lies 2 µs or more after the last accepted one of its input (02 R36). -/
def edgeSpaced (last : Option Nat) (t : Nat) : Bool := match last with
  | some u => u + 2 * usTicks * 65536 ≤ t
  | none => true

/-- The selected polarity of an input: 0 rising, 1 falling (02 R29 TOOTH_EDGE, INDEX_EDGE). -/
def edgeSelected (sel : Nat) (falling : Bool) : Bool := falling == (sel == 1)

/-- SWEEP_TOOTH_EDGE: an edge at stamp time t; one of the other polarity is no tooth (02 R29, R36, R38). -/
def execSweepToothEdge (falling : Bool) (t : Nat) (s : State) : Host.Outcome State Fault Refusal :=
  .next <|
    if s.sweep.source == .angle && s.running && edgeSelected s.sweep.ang.toothEdge falling && stampDue s t &&
        edgeSpaced s.sweep.lastTooth t then acceptTooth s t else s

/-- SWEEP_INDEX_EDGE: an edge at stamp time t; one of the other polarity marks nothing (02 R29, R36). -/
def execSweepIndexEdge (falling : Bool) (t : Nat) (s : State) : Host.Outcome State Fault Refusal :=
  .next <|
    if s.sweep.source == .angle && s.running && edgeSelected s.sweep.ang.indexEdge falling && stampDue s t &&
        edgeSpaced s.sweep.lastIndex t then
      { s with sweep.lastIndex := some t, sweep.indexNow := true, sweep.indexInRev := true }
    else s

/-- TOOTH_TIMEOUT: no tooth within TOOTH_TIMEOUT (02 R36). -/
def execToothTimeout (s : State) : Host.Outcome State Fault Refusal :=
  .next <| match s.sweep.lastTooth with
    | some u =>
      if s.sweep.source == .angle && s.sweep.synced &&
          (u : Int) + stampUnits s.sweep.ang.timeout ≤ (stampNow s : Int) then
        loseSync { s with sweep.sinceMark := none }
      else s
    | none => s

/-- SWEEP_HELD: the sweep stands one fraction unit below the next tooth's position (02 R38). -/
def execSweepHeld (s : State) : Host.Outcome State Fault Refusal :=
  .next <| match s.sweep.limit with
    | some l =>
      if s.sweep.source == .angle && s.sweep.st == .running && s.sweep.pos + 1 == l then
        { s with sweep.st := .held, sweep.acc := 0 }
      else s
    | none => s

/-! ### GROUP (02 R33, R34, R37; 16 R369, R370, R373) -/

/-- The beacon delay and line delay that a device uses: those of its alignment, else 0 (16 R373). -/
def ownDelays (s : State) : Nat × Nat :=
  if s.grp.keeper || !s.grp.aligned then (0, 0) else (Tab.get none s.grp.delays s.grp.groupId).getD (0, 0)

/-- The beacon gives position p for the present instant, at a rate (02 R33, R37). The first position after entry to SERVICE or a
change of source is taken as it is and is no resynchronisation (DEDUCED, log entry 58). -/
def beaconPos (s : State) (p : Pos) (rate : Nat) : State :=
  let x := s.sweep
  let s := { s with sweep.rate := rate, sweep.lastFrame := s.now }
  let back := isPast x.pos p
  if x.takeNext then
    { s with sweep := { s.sweep with
        pos := p, acc := 0, jumpAt := s.now * 65536, st := .running, takeNext := false, holdFor := none } }
  else
    let s := if x.st == .lost || x.st == .holdover || x.st == .noSync then resyncTo s (if back then x.pos else p)
      else if back then s else { s with sweep.pos := p, sweep.acc := 0, sweep.jumpAt := s.now * 65536 }
    if back then { s with sweep.st := .held, sweep.holdFor := some x.pos, sweep.beacon := p, sweep.acc := 0 }
    else { s with sweep.st := .running, sweep.holdFor := none }

/-- POS_SYNC: a worker in GROUP takes the position as of the frame's arrival less its beacon delay (02 R33; 16 R373). -/
def execPosSync (pos : Pos) (rate : Word) (arrival : Nat) (s : State) : Host.Outcome State Fault Refusal :=
  .next <|
    if s.sweep.source != .group || s.grp.keeper || s.grp.phase.isNone || !s.running || !stampDue s arrival then s
    else
      let gone : Int := (stampNow s : Int) - ((arrival : Int) - (ownDelays s).1)
      beaconPos s (pos + BitVec.ofInt 64 (gone * rate.toNat / 2 ^ 24)) rate.toNat

/-- TCLK ticks without a valid frame after which four are missing: four periods of 1,024 ns and the largest delay of a frame,
360 ns (02 R34; 16 R370; log entry 24). -/
def framesMissing : Nat := 7130

/-- HOLDOVER: four position-sync frames in a row are missing or bad (02 R34). -/
def execHoldover (s : State) : Host.Outcome State Fault Refusal :=
  .next <|
    if s.sweep.source == .group && (s.sweep.st == .running || s.sweep.st == .held) && s.now ≥ s.sweep.lastFrame + framesMissing
    then notice { s with sweep.st := .holdover, sweep.holdoverAt := s.now } 0x04A0 0
    else s

/-- SWEEP_LOST: no valid frame within 64 µs of HOLDOVER (02 R34). -/
def execSweepLost (s : State) : Host.Outcome State Fault Refusal :=
  .next <|
    if s.sweep.source == .group && s.sweep.st == .holdover && s.now ≥ s.sweep.holdoverAt + 64 * usTicks then
      notice { s with sweep.st := .lost, sweep.rate := 0, sweep.acc := 0, sweep.holdFor := none } 0x04A1 0
    else s

/-- SWEEP_HOLD_RELEASE: the beacon or time position reaches the held value (02 R33; 16 R381). -/
def execSweepHoldRelease (s : State) : Host.Outcome State Fault Refusal :=
  .next <| match s.sweep.holdFor with
    | some p =>
      if isFuture s.sweep.beacon p then s
      else { s with sweep := { s.sweep with
        pos := s.sweep.beacon, jumpAt := s.now * 65536, holdFor := none, st := if s.sweep.st == .held then .running else s.sweep.st } }
    | none => s

/-! ### The tick (02 R32, R33, R38) -/

/-- The sweep after one tick: it advances by its rate, holds, or stops one unit below the next tooth. -/
def sweepTick (x : Sweep) : Sweep :=
  let total := x.acc + x.rate
  let d := total / 256
  let x' := { x with acc := total % 256 }
  if x.holdFor.isSome then { x' with beacon := x.beacon + BitVec.ofNat 64 d }
  else if x.st == .lost || x.st == .noSync || x.st == .held then x
  else match x.limit with
    | some l => if ahead x.pos l ≤ d then { x with pos := l - 1, acc := 0 } else { x' with pos := x.pos + BitVec.ofNat 64 d }
    | none => { x' with pos := x.pos + BitVec.ofNat 64 d }

/-- One tick of TCLK: the tick number and the sweep run from SERVICE on (23 R494; 24 R504). -/
def tickOnce (s : State) : State :=
  if s.running then { s with now := s.now + 1, tick := s.tick + 1, sweep := sweepTick s.sweep }
  else { s with now := s.now + 1 }

end Sys2Proof.Machine
end

