-- ==== Sys2Proof/Machine/Apply.lean ====
section
/-! DEFINITION. Scheduled applies and daymarks as they take effect (15 R351 to R353, R358 to R362; 03 R65; 02 R40, R41). -/

namespace Sys2Proof.Machine

open Sys2Proof

/-! ### The recovery check (15 R352; 03 R65) -/

/-- The domains of the object that a TARGET names (15 R352). -/
def targetDomains (s : State) (t : Nat) : List Nat :=
  let n := tIdx t
  match tCls t with
  | 0x01 => [domChan n]
  | 0x02 => [domLg n]
  | 0x03 => [domSec n]
  | 0x04 => [domSec (n / 64)]
  | 0x05 => s.chans.filterMap fun p => if p.2.site == some n then some (domChan p.1) else none
  | 0x06 => [domAwg n]
  | 0x07 => [domDig n]
  | 0x08 => [domSec (n / 2)]
  | 0x09 => [domDcs n]
  | 0x0A => (List.range 8).map domSec
  | 0x0B => [domMem 0, domMem 1]
  | _ => [domEng (n / 16)]

/-- A claimed domain of a set is in recovery (15 R352). -/
def setRecovers (s : State) (recs : List Rec) : Bool :=
  recs.any fun r => (targetDomains s r.target).any (inRecovery s)

/-- A channel is ACTIVE, or an admitted burst will make it so at or before the apply (03 R65). -/
def willBeActive (s : State) (a : Action) (ch : Nat) : Bool :=
  (s.chan ch).st == .active ||
    s.bursts.any fun p => p.2.any fun b => !b.begun && makesActive s b.mask b.startPos a ch

/-- The lowest effective MODE record of a channel that R65 protects (15 R350). -/
def modeOffender (s : State) (a : Action) (recs : List Rec) : Option Nat :=
  ((effective 0 recs).find? fun p =>
    tCls p.2.target == 1 && tPar p.2.target == 1 && willBeActive s a (tIdx p.2.target)).map Prod.fst

/-- The tests of the recovery check: status and DETAIL of the first that fails (14 R327 item 2). -/
def recoveryTests (s : State) (a : Action) (k : Nat) : Option (Nat × Nat) :=
  let recs := (s.set k).recs
  let off := modeOffender s a recs
  firstFail [(setRecovers s recs, Status.recovery, 0), (off.isSome, Status.consistency, off.getD 0)]

/-- The recovery check of an admitted apply: refused, its set OPEN again, or passed (02 R40). -/
def recoveryCheck (s : State) (a : Action) (k : Nat) : State :=
  match recoveryTests s a k with
  | some (st, d) => completeAct (reopenSet (dropAct s a) k) a st d s.sweep.pos
  | none => { s with stg.sched := s.stg.sched.map fun b => if b == a then { b with checked := true } else b }

/-- The pending apply of a set, if it is not one of a group apply, whose check R376 places elsewhere. -/
def ownApply (s : State) (k : Nat) : Option Action :=
  match findAct s (.apply k) with
  | some a => if (s.set k).group then none else some a
  | none => none

/-- APPLY_RECOVERY_CHECK: made when L first falls to 4 µs or less (15 R352). -/
def execApplyRecoveryCheck (set : Fin 16) (s : State) : Host.Outcome State Fault Refusal :=
  .next <| match ownApply s set with
    | some a =>
      if !a.checked && (isDue s a || ahead s.sweep.pos a.pos * 160 ≤ 4000 * s.sweep.rate) then recoveryCheck s a set else s
    | none => s

/-! ### What each setting does on the apply tick (15 R351) -/

/-- A resource under self-check whose settings an apply changes is abandoned by its groups (20 R454; log entry 25). -/
def abandonCheck (s : State) (t : Nat) : State :=
  let n := tIdx t
  let hit (g : Nat) : Bool :=
    if tCls t == 0x01 then g < 32 && g % 8 == n / 64 else if tCls t == 0x07 then g == 32 + n
    else if tCls t == 0x06 then g == 48 + n else false
  let s := { s with cal.checks := s.cal.checks.map fun p =>
    (p.1, if hit p.1 then p.2.map fun c =>
      if c.eligible.contains n && !c.abandoned.contains n then { c with abandoned := n :: c.abandoned } else c else p.2) }
  match tCls t with
  | 0x01 => if (s.chan n).checking then s.updChan n fun c => { c with checking := false } else s
  | 0x06 => if (s.awg n).checking then s.updAwg n fun c => { c with checking := false } else s
  | 0x07 => if (s.dig n).checking then s.updDig n fun c => { c with checking := false } else s
  | _ => s

/-- A MODE record acts on its channel (03 R64; 08 R181; 07 R154). -/
def applyMode (s : State) (n : Nat) (m : Int) : State :=
  let st := (s.chan n).st
  if st == .isolated || st == .active || st == modeState m then s
  else
    let running := match (s.lg (n / 8)).item with
      | some (id, i) => itemChan (pmuItem s id i) == n
      | none => false
    let s := if st == .pmu && running then cutItem s (n / 8) 30 else s
    let s := enterMode s n m
    if st == .hold then payWindows s n else s

/-- A static PPMU setting acts at once on a channel in PMU without a running item (08 R171, R181). -/
def applyForce (s : State) (n : Nat) : State :=
  let running := match (s.lg (n / 8)).item with
    | some (id, i) => itemChan (pmuItem s id i) == n
    | none => false
  if (s.chan n).st == .pmu && !running then forceChan s n (staticForce s n) else s

/-- A BLANK_MODE record acts on the open window: a channel that it blanks ends its run of BETWEEN, one that it does not is
evaluated (03 R54, R57, R59). -/
def applyBlank (s : State) (n : Nat) : State :=
  if blankedAt s n (s.now * 256) then breakRun s n (s.now * 256) else evalOpen s n (s.now * 256)

/-- A DCS_SEL record acts on a clock at the pin: the old source runs to its first falling edge after the apply tick (03
R51). -/
def applyDcsSel (s : State) (n : Nat) (old v : Int) : State :=
  let c := s.chan n
  if old == v || !(c.drv == .clock || c.clkTo.isSome) then s
  else s.updChan n fun c => { c with clkPast := c.clkPast ++ [(old.toNat, ((s.now * 256 + 256 : Nat) : Int))] }

/-- A channel record acts (03 R60 to R63, R69; 08 R171); the value it replaces is `old`. -/
def applyChan (s : State) (n par : Nat) (old v : Int) : State :=
  let s := if levelPars.contains par && old != v then s.updChan n fun c => { c with levelAt := Tab.set 0 c.levelAt par s.now } else s
  if isContained s (domChan n) then s
  else match par with
  | 0x001 => applyMode s n v
  | 0x00C => applyBlank s n
  | 0x00D => if old == v then s else clearLatch s n
  | 0x00E => if old == v then s else clearLatchIn s n s.now
  | 0x00F => (clearLatchIn s n s.now).updChan n fun c => { c with armed := true }
  | 0x011 => if (s.chan n).st == .idle then s.updChan n fun c => c.drive s n (idleDrv s n) (s.now * 256) else s
  | 0x012 => applyDcsSel s n old v
  | 0x013 => if v == 1 then s.updChan n fun c => { c with armed := true } else s
  | 0x301 => applyForce s n
  | 0x302 => applyForce s n
  | 0x303 => applyForce s n
  | 0x304 => applyForce s n
  | _ => s

/-- A change of DDS_FREQ or DDS_PHASE of a running DDS source waits for the first granule boundary 64 ns or more after it, with
the values of this apply (10 R238). -/
def ddsChange (s : State) (n : Nat) (old v : Int) : State :=
  if old != v && (s.awg n).dds && (s.awg n).st == .running then
    let clk := (dacNow s + 64 + 63) / 64 * 64
    s.updAwg n fun a =>
      { a with ddsDue := a.ddsDue.filter (·.1 != clk) ++ [(clk, ddsFtw (s.setting 6 n 14), s.settingN 6 n 15)] }
  else s

/-- A source record acts (10 R238, R241); on a contained source at its restoration. -/
def applyAwg (s : State) (n par : Nat) (old v : Int) : State :=
  if isContained s (domAwg n) then s
  else match par with
  | 0x006 => if (s.awg n).atClear then s.updAwg n fun a => { a with last := clearCode s n } else s
  | 0x00E => ddsChange s n old v
  | 0x00F => ddsChange s n old v
  | _ => s

/-- A trigger-unit record acts: a decision instant before it uses the old value, and a change of KIND, source or SEL clears the
slot's pending start (09 R194, R197). -/
def applyTu (s : State) (u par : Nat) (old v : Int) : State :=
  if old == v then s
  else
    let t := stampNow s
    let s := s.updTu u fun x => { x with past := (x.past.filter fun h => h.1 + usStamp > t) ++ [(t, par, old)] }
    if par ≥ 0x100 && par % 16 ≤ 2 then
      s.updTuSlot u ((par - 0x100) / 16) fun k => { k with cut := t, cutLast := t, fired := false }
    else s

/-- A synthesizer record acts (11 R246). -/
def applyDcs (s : State) (n par : Nat) (old v : Int) : State :=
  let d := s.dcs n
  if d.st == .contained then s
  else if par == 5 || par == 6 then settleDcs s n
  else
    let changed := old != v || (par == 2 && v.toNat != d.nNow)
    if par > 4 || !changed then s
    else if d.ramp.any (·.running) then s.updDcs n fun d => { d with retunePending := true }
    else if par == 3 then changeO s n v.toNat
    else startRetune s n

/-- The sweep takes a source (02 R31). GROUP shows NO_SYNC until its first frame (DESIGN CHOICE, log entry 58). -/
def takeSource (s : State) (v : Int) : State :=
  let x := s.sweep
  let base := { x with
    acc := 0, jumpAt := s.now * 65536, holdFor := none, limit := none, synced := false, sinceMark := none, lastTooth := none,
    lastIndex := none, lastIv := none, prevIv := none, indexNow := false, indexInRev := false, revsNoIndex := 0, endedRev := none,
    origin := 0, takeNext := false, ang := anglePars s }
  let y :=
    if v == 1 then { base with source := .group, st := .noSync, rate := 0, takeNext := true }
    else if v == 2 then { base with source := .angle, st := .noSync, rate := 0 }
    else { base with source := .time, st := .running, rate := 10485760 }
  sourceChanged { s with sweep := y }

/-- One setting of an apply acts; `img` is the image before it (15 R351). -/
def applyOne (img : List (Nat × Int)) (p : Nat × Int) (s : State) : State :=
  let (t, v) := p
  let n := tIdx t
  let par := tPar t
  let old := imgGet img t
  let s := if old != v then abandonCheck s t else s
  match tCls t with
  | 0x01 => applyChan s n par old v
  | 0x02 => if par == 0x101 then scanGo s n else s
  | 0x06 => applyAwg s n par old v
  | 0x08 => applyTu s n par old v
  | 0x09 => applyDcs s n par old v
  | 0x0C =>
    if old == v then s else s.updIn (n / 16) (n % 16) fun x => { x with gates := (stampNow s, v == 1) :: x.gates }
  | _ => s

/-- A digitizer that keeps samples records that settings were applied (09 R207). -/
def digApplied (s : State) (n : Nat) : State :=
  if acqRuns (s.dig n) && !isContained s (domDig n) then addRecs s n (fun q => mkRec 3 2 0 0 q 0 0) (s.dig n).g else s

/-- Advance a sector epoch (17 R393). -/
def bumpEpoch (s : State) (n : Nat) : State :=
  { s with csq.epochs := Tab.set 0 s.csq.epochs n (addWrap 16 (Tab.get 0 s.csq.epochs n) 1) }

/-- Sectors that R326 assigns to records of a set. -/
def setSectors (s : State) (recs : List Rec) : Nat :=
  recs.foldl (fun m r =>
    let c := recClaim s r.target
    if c.1 == 0 then m ||| c.2 else m) 0

/-- The records of a set take effect as one change (15 R351, R353). -/
def applyRecs (s : State) (recs : List Rec) : State :=
  let img := s.stg.image
  let secs := setSectors s recs
  let vals := (effective 0 recs).map Prod.snd
  let s := { s with stg.image := imgRecs img recs }
  let s := forEach (vals.flatMap expand) s fun p s => applyOne img p s
  let digs := (vals.filterMap fun r => if tCls r.target == 0x07 then some (tIdx r.target) else none).eraseDups
  let s := forEach digs s fun n s => digApplied s n
  let s := forEach (maskList 8 secs) s fun n s => bumpEpoch s n
  refreshRoutes s

/-- The source that a set stages for the sweep, where it differs from the one in force (02 R31). -/
def newSource (s : State) (recs : List Rec) : Option Int :=
  let v := imgGet (imgRecs s.stg.image recs) (targetOf 0x0A 0 1)
  let now : Int := match s.sweep.source with
    | .time => 0
    | .group => 1
    | .angle => 2
  if v != now && recs.any fun r => r.target == targetOf 0x0A 0 1 then some v else none

/-- An apply takes effect: its records act, its set is released, its descriptor completes at the apply position (14 R327; 15
R351). -/
def applySet (s : State) (a : Action) (k : Nat) : State :=
  let recs := (s.set k).recs
  let src := newSource s recs
  let s := (dropAct s a).updSet k fun x =>
    { x with st := .free, owner := 0, recs := [], group := false, applies := addWrap 32 x.applies 1 }
  let s := applyRecs s recs
  let s := match src with
    | some v => takeSource s v
    | none => if s.sweep.source == .angle then s else takeAngle s
  match a.slot with
  | some id => if isGroupSlot s id then s else complete s id Status.ok recs.length a.pos
  | none => s

/-- This device drives GFLT_N (16 R367). -/
def drivesGflt (s : State) : Bool := s.stopped || s.flt.phase == .recovery || s.grp.gfltUntil.isSome

/-- A group apply takes effect on this device: only once it is committed; a worker tells it (16 R376, R377). -/
def applyGroup (s : State) (a : Action) (k : Nat) : State :=
  if a.slot.isSome then
    (match s.grp.op with
     | some o =>
       if o.committed then
         let s := applySet s a k
         { s with grp.op := s.grp.op.map fun o => { o with gflt := o.gflt || s.grp.gfltN || drivesGflt s, actAt := some s.now } }
       else s
     | none => s)
  else match s.grp.worker with
    | some w => if w.committed then event { applySet s a k with grp.worker := none } 0x04A6 (w.op + 256 * k) else s
    | none => s

/-- SCHEDULED_APPLY: on the first tick at or after its position (15 R351; 02 R40, R41). -/
def execScheduledApply (set : Fin 16) (s : State) : Host.Outcome State Fault Refusal :=
  .next <| match findAct s (.apply set) with
    | some a =>
      if !mayAct s a then s
      else if (s.set set).group then applyGroup s a set
      else
        let s := if a.checked then s else recoveryCheck s a set
        (match findAct s (.apply set) with
         | some a => if a.checked then applySet s a set else s
         | none => s)
    | none => s

/-! ### Daymarks (15 R358 to R362) -/

/-- The counters that a daymark captures: byte offset in the bank, bytes, value (15 R361). -/
def dayCounters (s : State) : List (Nat × Nat × Nat) :=
  let secs := (List.range 8).flatMap fun n =>
    let x := s.sec n
    let b := 0x100 + 32 * n
    [(b, 4, x.stallVectors), (b + 4, 2, x.underruns), (b + 6, 2, x.waitLate), (b + 8, 4, x.ignoredStarts),
     (b + 12, 4, x.wgSkipped), (b + 16, 2, x.buf.length), (b + 18, 2, x.refillMin)]
  let sites := s.sites.map fun p => (0x200 + 4 * p.1, 4, p.2.failCount)
  let tus := s.tus.flatMap fun p =>
    let b := 0x600 + 16 * p.1
    [(b, 4, p.2.firings), (b + 4, 4, p.2.suppressed), (b + 8, 4, p.2.coincident)]
  let awgs := s.awgs.flatMap fun p =>
    let b := 0x700 + 32 * p.1
    [(b, 8, p.2.repetitions), (b + 8, 4, p.2.marks), (b + 12, 4, p.2.ignored), (b + 16, 2, p.2.underruns),
     (b + 20, 4, underSamplesNow s p.2), (b + 24, 4, p.2.routeBlocked)]
  let digs := s.digs.flatMap fun p =>
    let b := 0x900 + 64 * p.1
    [(b, 8, p.2.kept), (b + 8, 8, p.2.lostSamples), (b + 16, 4, p.2.gaps), (b + 20, 4, p.2.lostMarks),
     (b + 24, 4, p.2.maskTests), (b + 28, 4, p.2.maskViolations), (b + 32, 4, p.2.maskIgnored)]
  let engs := s.engs.flatMap fun p =>
    let b := 0xD00 + 128 * p.1
    [(b, 8, p.2.cycles), (b + 8, 8, p.2.stalls % 2 ^ 48), (b + 16, 4, p.2.limitFails), (b + 20, 4, p.2.guardFails)] ++
      ((List.range 8).map fun i => (b + 24 + 4 * i, 4, (Tab.get {} p.2.ins i).lost)) ++
      [(b + 56, 4, p.2.outLost), (b + 60, 4, p.2.discarded), (b + 64, 2, p.2.eccCorrected)]
  let strs := s.host.str.map fun p => (0x1500 + 8 * p.1, 8, p.2.bytes)
  let doms := s.flt.counts.map fun p => (0x1600 + 2 * p.1, 2, p.2)
  let chans := s.chans.flatMap fun p =>
    let b := 0x2000 + 32 * p.1
    [(b, 8, p.2.stamps), (b + 8, 4, p.2.holdSuppressed), (b + 12, 4, p.2.deadMissed), (b + 16, 4, p.2.outsideWindow),
     (b + 20, 4, p.2.lostStamps), (b + 24, 2, p.2.slips), (b + 26, 2, p.2.truncs), (b + 28, 1, p.2.queue.length),
     (b + 29, 1, p.2.queuePeak)]
  ((0x40, 4, s.flt.device) :: secs ++ sites ++ tus ++ awgs ++ digs ++ engs ++ strs ++ doms ++ chans).filterMap fun c =>
    if c.2.2 % 2 ^ (8 * c.2.1) == 0 then none else some (c.1, c.2.1, c.2.2 % 2 ^ (8 * c.2.1))

/-- A daymark bank. -/
def State.bank (s : State) (b : Nat) : Bank := if b = 0 then s.stg.bank0 else s.stg.bank1
/-- Update a daymark bank. -/
def State.updBank (s : State) (b : Nat) (f : Bank → Bank) : State :=
  if b = 0 then { s with stg.bank0 := f s.stg.bank0 } else { s with stg.bank1 := f s.stg.bank1 }

/-- The number k of the next daymark, which a group daymark moves to the parity of its bank (15 R358). -/
def dayNumber (s : State) (bank : Option Nat) : Nat :=
  match bank with
  | some b => if s.stg.dayCount % 2 == b then s.stg.dayCount else s.stg.dayCount + 1
  | none => s.stg.dayCount

/-- A daymark is pending. -/
def dayPending (s : State) : Bool := s.stg.sched.any fun a => actRank a.kind == 2

/-- Capture a daymark of an action into its bank, which then reads WRITING (15 R358, R362). The counters are those of the end of
the tick before (02 R39). -/
def captureDay (s : State) (a : Action) (bank : Option Nat) : State :=
  let k := dayNumber s bank
  let cs := match s.stg.daySnap with
    | some (n, cs) => if n = s.now then cs else dayCounters s
    | none => dayCounters s
  let pos := s.stg.dayPos.filter fun p => s.sweep.rate == 0 || ahead p s.sweep.pos < leadUnits s 40000
  let s := (dropAct s a).updBank (k % 2) fun b => { b with st := 1, pos := a.pos, tick := s.tick, counters := cs }
  { s with stg.dayCount := k + 1, stg.dayBusy := some (k % 2, a.slot), stg.dayPos := a.pos :: pos }

/-- The daymark that takes effect now, the first in the order of positions (15 R359). -/
def dueDay (s : State) : Option (Action × Option Nat) :=
  (sortActs s.sweep.pos s.stg.sched).findSome? fun a =>
    if !mayAct s a then none
    else match a.kind with
      | .daymark => some (a, none)
      | .groupDaymark b => some (a, some b)
      | _ => none

/-- DAYMARK_CAPTURE (15 R358; 02 R40, R41). -/
def execDaymarkCapture (s : State) : Host.Outcome State Fault Refusal :=
  .next <| match dueDay s with
    | some (a, b) => if s.stg.dayBusy.isSome then s else captureDay s a b
    | none => s

/-- DAYMARK_BANK_VALID: SEQ is written, then STATE; the DAYMARK completes (15 R359, R360, R362). -/
def execDaymarkBankValid (s : State) : Host.Outcome State Fault Refusal :=
  .next <| match s.stg.dayBusy with
    | some (b, slot) =>
      let k := (s.stg.dayCount - 1) % 2 ^ 32
      let s := s.updBank b fun x => { x with seq := k, st := 2 }
      let s := { s with stg.dayBusy := none, stg.lastBank := b, stg.lastSeq := k, stg.dayDone := true }
      let p := (s.bank b).pos
      (match slot with
       | some id => if isGroupSlot s id then endGroupOp s Status.ok b p else complete s id Status.ok b p
       | none => s)
    | none => s

end Sys2Proof.Machine
end

