-- ==== Sys2Proof/Machine/Group.lean ====
section
/-! DEFINITION. Group operation (16) and the FENCE descriptor (13 R298 to R300): beacon frames, alignment, group applies, group
daymarks, fence tokens and epochs. -/

namespace Sys2Proof.Machine

open Sys2Proof

/-! ### Frames and lines (16 R366 to R371) -/

/-- The TYPE of a frame (16 R369). -/
def Frame.code : Frame → Nat
  | .posSync _ _ => 0
  | .prepare _ _ _ _ => 1
  | .apply _ _ => 2
  | .commit _ => 3
  | .cancel _ => 4
  | .daymark _ _ _ => 5
  | .fence _ _ => 6
  | .ping _ => 7
  | .comp _ _ _ => 8
  | .tick _ => 9
  | .epoch _ => 10

/-- The PAYLOAD of a frame (16 R369). -/
def Frame.payload : Frame → Nat
  | .posSync p r => pack [(64, p.toNat), (32, r)]
  | .prepare op set sweep p => pack [(8, op), (4, set), (1, b2n sweep), (19, 0), (64, p.toNat)]
  | .apply op p => pack [(8, op), (24, 0), (64, p.toNat)]
  | .commit op => pack [(8, op)]
  | .cancel op => pack [(8, op)]
  | .daymark op bank p => pack [(8, op), (1, bank), (23, 0), (64, p.toNat)]
  | .fence op visible => pack [(8, op), (1, b2n visible)]
  | .ping g => pack [(5, g)]
  | .comp g b l => pack [(5, g), (3, 0), (24, b), (24, l)]
  | .tick t => pack [(64, t)]
  | .epoch d => pack [(64, d.toNat), (32, 0)]

/-- One bit of CRC-16, polynomial 0x1021 (16 R368). -/
def crcStep (c : Nat) (b : Bool) : Nat :=
  if bitOf c 15 != b then (c * 2 % 65536) ^^^ 0x1021 else c * 2 % 65536

/-- CRC-16 of the low `n` bits of a word in transmission order, bit 0 first (16 R368). -/
def crc16 (n w : Nat) : Nat := (List.range n).foldl (fun c i => crcStep c (bitOf w i)) 0xFFFF

/-- The 128 bits of a frame: START, TYPE, SEQ, PAYLOAD and CRC (16 R368). -/
def frameWord (seq : Nat) (f : Frame) : Nat :=
  let w := pack [(8, 0xD5), (4, f.code), (4, seq), (96, f.payload)]
  w + 2 ^ 112 * crc16 112 w

/-- A receiver accepts a candidate only if its CRC passes (16 R368). -/
def frameAccepted (w : Nat) : Bool := bits w 7 0 == 0xD5 && crc16 112 (bits w 111 0) == bits w 127 112

/-- The frames as they stand on the wire, each with its SEQ (16 R368). -/
def wireFrames (s : State) : List (Nat × Nat) := s.grp.frames.zipIdx.map fun p => (p.1.1, frameWord p.2 p.1.2)

/-- The first bit boundary at or after a tick: a bit lasts 2.5 ns, four ticks (16 R368; log entry 75). -/
def nextBit (t : Nat) : Nat := (t + 3) / 4 * 4

/-- 320 ns of a frame and the 16 zero bits after it, in ticks (16 R368, R370). -/
def frameTicks : Nat := 576

/-- The tick at which the next command frame starts: behind every frame already placed (16 R370). -/
def beaconFree (s : State) : Nat :=
  nextBit (match s.grp.frames.getLast? with
    | some f => max s.now (f.1 + frameTicks)
    | none => s.now)

/-- The stamp time of a tick `t` that does not lie before the present one. -/
def stampAtTick (s : State) (t : Nat) : Nat := stampNow s + (t - s.now) * 65536

/-- A frame as sent at a tick: POS_SYNC and TICK carry the instant of the first edge of START (16 R369). -/
def asSent (s : State) (t : Nat) : Frame → Frame
  | .posSync p r => .posSync (p + BitVec.ofNat 64 ((t - s.now) * r / 256)) r
  | .tick _ => .tick (stampAtTick s t)
  | f => f

/-- The keeper sends a command in two consecutive frames (16 R369). -/
def sendTwice (s : State) (f : Frame) : State :=
  let t := beaconFree s
  { s with grp.frames := s.grp.frames ++ [(t, asSent s t f), (t + frameTicks, asSent s (t + frameTicks) f)],
           grp.frameSeq := addWrap 4 s.grp.frameSeq 2 }

/-- A worker that can read frames (16 R365, R366). -/
def hearsFrames (s : State) : Bool := !s.grp.keeper && s.grp.phase.isSome && s.running

/-- A device that receives the beacon: the keeper its own, too (16 R364, R366). -/
def hearsBeacon (s : State) : Bool := s.running && (s.grp.keeper || s.grp.phase.isSome)

/-- A worker inside the roster, which acts on command frames: the most recent ALIGN has aligned it (16 R369, R371). -/
def inRoster (s : State) : Bool := hearsFrames s && s.grp.aligned && !s.grp.realign

/-- A frame without OP is the second copy of the one accepted before: the same frame, up to three frame times later (16 R369; log
entry 75). -/
def isCopy (s : State) (f : Frame) : Bool := match s.grp.copyOf with
  | some (t, g) => g == f && s.now ≤ t + 3 * frameTicks
  | none => false

/-- Act on the first copy of a frame without OP (16 R369). -/
def onFirst (s : State) (f : Frame) (act : State → State) : State :=
  if isCopy s f then { s with grp.copyOf := none } else act { s with grp.copyOf := some (s.now, f) }

/-- The frame type's first accepted copy of an operation; types as in 16 R369. -/
def firstCopy (s : State) (type op : Nat) : Bool := Tab.get none s.grp.seenOps type != some op
/-- Remember the operation accepted of a frame type. -/
def seeOp (s : State) (type op : Nat) : State := { s with grp.seenOps := Tab.set none s.grp.seenOps type (some op) }

/-- The tick at which a POS_SYNC starts: the first bit boundary at which no frame is being sent (16 R370). -/
def posSlot (s : State) : Nat :=
  nextBit (match s.grp.frames.find? fun f => f.1 ≤ s.now && s.now < f.1 + frameTicks with
    | some f => f.1 + frameTicks
    | none => s.now)

/-- An APPLY or a COMMIT waits, or falls due before a frame sent now would end: a POS_SYNC waits behind it (16 R370, R376). -/
def commandDue (s : State) : Bool :=
  (s.grp.frames.any fun f => s.now < f.1 && (f.2.code == 2 || f.2.code == 3)) || match s.grp.op with
    | some o => o.kind == 1 && o.admitted && !o.committed && (match o.frameAt with
      | none => ahead s.sweep.pos o.pos * 160 < 4760 * s.sweep.rate
      | some t => s.now + frameTicks > t + 4480)
    | none => false

/-- The frame is a PING. -/
def Frame.isPing (f : Frame) : Bool := f.code == 7

/-- Place a POS_SYNC: command frames that have not begun go behind it, a PING with its stamp t0 (16 R370, R372). -/
def placePos (s : State) (f : Frame) : State :=
  let t := posSlot s
  let begun := s.grp.frames.filter fun x => x.1 < t
  let wait := s.grp.frames.filter fun x => !decide (x.1 < t)
  let moved := (wait.filter fun x => x.2.isPing).length ≥ 2
  { s with
    grp.op := s.grp.op.map fun o =>
      if o.kind == 4 && o.t2 == 0 && moved then { o with t0 := o.t0 + frameTicks * 65536 } else o,
    grp.frames := begun ++ (t, asSent s t f) :: wait.map (fun x => (x.1 + frameTicks, asSent s (x.1 + frameTicks) x.2)),
    grp.frameSeq := addWrap 4 s.grp.frameSeq 1 }

/-- Replace the keeper's operation. -/
def updOp (s : State) (f : GroupOp → GroupOp) : State := { s with grp.op := s.grp.op.map f }

/-- POS_SYNC_DUE: every 1,024 ns, with rate 0 while the sweep holds (16 R369, R370). -/
def execPosSyncDue (s : State) : Host.Outcome State Fault Refusal :=
  .next <|
    if s.grp.keeper && s.running && s.grp.posDue ≤ 5 * s.now && !commandDue s then
      let x := s.sweep
      let holds := x.holdFor.isSome || x.st == .lost || x.st == .noSync || x.st == .held
      placePos { s with grp.posDue := s.grp.posDue + 8192 } (.posSync x.pos (if holds then 0 else x.rate))
    else s

/-- GCLK_VALID: a worker's eye search chooses a sampling phase (16 R366). -/
def execGclkValid (phase : Fin 8) (s : State) : Host.Outcome State Fault Refusal :=
  .next (if s.grp.keeper then s else { s with grp.phase := some phase.val })

/-- BEACON_CRC_FAILURE: the candidate is discarded and counted (16 R368). -/
def execBeaconCrcFailure (s : State) : Host.Outcome State Fault Refusal :=
  .next (if hearsBeacon s then { s with grp.frameErrors := incSat 16 s.grp.frameErrors } else s)

/-- The keeper's apply has acted no more than 20 µs ago (16 R377). -/
def watchesGflt (s : State) (o : GroupOp) : Bool := match o.actAt with
  | some t => s.now ≤ t + 20 * usTicks
  | none => false

/-- An event of an edge of a wired-OR line, which an aligned worker takes as its line delay earlier (16 R373). -/
def lineEvent (s : State) (id data : Nat) : State :=
  let d := lineDelay s
  postAt s id 0 0xFF data (if d == 0 then s.sweep.pos else posAtStamp s (stampNow s - d))

/-- GFLT_N_EDGE (16 R367, R373, R377, R382). The line stays asserted while this device drives it (R365). -/
def execGfltNEdge (asserted : Bool) (s : State) : Host.Outcome State Fault Refusal :=
  .next <|
    if s.grp.gfltN == asserted || (!asserted && drivesGflt s) then s
    else
      let s := { s with grp.gfltN := asserted }
      let s := if asserted then
          updOp s fun o => if watchesGflt s o then { o with gflt := true } else o
        else s
      if asserted then lineEvent s 0x04AA (b2n (drivesGflt s)) else lineEvent s 0x04AB 0

/-- GFLT_DRIVE_END: 10 µs after a commit loss (16 R367, R378). -/
def execGfltDriveEnd (s : State) : Host.Outcome State Fault Refusal :=
  .next <| match s.grp.gfltUntil with
    | some t => if t ≤ s.now then { s with grp.gfltUntil := none } else s
    | none => s

/-! ### GROUP APPLY (14 R340; 16 R375 to R378) -/

/-- The header tests that every GROUP action shares, then `go`: refused during alignment, waiting while another operation runs
(14 R340; 16 R373, R375). -/
def groupStart (s : State) (id : Nat) (sl : Slot) (fieldBad : Bool) (go : State) : State :=
  let align := match s.grp.op with
    | some o => o.kind == 4
    | none => false
  guarded s id
    [(fieldBad, Status.field, 0), (!sl.coversBit 7, Status.claim, 0), (align, Status.recovery, 0)]
    (if s.grp.op.isSome then park s id .group else go)

/-- A new operation of the keeper. -/
def openOp (s : State) (o : GroupOp) : State :=
  { s with grp.op := some o, grp.nextOp := addWrap 8 s.grp.nextOp 1 }

/-- The operands of GROUP APPLY are in range. -/
def groupApplyOk (sl : Slot) : Bool :=
  sl.op 9 1 ≤ 15 && sl.op 10 1 ≤ 1 && sl.zero 11 16 && (sl.op 10 1 == 1 || sl.zero 16 24) && sl.zero 24 64

/-- The admission tests of a set for a group apply at p, LATE apart: those of CHECK, then R345 and R349; for R349 it counts as of
a ring `ring` (16 R376 step 1). -/
def groupSetTests (s : State) (sl : Slot) (ring k : Nat) (p : Pos) : Option (Nat × Nat) :=
  let later := laterApply s { sl with ring := ring } p
  firstFail (setTests s sl k (imageFor s (some p) none) ++
    [((s.set k).st == .pending, Status.consistency, 0), (later.isSome, Status.consistency, 0)])

/-- The test of a set goes on, for a time that the manual does not state, and until its end the device drives RDY_N: up to 200 µs, a
free value (16 R375, R376; log entry 3). -/
def testsSet (s : State) : State :=
  let (w, s) := s.fresh
  { s with grp.rdyTest := some (s.now + w.toNat % (200 * usTicks)) }

/-- Hold a set PENDING for a group apply. -/
def holdSet (s : State) (k : Nat) : State := s.updSet k fun x => { x with st := .pending, group := true }

/-- The keeper cancels its group apply at once (16 R377). -/
def cancelGroup (s : State) (status detail : Nat) : State :=
  match s.grp.op with
  | some o =>
    let s := unschedule (reopenSet (sendTwice s (.cancel o.op)) o.set) (.apply o.set)
    endGroupOp s status detail s.sweep.pos
  | none => s

/-- GROUP APPLY: PREPARE is sent and the keeper tests its own set (16 R376 step 1). An ACTION that names no action is refused
here. -/
def execGroupApply (id : Nat) (s : State) : Host.Outcome State Fault Refusal :=
  .next <| withDesc s id (fun sl => sl.opc == 0x60 && sl.op 8 1 != 1 && sl.op 8 1 != 2) fun sl =>
    let k := sl.op 9 1
    let p := requestPos s sl 10 16 5000
    groupStart s id sl (sl.op 8 1 != 0 || !groupApplyOk sl)
      (let op := s.grp.nextOp
       let at' := beaconFree s
       let s := sendTwice s (.prepare op k (sl.op 10 1 == 1) (BitVec.ofNat 64 (sl.op 16 8)))
       let s := park (openOp s { kind := 1, slot := id, op := op, set := k, pos := p, sentAt := at' }) id .ending
       let s := testsSet s
       match groupSetTests s sl sl.ring k p with
       | some (st, _) => endGroupOp (sendTwice s (.cancel op)) st 1 s.sweep.pos
       | none => { holdSet s k with grp.rdyN := s.grp.roster > 1 })

/-- PREPARE on a roster worker: its set is tested as an apply admission; a set that passes is PENDING (16 R376 step 1,
R377). -/
def execPrepare (op : Byte) (set : Fin 16) (sweep : Bool) (pos : Pos) (s : State) : Host.Outcome State Fault Refusal :=
  .next <|
    if !inRoster s || !firstCopy s 1 op.toNat then s
    else
      let k := set.val
      let s := seeOp s 1 op.toNat
      let s := match s.grp.worker with
        | some w => { unschedule (reopenSet s w.set) (.apply w.set) with grp.worker := none }
        | none => s
      let p := if sweep then pos else afterLead s 5000
      let me := { recsClaim s (s.set k).recs with ring := if (s.set k).st == .free then 256 else (s.set k).owner }
      let follows := s.sweep.source == .group && (s.sweep.st == .running || s.sweep.st == .holdover)
      let s := testsSet s
      let bad := match groupSetTests s me 256 k p with
        | some (st, _) => some st
        | none => if !follows then some Status.consistency
          else if sweep && isPast s.sweep.pos pos then some Status.late else none
      match bad with
      | some st => notice s 0x04A5 (st + 256 * k)
      | none =>
        let s := { holdSet s k with grp.worker := some { op := op.toNat, set := k, pos := p } }
        if sweep then schedule s { kind := .apply k, slot := none, pos := p } else s

/-- A frame is a PREPARE or a FENCE of an operation: those that RDY_N answers (16 R375). -/
def Frame.calls (op : Nat) : Frame → Bool
  | .prepare o _ _ _ => o == op
  | .fence o _ => o == op
  | _ => false

/-- The keeper reads RDY_N as released no sooner than 1 µs after the end of the frame's second copy (16 R375). -/
def rdyReadable (s : State) (o : GroupOp) : Bool :=
  match (s.grp.frames.filter fun f => f.2.calls o.op).getLast? with
  | some f => s.now ≥ f.1 + 512 + usTicks
  | none => s.now ≥ o.sentAt + frameTicks + 512 + usTicks

/-- `ns` nanoseconds have passed since the first edge of the first APPLY copy's START. -/
def sinceFrame (s : State) (f : Option Nat) (ns : Nat) : Bool := match f with
  | some t => (s.now - t) * 5 ≥ 8 * ns && s.now ≥ t
  | none => false

/-- Slot g lasts 60 ns from 800 + 60 g ns after the frame's start: the part of it from `ns` on is under way (16 R376 step
5). -/
def inSlot (s : State) (f : Option Nat) (g ns : Nat) : Bool :=
  sinceFrame s f (800 + 60 * g + ns) && !sinceFrame s f (860 + 60 * g)

/-- The line is driven for 32 ticks from a stamp time (16 R372). -/
def pulsing (s : State) (t : Nat) : Bool := t ≤ stampNow s && stampNow s < t + 32 * 65536

/-- This device drives RDY_N: while it tests a set, for a fence token or its own part of a group fence, in its vote slot, or in an
alignment pulse (16 R372, R375, R376, R380). -/
def drivesRdy (s : State) : Bool :=
  s.grp.rdyDrive || s.grp.rdyTest.any (fun t => decide (s.now < t)) || s.grp.answerAt.any (pulsing s) || (match s.grp.worker with
    | some w => w.voted && inSlot { s with now := s.now + (ownDelays s).2 / 65536 } w.frameAt s.grp.groupId 0
    | none => false) || match s.grp.op with
    | some o =>
      (o.kind == 4 && o.t3 != 0 && pulsing s o.t3) || (o.kind == 3 && !(s.slot o.slot).all (fenceDone s))
    | none => false

/-- RDY_N_RELEASED: the keeper admits its apply under the 5 µs lead, or learns that a fence token is done (16 R376 step 2,
R380). The line stays asserted while this device drives it (R365). -/
def execRdyNReleased (s : State) : Host.Outcome State Fault Refusal :=
  .next <|
    if drivesRdy s then s
    else match s.grp.op with
    | some o =>
      if !o.admitted && !rdyReadable s o then s
      else
        let s := { s with grp.rdyN := false }
        if o.admitted then s
        else if o.kind == 3 then updOp s fun o => { o with admitted := true }
        else if o.kind != 1 || schedFull s then s
        else match s.slot o.slot with
          | none => s
          | some sl =>
            let p := requestPos s sl 10 16 5000
            if requestLate s sl 10 16 5000 then cancelGroup s Status.late 0
            else updOp (schedule s { kind := .apply o.set, slot := some o.slot, pos := p })
              fun o => { o with admitted := true, pos := p }
    | none => { s with grp.rdyN := false }

/-- RDY_N_TIMEOUT: 200 µs after PREPARE (16 R377). -/
def execRdyNTimeout (s : State) : Host.Outcome State Fault Refusal :=
  .next <| match s.grp.op with
    | some o =>
      if o.kind == 1 && !o.admitted && s.now ≥ o.sentAt + 200 * usTicks then cancelGroup s Status.testerFault 0 else s
    | none => s

/-- KEEPER_SEND_APPLY: at L = 4,400 ns (16 R376 step 3). -/
def execKeeperSendApply (s : State) : Host.Outcome State Fault Refusal :=
  .next <| match s.grp.op with
    | some o =>
      if o.kind == 1 && o.admitted && o.frameAt.isNone &&
          (!isFuture s.sweep.pos o.pos || ahead s.sweep.pos o.pos * 160 ≤ 4400 * s.sweep.rate) then
        updOp (sendTwice s (.apply o.op o.pos)) fun o => { o with frameAt := some (beaconFree s) }
      else s
    | none => s

/-- The recovery check of a group apply on this device, at the end of the APPLY frame (16 R376 step 4). -/
def groupCheck (s : State) (k : Nat) (p : Pos) : Option (Nat × Nat) :=
  match findAct s (.apply k) with
  | some a => recoveryTests s { a with pos := p } k
  | none => some (Status.consistency, 0)

/-- The pending apply of a set has passed its recovery check: bursts are held against it (03 R65). -/
def markChecked (s : State) (k : Nat) : State :=
  { s with stg.sched := s.stg.sched.map fun b => if b.kind == .apply k then { b with checked := true } else b }

/-- The frame start of a group apply on a worker whose copy of APPLY ends now: 320 ns back, for the second copy 360 ns more, less
the beacon delay (16 R368, R373, R376; DEDUCED, log entry 83). -/
def applyStart (s : State) (second : Bool) : Nat :=
  s.now - 512 - (if second then frameTicks else 0) - (ownDelays s).1 / 65536

/-- APPLY_FRAME: each device with a PENDING set makes its recovery check; `second` says which copy a worker has received (16 R376
step 4, R377). -/
def execApplyFrame (op : Byte) (pos : Pos) (second : Bool) (s : State) : Host.Outcome State Fault Refusal :=
  .next <|
    if s.grp.keeper then
      (match s.grp.op with
       | some o =>
         if o.kind == 1 && o.op == op.toNat && sinceFrame s o.frameAt 320 && !o.selfOk then
           match groupCheck s o.set o.pos with
           | some (st, _) => cancelGroup s st 1
           | none => updOp (markChecked s o.set) fun o => { o with selfOk := true }
         else s
       | none => s)
    else if !inRoster s || !firstCopy s 2 op.toNat then s
    else
      let s := seeOp s 2 op.toNat
      match s.grp.worker with
      | none => s
      | some w =>
        if w.op != op.toNat then s
        else
          let s := schedule (unschedule s (.apply w.set)) { kind := .apply w.set, slot := none, pos := pos }
          match groupCheck s w.set pos with
          | some (st, _) =>
            notice { unschedule (reopenSet s w.set) (.apply w.set) with grp.worker := none } 0x04A5 (st + 256 * w.set)
          | none => { markChecked s w.set with
              grp.worker := some { w with pos := pos, frameAt := some (applyStart s second), accepted := true } }

/-- VOTE_SLOT: a worker that passed every test asserts RDY_N in its slot, its line delay early; the keeper samples slot g at
mid-slot (16 R373, R376 step 5). -/
def execVoteSlot (g : BitVec 5) (asserted : Bool) (s : State) : Host.Outcome State Fault Refusal :=
  .next <|
    if s.grp.keeper then
      (match s.grp.op with
       | some o =>
         if o.kind == 1 && asserted && bitOf s.grp.roster g.toNat && inSlot s o.frameAt g.toNat 30 then
           updOp s fun o => { o with votes := o.votes ||| 2 ^ g.toNat }
         else s
       | none => s)
    else match s.grp.worker with
      | some w =>
        let early := (ownDelays s).2 / 65536
        if g.toNat == s.grp.groupId && w.accepted &&
          inSlot { s with now := s.now + early } w.frameAt g.toNat 0 then { s with grp.worker := some { w with voted := true } } else s
      | none => s

/-- COMMIT_DECISION: 2,800 ns after the frame's start (16 R376 step 6, R377). -/
def execCommitDecision (s : State) : Host.Outcome State Fault Refusal :=
  .next <| match s.grp.op with
    | some o =>
      if o.kind != 1 || o.committed || !sinceFrame s o.frameAt 2800 then s
      else
        let own := if o.selfOk then none else groupCheck s o.set o.pos
        let missing := (List.range 31).foldl (fun m i =>
          if bitOf s.grp.roster (i + 1) && !bitOf o.votes (i + 1) then m + 2 ^ (i + 1) else m) 0
        match own with
        | some (st, _) => cancelGroup s st 1
        | none =>
          if missing != 0 then cancelGroup s Status.consistency missing
          else updOp (sendTwice s (.commit o.op)) fun o => { o with selfOk := true, committed := true }
    | none => s

/-- COMMIT on a worker whose set is PENDING and accepted (16 R376 step 7). -/
def execCommit (op : Byte) (s : State) : Host.Outcome State Fault Refusal :=
  .next <| match s.grp.worker with
    | some w =>
      if inRoster s && w.op == op.toNat && w.accepted then { s with grp.worker := some { w with committed := true } } else s
    | none => s

/-- CANCEL on a worker: its PENDING set returns to OPEN (16 R376 step 7). -/
def execCancel (op : Byte) (s : State) : Host.Outcome State Fault Refusal :=
  .next <| match s.grp.worker with
    | some w =>
      if inRoster s && w.op == op.toNat && !w.committed then
        { unschedule (reopenSet s w.set) (.apply w.set) with grp.worker := none }
      else s
    | none => s

/-- COMMIT_LOST: a worker that accepted has neither COMMIT nor CANCEL 3,900 ns after the frame's start (16 R378). -/
def execCommitLost (s : State) : Host.Outcome State Fault Refusal :=
  .next <| match s.grp.worker with
    | some w =>
      if w.voted && !w.committed && sinceFrame s w.frameAt 3900 then
        let s := unschedule (reopenSet s w.set) (.apply w.set)
        notice { s with grp.worker := none, grp.gfltUntil := some (s.now + 10 * usTicks) } 0x04A7 w.op
      else s
    | none => s

/-- GROUP_APPLY_DONE: 20 µs after P (16 R377). -/
def execGroupApplyDone (s : State) : Host.Outcome State Fault Refusal :=
  .next <| match s.grp.op with
    | some o =>
      if o.kind == 1 && o.committed && (match o.actAt with
          | some t => t + 20 * usTicks ≤ s.now
          | none => false) then
        endGroupOp s (if o.gflt then Status.testerFault else Status.ok) 0 o.pos
      else s
    | none => s

/-! ### GROUP DAYMARK (16 R379) -/

/-- GROUP DAYMARK (14 R340; 16 R379; 02 R39, R42). -/
def execGroupDaymark (id : Nat) (s : State) : Host.Outcome State Fault Refusal :=
  .next <| withDesc s id (fun sl => sl.opc == 0x60 && sl.op 8 1 == 1) fun sl =>
    let p := requestPos s sl 10 16 4000
    groupStart s id sl
      (sl.op 9 1 != 0 || sl.op 10 1 > 1 || !sl.zero 11 16 || (sl.op 10 1 == 0 && !sl.zero 16 24) || !sl.zero 24 64)
      (if schedFull s then park s id .scheduler
       else guarded s id
         [(requestLate s sl 10 16 4000, Status.late, 0), (dayTooClose s p, Status.consistency, 0)]
         (let before := (s.stg.sched.filter fun a => (a.kind == .daymark) &&
            orderKey s.sweep.pos a.pos ≤ orderKey s.sweep.pos p).length
          let bank := (s.stg.dayCount + before) % 2
          let op := s.grp.nextOp
          let s := sendTwice s (.daymark op bank p)
          let s := schedule s { kind := .groupDaymark bank, slot := some id, pos := p }
          park (openOp s { kind := 2, slot := id, op := op, pos := p, sentAt := s.now, admitted := true }) id .ending))

/-- Two positions lie less than 40 µs apart (16 R379). -/
def nearDay (s : State) (a b : Pos) : Bool := min (ahead a b) (ahead b a) < leadUnits s 40000

/-- A local daymark that lies within 40 µs of a group daymark gives way (16 R379). -/
def yieldDays (s : State) (p : Pos) : State :=
  let s := forEach (s.stg.sched.filter fun a => a.kind == .daymark && nearDay s a.pos p) s fun a s =>
    cancelAct s a Status.consistency
  match s.stg.dayBusy with
  | some (b, some id) =>
    if nearDay s (s.bank b).pos p then
      done { (s.updBank b fun x => { x with st := 0 }) with stg.dayBusy := none } id Status.consistency 0
    else s
  | _ => s

/-- DAYMARK_FRAME on a roster worker: only the past test applies (16 R379). -/
def execDaymarkFrame (op : Byte) (bank : Fin 2) (pos : Pos) (s : State) : Host.Outcome State Fault Refusal :=
  .next <|
    if !inRoster s || !firstCopy s 5 op.toNat then s
    else
      let s := seeOp s 5 op.toNat
      if isPast s.sweep.pos pos then s
      else schedule (yieldDays s pos) { kind := .groupDaymark bank.val, slot := none, pos := pos }

/-! ### FENCE (13 R298 to R300; 16 R380) -/

/-- FENCE (13 R298, R299). With SCOPE GROUP its token goes out when its routine runs (log entry 26), and it also waits for the
release of RDY_N. -/
def execFence (id : Nat) (s : State) : Host.Outcome State Fault Refusal :=
  .next <| withDesc s id (fun sl => sl.opc == 0x01) fun sl =>
    let mine := isGroupSlot s id
    let align := match s.grp.op with
      | some o => o.kind == 4
      | none => false
    let released := match s.grp.op with
      | some o => o.slot == id && o.admitted
      | none => false
    let finish (s : State) : State := done s id Status.ok (satTo 32 sl.covered)
    guarded s id
      [(!fenceOk sl, Status.field, 0), (sl.op 8 1 == 2 && !mine && align, Status.recovery, 0)]
      (if sl.op 8 1 != 2 then (if fenceDone s sl then finish s else park s id .fence)
       else if mine then
         (if fenceDone s sl && released then finish { s with grp.op := none } else park s id .fence)
       else if s.grp.op.isSome then park s id .group
       else
         let op := s.grp.nextOp
         let at' := beaconFree s
         let s := sendTwice s (.fence op (sl.op 9 1 == 1))
         let s := openOp s { kind := 3, slot := id, op := op, sentAt := at' }
         park { s with grp.rdyN := s.grp.roster > 1 } id .fence)

/-- FENCE_FRAME on a roster worker: as a DEVICE fence received at this instant; RDY_N is asserted until it is done (16
R380). -/
def execFenceFrame (op : Byte) (visible : Bool) (s : State) : Host.Outcome State Fault Refusal :=
  .next <|
    if !inRoster s || !firstCopy s 6 op.toNat then s
    else
      let bounds := s.host.sq.map fun r => (r.1, submitted r.2)
      let s := { seeOp s 6 op.toNat with grp.fence := some (bounds, visible), grp.rdyDrive := true, grp.rdyN := true }
      event s 0x04A8 (op.toNat + 256 * b2n visible)

/-- A fence token whose covered descriptors are complete, and visible where it asks, releases RDY_N (16 R380). -/
def releaseFence (s : State) : State :=
  match s.grp.fence with
  | some (b, visible) =>
    if boundsDone s b && (!visible || boundsVisible s b) then
      { s with grp.fence := none, grp.rdyDrive := false, grp.rdyN := false }
    else s
  | none => s

/-! ### Tick numbers (07 R148; 16 R372, R373, R381) -/

/-- Move a stamp time by a number of stamp units. -/
def moveStamp (d : Int) (t : Nat) : Nat := ((t : Int) + d).toNat

/-- A digitizer counts its samples by the new tick number: sample numbers ahead or under way move with it, those of the decimator
start anew (09 R188; log entry 27). -/
def shiftDig (s : State) (k : Nat) (x : Dig) : Dig :=
  let g := sampleAt (stampNow s)
  let d : Int := (g : Int) - x.g
  let q := (g + 2 ^ k - 1) / 2 ^ k
  let dq : Int := (q : Int) - x.q
  let mv (by' : Int) (n : Nat) : Nat := ((n : Int) + by').toNat
  let flow (by' : Int) (f : Flow) : Flow :=
    { f with recs := f.recs.map fun r => { r with sample := mv by' r.sample }, gap := f.gap.map fun p => (mv by' p.1, p.2) }
  { x with
    g := g, decFrom := g, q := q, chunks := [], g0 := mv d x.g0, startG := x.startG.map (mv d), last := x.last.map (mv d),
    test := x.test.map fun t => (mv d t.1, t.2), line := x.line.map fun l => { l with g := mv d l.g },
    raw := flow d x.raw, dec := flow dq x.dec }

/-- Clocks and instants of a source keep their place in time: `c` DAC clocks, `mv` for stamp times (10 R229 to R238). -/
def shiftAwg (c : Int) (mv : Nat → Nat) (x : Awg) : Awg :=
  let at' (n : Nat) : Nat := ((n : Int) + c).toNat
  { x with
    clk := at' x.clk, heldAt := x.heldAt.map at', release := x.release.map at', ddsClk := at' x.ddsClk,
    ddsDue := x.ddsDue.map (fun p => (at' p.1, p.2)), jump := x.jump.map (fun j => { j with clk := at' j.clk }),
    waitFrom := mv x.waitFrom, relAt := mv x.relAt, due := x.due.map mv }

/-- Change the tick number by d stamp units: instants that lie ahead or are measured from keep their place in time; every open
stream owes an EPOCH record; digitizers and sources count by the new number (07 R143, R148; 16 R372, R373, R381; log entry
27). -/
def shiftTicks (s : State) (d : Int) : State :=
  let mv := moveStamp d
  let upTo : Int := (stampNow s : Int) + d
  let k : Int := upTo / 65536 - s.tick.toNat
  let mt (t : Nat) : Nat := ((t : Int) + k).toNat
  let pair (w : Nat × Nat) : Nat × Nat := (mv w.1, mv w.2)
  let clocks : Int := (dacAt upTo.toNat : Int) - dacNow s
  let s := { s with
    tick := BitVec.ofInt 64 (upTo / 65536), tickFrac := BitVec.ofInt 16 upTo,
    chans := s.chans.map fun p => (p.1, { p.2 with
      epochSent := none, resolved := p.2.resolved.map mv, refVol := p.2.refVol.map mt, refVoh := p.2.refVoh.map mt,
      accepted := p.2.accepted.map (fun q => (mv q.1, q.2)),
      aligning := p.2.aligning.map (fun q => (mv q.1, stampRec q.2.type (q.2.tick * 65536 + q.2.fine + d))) }),
    streams := s.streams.map fun p => (p.1, { p.2 with since := mv p.2.since }),
    sectors := s.sectors.map fun p => (p.1, { p.2 with
      wgs := p.2.wgs.map fun w => (w.1, { w.2 with
        win := w.2.win.map pair, past := w.2.past.map pair, due := w.2.due.map mv }) }),
    tus := s.tus.map fun p => (p.1, { p.2 with
      slots := p.2.slots.map (fun x => (x.1, { x.2 with
        start := x.2.start.map mv, last := x.2.last.map mv, cut := mv x.2.cut, cutLast := mv x.2.cutLast })),
      hits := p.2.hits.map (fun h => { h with t := mv h.t }), holdoff := p.2.holdoff.map mv, heldTo := mv p.2.heldTo,
        lastG := sampleAt (mv (sampleTime p.2.lastG)),
      past := p.2.past.map fun h => (mv h.1, h.2) }),
    tb := s.tb.map fun p => (p.1, { p.2 with edges := p.2.edges.map fun e => (mv e.1, e.2) }),
    awgs := s.awgs.map fun p => (p.1, shiftAwg clocks mv p.2),
    engs := s.engs.map fun p => (p.1, { p.2 with
      ins := p.2.ins.map fun i => (i.1, { i.2 with gates := i.2.gates.map fun g => (mv g.1, g.2) }) }),
    sweep := { s.sweep with lastTooth := s.sweep.lastTooth.map mv, lastIndex := s.sweep.lastIndex.map mv },
    grp.answerAt := s.grp.answerAt.map mv }
  forEach (List.range 16) s fun n s => s.updDig n (shiftDig s (decK s n))

/-- EPOCH on a roster worker: the offset is added to its tick number (16 R381). -/
def execEpoch (offset : BitVec 64) (s : State) : Host.Outcome State Fault Refusal :=
  .next <|
    if !inRoster s then s
    else onFirst s (.epoch offset) fun s => event (shiftTicks s offset.toInt) 0x04A9 0

/-- SYS_EPOCH: an armed keeper stamps the selected edge at t (16 R381, R383). -/
def execSysEpoch (falling : Bool) (t : Nat) (s : State) : Host.Outcome State Fault Refusal :=
  .next <|
    if !s.grp.keeper || !s.grp.epochArm || s.grp.epochEdge != falling || !s.running || !stampDue s t then s
    else
      let e : Int := (t : Int) - s.grp.epochDelay
      let offset : Int := (s.grp.epochTick.toNat * 65536 : Nat) - e
      let gone : Int := (stampNow s : Int) - e
      let p := s.grp.epochPos + BitVec.ofInt 64 (gone * s.sweep.rate / 2 ^ 24)
      let s := if s.sweep.source != .time then s
        else if isPast s.sweep.pos p then
          { s with sweep := { s.sweep with st := .held, holdFor := some s.sweep.pos, beacon := p, acc := 0 } }
        else resyncTo { s with sweep.st := .running, sweep.holdFor := none } p
      let s := shiftTicks { s with grp.epochArm := false } offset
      event (sendTwice s (.epoch (BitVec.ofInt 64 offset))) 0x04A9 0

/-! ### Leading-light alignment (16 R372, R373) -/

/-- Send PING to a worker and stamp it (16 R372 step 1). -/
def sendPing (s : State) : State :=
  match s.grp.op with
  | some o => updOp (sendTwice s (.ping o.worker)) fun o => { o with t0 := stampAtTick s (beaconFree s), t2 := 0, t3 := 0 }
  | none => s

/-- GROUP ALIGN (14 R340; 16 R372). -/
def execGroupAlign (id : Nat) (s : State) : Host.Outcome State Fault Refusal :=
  .next <| withDesc s id (fun sl => sl.opc == 0x60 && sl.op 8 1 == 2) fun sl =>
    groupStart s id sl (!sl.zero 9 64)
      (let op := s.grp.nextOp
       let s := park (openOp s { kind := 4, slot := id, op := op, sentAt := s.now, admitted := true }) id .ending
       sendPing { s with grp.roster := 1, grp.delays := [] })

/-- Go on with the next worker, or end the alignment (16 R372, R382). -/
def alignNext (s : State) : State :=
  match s.grp.op with
  | some o =>
    if o.worker ≥ 31 then endGroupOp (event s 0x04A3 o.aligned) Status.ok o.aligned s.sweep.pos
    else sendPing (updOp s fun o => { o with worker := o.worker + 1, round := 0, ras := [], rbs := [] })
  | none => s

/-- The standard deviation of 16 doubled delays is at most 10 ps, 131,072 / 125 stamp units (16 R373; log entry 28). -/
def spreadOk (xs : List Int) : Bool :=
  125 * 125 * (16 * (xs.map fun x => x * x).sum - xs.sum * xs.sum) ≤ (32 * 131072) * (32 * 131072)

/-- A delay as COMP carries it: one that 24 bits cannot hold stands as 0xFF_FFFE, beyond 60 ns (DESIGN CHOICE, log
entry 28). -/
def compDelay (d : Int) : Nat := if 0 ≤ d && d < 0xFFFFFE then d.toNat else 0xFFFFFE

/-- A worker's 16 rounds are in: its delays go out with COMP, a beacon delay of 0xFF_FFFF for a spread that fails; a worker that
passes joins the roster and takes TICK (16 R372 steps 7 and 8, R373; log entry 28). -/
def alignWorker (s : State) : State :=
  match s.grp.op with
  | some o =>
    let g := o.worker
    let sumA := o.ras.sum
    let sumB := o.rbs.sum
    let dl := roundDiv sumB 32
    let db := roundDiv (2 * sumA - sumB) 32
    let spread := spreadOk o.rbs && spreadOk ((o.ras.zip o.rbs).map fun p => 2 * p.1 - p.2)
    let range := 0 ≤ dl && dl ≤ 6291456 && 0 ≤ db && db ≤ 6291456
    let s := sendTwice s (.comp g (if spread then compDelay db else 0xFFFFFF) (compDelay dl))
    alignNext (if spread && range then
        updOp { sendTwice s (.tick 0) with
          grp.roster := s.grp.roster ||| 2 ^ g, grp.delays := Tab.set none s.grp.delays g (some (db.toNat, dl.toNat)) }
          fun o => { o with aligned := o.aligned + 1 }
      else s)
  | none => s

/-- ALIGN_REPLY: the keeper stamps a worker's assertion, t2 or t5 of its round; a reply to PING comes within 2 µs (16 R372 steps 3
and 6). -/
def execAlignReply (t : Nat) (s : State) : Host.Outcome State Fault Refusal :=
  .next <| match s.grp.op with
    | some o =>
      let lag : Int := 1600 * 65536
      if o.kind != 4 then s
      else if o.t2 == 0 then
        (if o.t0 < t && t ≤ o.t0 + 2 * usTicks * 65536 then
           updOp s fun o => { o with t2 := t, ras := o.ras ++ [(t : Int) - o.t0 - lag] }
         else s)
      else if o.t3 == 0 || t ≤ o.t3 then s
      else
        let s := updOp s fun o => { o with rbs := o.rbs ++ [(t : Int) - o.t3 - lag], round := o.round + 1 }
        if o.round + 1 ≥ 16 then alignWorker s else sendPing s
    | none => s

/-- ALIGN_KEEPER_PULSE: at t2 + 3,200 ticks the keeper asserts RDY_N, stamped t3 (16 R372 step 4). -/
def execAlignKeeperPulse (t : Nat) (s : State) : Host.Outcome State Fault Refusal :=
  .next <| match s.grp.op with
    | some o =>
      if o.kind == 4 && o.t2 != 0 && o.t3 == 0 && t ≥ o.t2 + 3200 * 65536 then updOp s fun o => { o with t3 := t } else s
    | none => s

/-- ALIGN_ABSENT: no reply within 2 µs of a PING, or of the keeper's pulse (16 R372; log entry 28). -/
def execAlignAbsent (s : State) : Host.Outcome State Fault Refusal :=
  .next <| match s.grp.op with
    | some o =>
      let from' := if o.t2 == 0 then o.t0 else o.t3
      if o.kind == 4 && (o.t2 == 0 || o.t3 != 0) && stampNow s ≥ from' + 2 * usTicks * 65536 then alignNext s else s
    | none => s

/-- PING: the addressed worker answers the first copy on RDY_N 1,600 ticks after its stamp. PING(1), or its own, begins an ALIGN
that has yet to align the worker (16 R369, R371, R372 step 2; log entry 28). -/
def execPing (gid : BitVec 5) (t : Nat) (s : State) : Host.Outcome State Fault Refusal :=
  .next <|
    if !hearsFrames s then s
    else onFirst s (.ping gid.toNat) fun s =>
      let mine := gid.toNat == s.grp.groupId && gid.toNat != 0
      { s with grp.answerAt := if mine then some (t + 1600 * 65536) else none,
               grp.realign := s.grp.realign || mine || gid.toNat == 1 }

/-- ALIGN_ECHO: the worker answers the keeper's pulse 1,600 ticks after its stamp (16 R372 step 5). -/
def execAlignEcho (t : Nat) (s : State) : Host.Outcome State Fault Refusal :=
  .next (if hearsFrames s && s.grp.answerAt.isSome then { s with grp.answerAt := some (t + 1600 * 65536) } else s)

/-- COMP: the addressed worker takes its delays if both lie from 0 to 60 ns and their spread passed, else it leaves the roster (16
R373; log entry 28). -/
def execComp (gid : BitVec 5) (beacon line : BitVec 24) (s : State) : Host.Outcome State Fault Refusal :=
  .next <|
    if !hearsFrames s || gid.toNat != s.grp.groupId || gid.toNat == 0 then s
    else onFirst s (.comp gid.toNat beacon.toNat line.toNat) fun s =>
      let g := gid.toNat
      let spread := beacon.toNat == 0xFFFFFF
      let range := line.toNat > 6291456 || (!spread && beacon.toNat > 6291456)
      if spread || range then
        notice { s with grp.aligned := false, grp.realign := false, grp.delays := Tab.set none s.grp.delays g none } 0x04A4
          (g + 256 * b2n range + 512 * b2n spread)
      else
        { s with grp.aligned := true, grp.realign := false,
                 grp.delays := Tab.set none s.grp.delays g (some (beacon.toNat, line.toNat)) }

/-- TICK: the worker being aligned adds (tick + d_b − t7) to its tick number (16 R372 step 8). -/
def execTick (stamp : BitVec 64) (arrival : Nat) (s : State) : Host.Outcome State Fault Refusal :=
  .next <|
    if inRoster s && s.grp.answerAt.isSome then
      let d : Int := stamp.toNat + (ownDelays s).1 - arrival
      shiftTicks { s with grp.answerAt := none } d
    else s

end Sys2Proof.Machine
end

