-- ==== Sys2Proof/Machine/FaultCmd.lean ====
section
/-! DEFINITION. The commands of the fault system: the conditions that the monitors detect, the steps of a recovery, the
SECTOR_ALIVE pins and AWG_CLR_N (18; 03 R66; 04 R74; 08 R173; 09 R191; 10 R239, R240; 11 R249; 01 R13; 21 R471). A command
is a detection: its condition has held for its qualify time; those of 03 R66 name what the monitor has measured, and since when. -/

namespace Sys2Proof.Machine

open Sys2Proof

/-! ### Conditions of channels and lane groups (03 R66; 08 R173) -/

/-- `now` at which the last restoration of a domain containing d began; 0 if none has (03 R66). -/
def restSince (s : State) (d : Nat) : Nat := (domChain 5 d).foldl (fun m e => max m (Tab.get 0 s.flt.restAt e)) 0

/-- A monitor of 03 R66, cause bit `bit` of a resource in domain d: a condition that holds without a break since `since` is
detected once it has held for the qualify time `q`; the same occurrence again only after a restoration has begun, once it has
held for q from then on. A detection raises its fault. -/
def monitor (s : State) (bit res d q since : Nat) (holds : Bool) (raise : State → State) : State :=
  let key := 512 * bit + res
  let m := Tab.get (0, 0) s.flt.mon key
  let fresh := m.2 = 0 || m.2 < since
  let r := restSince s d
  if holds && (fresh || m.2 < r) && (if fresh then since else r) + q ≤ s.now then
    raise { s with flt.mon := Tab.set (0, 0) s.flt.mon key (since, s.now) }
  else s

/-- DRV_OC: driver current of more than 100 mA for 500 ns, cause bit 0; a driver that is off, or whose pin a self-check
holds open, has none (03 R66; 20 R454). -/
def execDrvOc (ch : Fin 512) (na : Int) (since : Nat) (s : State) : Host.Outcome State Fault Refusal :=
  .next (monitor s 0 ch (domChan ch) 800 since (decide (na.natAbs > 100000000) && (s.chan ch).drv != .off && !(s.chan ch).checking)
    fun s => raiseFault s (domChan ch) 0)

/-- PIN_OV: pin above +7.8 V for 1 µs, cause bit 1 (03 R66). -/
def execPinOv (ch : Fin 512) (uv : Int) (since : Nat) (s : State) : Host.Outcome State Fault Refusal :=
  .next (monitor s 1 ch (domChan ch) usTicks since (decide (uv > 7800000)) fun s => raiseFault s (domChan ch) 1)

/-- PIN_UV: pin below −2.3 V for 1 µs, cause bit 2 (03 R66). -/
def execPinUv (ch : Fin 512) (uv : Int) (since : Nat) (s : State) : Host.Outcome State Fault Refusal :=
  .next (monitor s 2 ch (domChan ch) usTicks since (decide (uv < -2300000)) fun s => raiseFault s (domChan ch) 2)

/-- DAC_VERIFY: a level DAC more than 20 mV from its code in two checks in a row, the first at `since`, 20 µs or more after its
own last change, the second 1 ms later; cause bit 3 (03 R66). `dac` counts the levels as 03 R69 lists them. -/
def execDacVerify (ch : Fin 512) (dac : Fin 6) (err : Int) (since : Nat) (s : State) : Host.Outcome State Fault Refusal :=
  .next (monitor s 3 ch (domChan ch) (1000 * usTicks) since
    (decide (err.natAbs > 20000) && decide (Tab.get 0 (s.chan ch).levelAt (levelPars.getD dac 0) + 20 * usTicks ≤ since)) fun s => raiseFault s (domChan ch) 3)

/-- LG_OC: driver current magnitudes of a lane group of more than 640 mA in sum for 1 µs, cause bit 4 (03 R66). -/
def execLgOc (lg : Fin 64) (na : Int) (since : Nat) (s : State) : Host.Outcome State Fault Refusal :=
  .next (monitor s 4 lg (domLg lg) usTicks since (decide (na > 640000000)) fun s => raiseFault s (domLg lg) 4)

/-- PMU_LG_OC: the PPMU currents of the lane group have summed to `na` nA in magnitude since `since`: above 176 mA for 2 µs
(08 R173), cause bit 8. -/
def execPmuLgOc (lg : Fin 64) (na since : Nat) (s : State) : Host.Outcome State Fault Refusal :=
  .next (monitor s 8 lg (domLg lg) (2 * usTicks) since (decide (na > 176000000)) fun s => raiseFault s (domLg lg) 8)

/-! ### Rails, PLLs and links (03 R66; 04 R74; 01 R13; 18 R407) -/

/-- PE_RAIL: VPE_POS of a PE die below +8.4 V or its VPE_NEG above −3.6 V, in µV, for 2 µs, cause bit 5; the condition holds
restorations back (03 R66; 18 R412). -/
def execPeRail (die : Fin 4) (pos neg : Int) (since : Nat) (s : State) : Host.Outcome State Fault Refusal :=
  .next (monitor s 5 die domDev (2 * usTicks) since (decide (pos < 8400000) || decide (neg > -3600000))
    fun s => raiseFault { s with flt.railBad := true } domDev 5)

/-- CTRL_RAIL: a control-die rail at `permille` thousandths of its nominal since `since`, below 90 % for 2 µs, cause bit 42; the
condition holds restorations back (18 R407, R412). -/
def execCtrlRail (permille since : Nat) (s : State) : Host.Outcome State Fault Refusal :=
  .next (monitor s 42 0 domDev (2 * usTicks) since (decide (permille < 900))
    fun s => raiseFault { s with flt.railBad := true } domDev 42)

/-- REF_STOPPED: no edge of the reference domain since `since`, for 100 ns, cause bit 26; without reference edges no domain is
restored (18 R407, R412). -/
def execRefStopped (since : Nat) (s : State) : Host.Outcome State Fault Refusal :=
  .next (monitor s 26 0 domDev 160 since true fun s => raiseFault { s with flt.refStopped := true } domDev 26)

/-- SECTOR_PLL, cause bit 9: the PLL is unlocked until the restoration (04 R74). -/
def execSectorPll (sector : Fin 8) (s : State) : Host.Outcome State Fault Refusal :=
  .next (raiseFault (s.updSec sector fun x => { x with pllLost := true }) (domSec sector) 9)

/-- DIE_LINK, cause bit 10 (01 R13). -/
def execDieLink (die : Fin 4) (s : State) : Host.Outcome State Fault Refusal := .next (raiseFault s (domDie die) 10)

/-- Ticks within which replays of one flit follow each other: a replay delays by at most 40 ns (01 R11; log entry 29). -/
def replayTicks : Nat := 64

/-- DIE_LINK_REPLAY: no data is lost; the sixteenth replay in a row of one flit loses the link (01 R11, R13). -/
def execDieLinkReplay (die : Fin 4) (s : State) : Host.Outcome State Fault Refusal :=
  let r := Tab.get (0, 0) s.mem.replays die
  let n := if s.now ≤ r.2 + replayTicks then r.1 + 1 else 1
  let put (n : Nat) : State := { s with mem.replays := Tab.set (0, 0) s.mem.replays die (if n == 0 then (0, 0) else (n, s.now)) }
  .next (if n ≥ 16 then raiseFault (put 0) (domDie die) 10 else put n)

/-! ### Sources, digitizers, synthesizers and memory (09 R191; 10 R240; 11 R249; 21 R471) -/

/-- AWG_OVER_COMPLIANCE: a leg above +2.6 V or below -1.1 V for 200 ns, cause bit 16 (10 R240). -/
def execAwgOverCompliance (n : Fin 16) (legN : Bool) (uv : Int) (since : Nat) (s : State) : Host.Outcome State Fault Refusal :=
  .next (monitor s 16 (2 * n + b2n legN) (domAwg n) 320 since (decide (uv > 2600000) || decide (uv < -1100000))
    fun s => raiseFault s (domAwg n) 16)

/-- The current that the sample at the output of a source demands of a leg, in units of 1 / (4,095 × 65,535) nA (10 R219, R240). -/
def awgDemand (s : State) (n : Nat) (legN : Bool) : Int :=
  let v := (awgOutput s n).last
  if legN then awgIn s n v else awgIp s n v

/-- AWG_OPEN_LOAD: a leg at +2.4 V or above for 1 µs while its code demands 0.5 mA or more and less than a quarter of that flows to
the load, cause bit 17: a fault where OPEN_LOAD_FAULT is 1, else class 0 (10 R240). -/
def execAwgOpenLoad (n : Fin 16) (legN : Bool) (uv na : Int) (since : Nat) (s : State) : Host.Outcome State Fault Refusal :=
  .next (
    let unit : Int := 4095 * 65535
    let d := awgDemand s n legN
    monitor s 17 (2 * n + b2n legN) (domAwg n) usTicks since
      (decide (uv ≥ 2400000) && decide (d ≥ 500000 * unit) && decide (4 * na * unit < d))
      fun s => if s.setting 6 n 0x012 == 1 then raiseFault s (domAwg n) 17 else notice0 s (0x0400 + n) 17 0)

/-- AWG_PLL: the sampling PLL unlocked for 200 ns, cause bit 18 (10 R240). -/
def execAwgPll (n : Fin 16) (since : Nat) (s : State) : Host.Outcome State Fault Refusal :=
  .next (monitor s 18 n (domAwg n) 320 since true fun s => raiseFault s (domAwg n) 18)

/-- DIG_PLL, cause bit 19. -/
def execDigPll (n : Fin 16) (s : State) : Host.Outcome State Fault Refusal := .next (raiseFault s (domDig n) 19)

/-- DCS_UNLOCK, cause bit 24: loss of lock outside a retune (11 R249). -/
def execDcsUnlock (n : Fin 8) (s : State) : Host.Outcome State Fault Refusal :=
  .next <|
    let d := s.dcs n
    if !d.locked || d.retune.isSome then s else dcsFault (s.updDcs n fun d => { d with locked := false }) n 24

/-- DCS_REF_LOSS, cause bit 25: no reference edge reaches the synthesizer for 60 ns (11 R248, R249). -/
def execDcsRefLoss (n : Fin 8) (s : State) : Host.Outcome State Fault Refusal :=
  .next (if (s.dcs n).refOk then dcsFault (s.updDcs n fun d => { d with refOk := false, locked := false }) n 25 else s)

/-- MEM_CHANNEL: the PHY PLL of a channel has been unlocked since `since`, for 200 ns, cause bit 58 (21 R471). -/
def execMemChannel (m : Fin 2) (since : Nat) (s : State) : Host.Outcome State Fault Refusal :=
  .next (monitor s 58 m (domMem m) 320 since true fun s => raiseFault s (domMem m) 58)

/-! ### The steps of a recovery (18 R411, R412, R415, R418) -/

/-- The recovery whose domain is d. -/
def recAt (s : State) (d : Nat) : Option Recovery := s.flt.recs.find? fun r => r.domain == d

/-- Restoration of a domain begins (18 R411 step 4; 03 R66). -/
def beginRestoration (s : State) (d : Nat) (r : Recovery) : State :=
  putRec { s with flt.restAt := Tab.set 0 s.flt.restAt d s.now } d { r with step := .restoring s.now }

/-- QUIET_PERIOD_END: restoration begins, or waits (18 R411 step 4, R412). -/
def execQuietPeriodEnd (domain : Fin 1024) (s : State) : Host.Outcome State Fault Refusal :=
  .next <| match recAt s domain with
    | some r => match r.step with
      | .quiet t =>
        if s.now < t then s
        else if mustWait s domain then putRec s domain { r with step := .waiting s.now r.told }
        else beginRestoration s domain r
      | _ => s
    | none => s

/-- RESTORATION_RESUME: the rail and reference conditions have cleared, and a waiting restoration begins; a synthesizer's
reference must also read good (18 R412; log entry 30). -/
def execRestorationResume (domain : Fin 1024) (s : State) : Host.Outcome State Fault Refusal :=
  .next <| match recAt s domain with
    | some r => match r.step with
      | .waiting _ _ =>
        let s := { s with flt.railBad := false, flt.refStopped := false }
        if mustWait s domain then s else beginRestoration s domain r
      | _ => s
    | none => s

/-- RECOVERY_WAITING: event 0x04E7, once per recovery (18 R412). -/
def execRecoveryWaiting (domain : Fin 1024) (s : State) : Host.Outcome State Fault Refusal :=
  .next <| match recAt s domain with
    | some r => match r.step with
      | .waiting since told =>
        if told || s.now - since ≤ 1000 * usTicks then s
        else notice (putRec s domain { r with step := .waiting since true, told := true }) 0x04E7 domain
      | _ => s
    | none => s

/-- The earliest end of a restoration: every synthesizer of the domain must declare lock, over 256 PFD cycles (11 R247;
18 R414). -/
def restoreEnd (s : State) (d since : Nat) : Nat :=
  (unitsIn d 8 domDcs).foldl (fun t n => max t (since + 256 * pfdTicks (s.settingN 9 n 1))) since

/-- Work that was held back by a recovery goes on: BAR4 accesses, streams and captures (21 R471). -/
def resumeMem (s : State) : State :=
  raiseOwed (forEach (List.range 16) (barResume s) fun e s => tryFinishAcq (tryFinishEng s e) e)

/-- Restoration completes: the domain holds the applied image, the recovery ends and is counted and recorded, event KIND 5
is raised, class 3 returns to SERVICE, and a queued recovery may start (18 R411 step 5, R415, R418, R419). -/
def finishRecovery (s : State) (r : Recovery) : State :=
  let d := r.domain
  let c := domClass d
  let s := { s with
    flt.recs := s.flt.recs.filter fun q => q.domain != d,
    flt.counts := Tab.set 0 s.flt.counts d (incSat 16 (Tab.get 0 s.flt.counts d)),
    flt.device := incSat 32 s.flt.device }
  let s := restoreUnits s d
  let s := record s (faultEvent d) d 5 c r.openClass r.merges r.openSeq r.cause
  let s := post s (faultEvent d) 5 0xFF (faultData d r.merges)
  let s := if c = 3 then setPhase s .service else s
  resumeMem (startQueued s)

/-- RESTORED (18 R411 step 5). -/
def execRestored (domain : Fin 1024) (s : State) : Host.Outcome State Fault Refusal :=
  .next <| match recAt s domain with
    | some r => match r.step with
      | .restoring since => if s.now < restoreEnd s domain since then s else finishRecovery s r
      | _ => s
    | none => s

/-! ### Pins (18 R422 to R425; 10 R239) -/

/-- Something of a sector's lanes, or of its two sources and digitizers, is in recovery or ISOLATED (18 R422). -/
def sectorDegraded (s : State) (n : Nat) : Bool :=
  let hit (d : Nat) : Bool := inRecovery s d || s.flt.isolated.any fun i => encloses i d
  ((List.range 64).any fun c => hit (domChan (64 * n + c))) || ((List.range 8).any fun l => hit (domLg (8 * n + l))) ||
    (List.range 2).any fun j => hit (domAwg (2 * n + j)) || hit (domDig (2 * n + j))

/-- ALIVE_PERIOD_BOUNDARY: the character and period in force are shown from this boundary; a pin stays frozen while its
sector is in recovery, HALTED or in SHUTDOWN (18 R422, R423). -/
def execAlivePeriodBoundary (sector : Fin 8) (s : State) : Host.Outcome State Fault Refusal :=
  .next <|
    let n := sector.val
    let a := s.alive n
    let len := 1000 * usTicks * a.showPeriod
    let gone := (s.now - a.showFrom) / len
    if !s.running || s.stopped || isContained s (domSec n) || gone == 0 then s
    else s.updAlive n fun a =>
      { a with showChar := if sectorDegraded s n then a.degraded else a.char, showPeriod := a.period,
               showFrom := a.showFrom + gone * len, frozen := false }

/-- AWG_CLR_ASSERTED: every source is forced to CLEAR_CODE, running ones tell it, event 0x04EA (10 R239; 18 R425). -/
def execAwgClrAsserted (s : State) : Host.Outcome State Fault Refusal :=
  .next (if s.flt.awgClr then s
    else event (forEach (List.range 16) { s with flt.awgClr := true } fun n s => clearAwg s n Status.aborted true) 0x04EA 0)

/-- AWG_CLR_RELEASED: nothing restarts; event 0x04EB (10 R239; 18 R425). -/
def execAwgClrReleased (s : State) : Host.Outcome State Fault Refusal :=
  .next (if s.flt.awgClr then event { s with flt.awgClr := false } 0x04EB 0 else s)

end Sys2Proof.Machine
end

