-- ==== Sys2Proof/WellFormed.lean ====
section
/-! DEFINITION. Which commands the outside can give: limits of their operands that the operand types do not carry. -/

namespace Sys2Proof

/-- The number of rings of a kind (13 R290). -/
def RingKind.count : RingKind → Nat
  | .sq => 256
  | .cq => 256
  | .eq => 64
  | .str => 32

/-- A frame's clocks are those of its command byte, address, words and CRC, and its data words are at most 256
(22 R481, R486, R487). -/
def MntFrame.wf (f : MntFrame) : Bool := f.words.length ≤ 256 && f.clocks ≤ 8 * (4 + 4 * 256 + 3)

/-- A command that can reach the device. -/
def Instr.wf : Instr → Bool
  | .descriptorFetch _ bytes => bytes.length == 64
  | .ringConfigWrite kind ring _ _ => decide (ring.val < kind.count)
  | .bar4Write offset data => data.length ≤ 4096 && decide (offset.toNat + data.length ≤ 2 ^ 36)
  | .bar4Read offset len => decide (offset.toNat + len.val ≤ 2 ^ 36)
  | .registerWrite _ _ size _ => size == 1 || size == 2 || size == 4 || size == 8
  | .highHalfLatchRead path bar offset size => (size == 1 || size == 2 || size == 4 || size == 8) &&
      (path == .pcie || (bar == .bar0 && size == 4 && decide (offset.toNat % 4 = 0)))
  | .mntNop f => f.wf
  | .mntRead f => f.wf
  | .mntWrite f => f.wf
  | .selftestDone t => (t.rate == 0 || t.failed == 0) && t.density != 3
  | .linkUp rate width _ _ => decide (1 ≤ rate.toNat) && decide (rate.toNat ≤ 6) &&
      (width == 1 || width == 2 || width == 4 || width == 8)
  | .patrolScrub f => f.badBeats.all fun b => b < 16
  | .engRunStart _ bind => bind.length == 192 || bind.isEmpty
  | _ => true

end Sys2Proof
end

