-- ==== Sys2Proof/Machine/Host.lean ====
section
/-! DEFINITION. The host's ring registers, doorbells, BAR4 set-up and MSI-X (13 R289 to R293, R307; 15 R357). -/

namespace Sys2Proof.Machine

open Sys2Proof

/-! ### Writes of 64-bit registers (15 R357) -/

/-- The value of a 64-bit register after a write: a half acts on that half. -/
def RegWrite.onto (w : RegWrite) (old : BitVec 64) : BitVec 64 :=
  match w.half with
  | .full => w.value
  | .low => BitVec.ofNat 64 (old.toNat / 2 ^ 32 * 2 ^ 32 + w.value.toNat % 2 ^ 32)
  | .high => BitVec.ofNat 64 (w.value.toNat / 2 ^ 32 * 2 ^ 32 + old.toNat % 2 ^ 32)

/-- The BAR0 offset of a write to the register at `off`. -/
def RegWrite.at' (w : RegWrite) (off : Nat) : Nat := if w.half == .high then off + 4 else off

/-- A write ignored for its value: event 0x0486 with the offset (13 R308). -/
def configRefused (s : State) (off : Nat) : State := notice s 0x0486 off

/-! ### Doorbells (13 R292) -/

/-- BAR2 offset of a doorbell. -/
def doorOff (base n : Nat) : Nat := base + 8 * n

/-- A doorbell write that breaks the index rules (13 R292). -/
def doorError (s : State) (off : Nat) : State := notice s 0x0484 off

/-- The descriptors of every other ring at the arrival of a producer doorbell: ring, submitted, uncompleted (13 R299). -/
def doorSnap (s : State) (ring : Nat) : List (Nat × Nat × Nat) :=
  s.host.sq.filterMap fun p =>
    let r := p.2
    let open' := submitted r - r.total + ((heldSlots s).filter fun q => q.2.ring == p.1).length
    if p.1 == ring || open' == 0 then none else some (p.1, submitted r, open')

/-- A producer doorbell (13 R292, R299). -/
def producerDoor (s : State) (n v : Nat) : State :=
  let r := s.ring .sq n
  if !r.enable || v ≥ r.size || r.dist r.cons v < r.dist r.cons r.prod then doorError s (doorOff 0 n)
  else
    let r' := { r with prod := v }
    s.setRing .sq n { r' with doors := r.doors ++ [(submitted r', doorSnap s n)] }

/-- SQ_PRODUCER_DOORBELL (13 R292, R299). -/
def execSqProducerDoorbell (ring : Fin 256) (value : BitVec 64) (s : State) : Host.Outcome State Fault Refusal :=
  .next (producerDoor s ring value.toNat)

/-- A consumer doorbell of a ring kind (13 R292). -/
def consumerDoor (s : State) (k : RingKind) (n v off : Nat) : State :=
  let r := s.ring k n
  if !r.enable || v ≥ r.size || r.dist r.cons v > r.dist r.cons r.prod then doorError s off
  else s.setRing k n { r with cons := v }

/-- CQ_CONSUMER_DOORBELL (13 R292). -/
def execCqConsumerDoorbell (ring : Fin 256) (value : BitVec 64) (s : State) : Host.Outcome State Fault Refusal :=
  .next (consumerDoor s .cq ring value.toNat (doorOff 0x1000 ring))

/-- EQ_CONSUMER_DOORBELL (13 R292, R306). -/
def execEqConsumerDoorbell (ring : Fin 64) (value : BitVec 64) (s : State) : Host.Outcome State Fault Refusal :=
  .next (consumerDoor s .eq ring value.toNat (doorOff 0x2000 ring))

/-- STR_CONSUMER_DOORBELL (13 R292, R309). -/
def execStrConsumerDoorbell (ring : Fin 32) (value : BitVec 64) (s : State) : Host.Outcome State Fault Refusal :=
  .next (consumerDoor s .str ring value.toNat (doorOff 0x3000 ring))

/-! ### Ring set-up (13 R293) -/

/-- BAR0 offset of the register group of a ring. -/
def ringGroup (k : RingKind) (n : Nat) : Nat :=
  0x10000 + 0x20 * n + (match k with
    | .sq => 0x1000
    | .cq => 0x3000
    | .eq => 0x5000
    | .str => 0x5800)

/-- Offset of a register in its group. -/
def ringRegOff : RingReg → Nat
  | .base => 0
  | .ctrl => 8
  | .shadow => 0x10

/-- The ring is IDLE (13 R293). -/
def ringIdle (s : State) (k : RingKind) (n : Nat) : Bool :=
  let r := s.ring k n
  match k with
  | .sq => r.cons == r.prod && !((heldSlots s).any fun p => p.2.ring == n)
  | .cq => r.cons == r.prod && r.count == 0
  | .eq => r.cons == r.prod
  | .str => r.cons == r.prod && !r.inUse

/-- CTRL of a ring as a number (13 R293). -/
def ringCtrl (k : RingKind) (r : Ring) : Nat :=
  b2n r.enable + 2 * r.log2 + (match k with
    | .sq => 64 * r.cls + 256 * r.cq
    | _ => 65536 * r.vector + 2 ^ 27 * b2n r.irqAll)

/-- The fields of CTRL that a value sets. -/
def setCtrl (k : RingKind) (r : Ring) (v : Nat) : Ring :=
  let r := { r with enable := bitOf v 0, log2 := bits v 5 1 }
  match k with
  | .sq => { r with cls := bits v 7 6, cq := bits v 15 8 }
  | .eq => { r with vector := bits v 26 16 }
  | _ => { r with vector := bits v 26 16, irqAll := bitOf v 27 }

/-- A ring can be enabled: LOG2_SIZE in range and BASE aligned (13 R293). -/
def ringOk (k : RingKind) (r : Ring) : Bool :=
  (if k == .str then 3 else 4) ≤ r.log2 && r.log2 ≤ 16 &&
    r.base.toNat % (match k with
      | .sq => 64
      | .str => 4096
      | _ => 16) == 0

/-- The staged sets of a ring go FREE when it is disabled (15 R345). -/
def freeSetsOf (s : State) (ring : Nat) : State :=
  forEach (List.range 16) s fun k s =>
    if (s.set k).st != .free && (s.set k).owner == ring then
      s.updSet k fun x => { x with st := .free, owner := 0, recs := [] }
    else s

/-- An access to an unmapped offset of BAR0, by PCI Express or by the MNT port (13 R288; 22 R485). -/
def unmapped (s : State) (path : Path) (off : Nat) : State :=
  notice s 0x0483 (off + (match path with
    | .pcie => 0
    | .mnt => 2 ^ 30))

/-- A write to BASE, CTRL or SHADOW of a ring; CTRL has 32 bits, and nothing is mapped above it (13 R293). -/
def ringWrite (s : State) (k : RingKind) (n : Nat) (reg : RingReg) (w : RegWrite) : State :=
  let r := s.ring k n
  let off := RegWrite.at' w (ringGroup k n + ringRegOff reg)
  match reg with
  | .base => if r.enable then configRefused s off else s.setRing k n { r with base := RegWrite.onto w r.base }
  | .shadow =>
    if r.enable then configRefused s off
    else
      let v := (RegWrite.onto w r.shadow).toNat
      s.setRing k n { r with shadow := BitVec.ofNat 64 (v / 4 * 4) }
  | .ctrl =>
    let v := (RegWrite.onto w (BitVec.ofNat 64 (ringCtrl k r))).toNat
    let x := setCtrl k r v
    if w.half == .high then unmapped s w.path off
    else if r.enable then
      if x.enable || !ringIdle s k n then configRefused s off
      else
        let s := s.setRing k n x
        if k == .sq then freeSetsOf s n else s
    else if !x.enable then s.setRing k n x
    else if !ringOk k x then configRefused s off
    else s.setRing k n { x with prod := 0, cons := 0, fetched := 0, doors := [] }

/-- RING_CONFIG_WRITE (13 R293). -/
def execRingConfigWrite (kind : RingKind) (ring : Fin 256) (reg : RingReg) (w : RegWrite) (s : State) :
    Host.Outcome State Fault Refusal :=
  .next (if ring.val < kind.count then ringWrite s kind ring reg w else s)

/-! ### BAR4 set-up and MSI-X (13 R289, R307) -/

/-- HIF_BAR4_CFG as a number. -/
def bar4Reg (s : State) : Nat := s.host.bar4Next + s.host.bar4Base * 2 ^ 26

/-- A write of HIF_BAR4_CFG: BASE acts at once; SIZE is sampled at PERST_N release (13 R289). -/
def bar4CfgWrite (s : State) (w : RegWrite) : State :=
  let v := (RegWrite.onto w (BitVec.ofNat 64 (bar4Reg s))).toNat
  let base := v / 2 ^ 26
  if barSize s != 0 && base * 2 ^ 26 % barSize s != 0 then configRefused s (RegWrite.at' w 0x10008)
  else { s with host.bar4Base := base, host.bar4Next := v % 16 }

/-- HIF_BAR4_CFG_WRITE (13 R289). -/
def execHifBar4CfgWrite (w : RegWrite) (s : State) : Host.Outcome State Fault Refusal := .next (bar4CfgWrite s w)

/-- Unmask a vector: its pending message is sent once (13 R307). -/
def unmaskVector (s : State) (v : Nat) : State :=
  let s := { s with host.msixUnmasked := Tab.set false s.host.msixUnmasked v true }
  if Tab.get false s.host.msixPending v then
    emit { s with host.msixPending := Tab.set false s.host.msixPending v false } (msiMsg s v)
  else s

/-- MSIX_VECTOR_UNMASK (13 R307). -/
def execMsixVectorUnmask (vector : Fin 2048) (s : State) : Host.Outcome State Fault Refusal :=
  .next (unmaskVector s vector)

/-! ### Stream blocks (13 R309, R310) -/

/-- STR_BLOCK_DELIVER: the oldest staged block of a ring with a free slot is written, and a block that waits at its source takes its
place; a closing stream or an ended engine run whose last block this is completes (13 R309, R310). -/
def execStrBlockDeliver (ring : Fin 32) (s : State) : Host.Outcome State Fault Refusal :=
  let r := s.ring .str ring
  .next <| match r.staged with
    | [] => s
    | (b, last) :: rest =>
      if r.full || !r.enable || s.host.d3 || !s.host.up then s
      else
        let s := emit s (.block (r.base.toNat + 4096 * r.prod) b)
        let r := Ring.restage { r with prod := r.after r.prod, staged := rest, bytes := addWrap 64 r.bytes 4096 }
        let s := writeShadow (s.setRing .str ring r) r r.prod
        let s := if r.irqAll || last then signal s r.vector else s
        let s := ackOwed (strRelease s ring) ring
        forEach (List.range 16) s fun e s => tryFinishAcq (tryFinishEng s e) e

end Sys2Proof.Machine
end

