-- ==== Sys2Proof/Machine/Thermal.lean ====
section
/-! DEFINITION. Thermal sensing on demand (19; 02 R44, R45; 14 R335). Die 4 of the commands is the control die. -/

namespace Sys2Proof.Machine

open Sys2Proof

/-! ### Dies and sensors (19 R427) -/

/-- The lowest sensor of a die. -/
def dieSensor (d : Nat) : Nat := if d = 4 then 0 else 4 + 3 * d

/-- The sensors of a die as a mask. -/
def dieMask (d : Nat) : Nat := if d = 4 then 15 else 7 * 2 ^ (4 + 3 * d)

/-- The conversion that runs on a die. -/
def runningConv (s : State) (d : Nat) : Option Conversion := Tab.get none s.thm.running d

/-- A reading of 150 °C, which a broken sensor takes (19 R429). -/
def brokenTemp : Int := 2400

/-! ### Demands (19 R430, R431) -/

/-- Demand conversions of a mask of sensors; a demand for one that is pending joins it (19 R428, R430). -/
def demand (s : State) (mask : Nat) : State := { s with thm.pending := s.thm.pending ||| (mask % 65536) }

/-- The pending demand of a die is forced from now on (19 R430, R431; 02 R45). -/
def forceDie (s : State) (d : Nat) : State :=
  { s with thm.forcedAt := Tab.upd none s.thm.forcedAt d fun t => some (t.getD s.now) }

/-- The sensors whose latest reading ended more than 1 ms ago (19 R431). -/
def staleSensors (s : State) : Nat :=
  (List.range 16).foldl (fun m n => match (s.sensor n).endAt with
    | some t => if s.now - t > 1000 * usTicks then m ||| 2 ^ n else m
    | none => m ||| 2 ^ n) 0

/-- Every sensor reads from 20 to 90 °C (19 R436). -/
def junctionOk (s : State) : Bool :=
  (List.range 16).all fun n => (s.sensor n).valid && 320 ≤ (s.sensor n).temp && (s.sensor n).temp ≤ 1440

/-- A freshness demand of slot id: placed as a forced demand, without a NOTICE (19 R431). -/
def freshDemand (s : State) (id mask : Nat) : State :=
  let s := demand s mask
  let s := forEach ((List.range 5).filter fun d => (dieMask d &&& mask) != 0) s fun d s => forceDie s d
  park { s with thm.fresh := s.thm.fresh ++ [(id, mask)] } id .fresh

/-- Carry out an operation that the junction range guards, once the readings it waits for are fresh (19 R431, R436). -/
def whenFresh (s : State) (id : Nat) (sl : Slot) (go : State → State) : State :=
  let m := staleSensors s
  if sl.fresh || m == 0 then go (s.updSlot id fun x => { x with fresh := false }) else freshDemand s id m

/-- THERM (14 R335; 19 R430). -/
def execTherm (id : Nat) (s : State) : Host.Outcome State Fault Refusal :=
  .next <| withDesc s id (fun sl => sl.opc == 0x49) fun sl =>
    let m := sl.op 8 2
    guarded s id [(m == 0 || !sl.zero 10 64, Status.field, 0)]
      (let s := demand s m
       park { s with thm.therms := s.thm.therms ++ [⟨id, m, -32768, false, false, s.sweep.pos⟩] } id .ending)

/-- A write of THM_DEMAND; accepted in every phase from SERVICE on (19 R430, R438). -/
def thmDemandWrite (s : State) (w : RegWrite) : State :=
  if s.running || s.stopped then demand s ((RegWrite.onto w 0).toNat % 65536) else s

/-- THM_DEMAND_WRITE (19 R430). -/
def execThmDemandWrite (w : RegWrite) (s : State) : Host.Outcome State Fault Refusal := .next (thmDemandWrite s w)

/-- Restart every die's interval timer (19 R430, R438). -/
def restartThmTimers (s : State) : State :=
  { s with thm.timer := (List.range 5).foldl (fun t d => Tab.set 0 t d s.now) s.thm.timer, thm.told := 0 }

/-- A write of THM_CFG (19 R438). -/
def thmCfgWrite (s : State) (w : RegWrite) : State :=
  let v := (RegWrite.onto w (BitVec.ofNat 64 s.thm.maxMs)).toNat % 128
  if v < 1 || v > 100 then configRefused s (RegWrite.at' w 0x40008)
  else if w.half == .high then s
  else restartThmTimers { s with thm.maxMs := v }

/-- THM_CFG_WRITE (19 R438). -/
def execThmCfgWrite (w : RegWrite) (s : State) : Host.Outcome State Fault Refusal := .next (thmCfgWrite s w)

/-- THM_LIMIT_n as a number. -/
def thmLimit (x : Sensor) : Nat := x.warn + 256 * x.throttle + 65536 * x.shutdown

/-- A write of THM_LIMIT_n (19 R438). -/
def thmLimitWrite (s : State) (n : Nat) (w : RegWrite) : State :=
  let v := (RegWrite.onto w (BitVec.ofNat 64 (thmLimit (s.sensor n)))).toNat
  let a := bits v 7 0
  let b := bits v 15 8
  let c := bits v 23 16
  if a < 40 || a + 5 > b || b + 5 > c || c > 125 then configRefused s (RegWrite.at' w (0x40200 + 8 * n))
  else s.updSensor n fun x => { x with warn := a, throttle := b, shutdown := c }

/-- THM_LIMIT_WRITE (19 R438). -/
def execThmLimitWrite (n : Fin 16) (w : RegWrite) (s : State) : Host.Outcome State Fault Refusal := .next (thmLimitWrite s n w)

/-- FORCED_DEMAND: a die's timer reaches MAX_INTERVAL_MS (19 R430, R437). -/
def execForcedDemand (die : Fin 5) (s : State) : Host.Outcome State Fault Refusal :=
  .next <|
    let d := die.val
    if !s.running || bitOf s.thm.told d || s.now - Tab.get 0 s.thm.timer d < s.thm.maxMs * 1000 * usTicks then s
    else
      let s := forceDie (demand s (dieMask d)) d
      notice { s with thm.told := s.thm.told ||| 2 ^ d, thm.forced := incSat 32 s.thm.forced } (0x0450 + dieSensor d) 65536

/-! ### Quiet slots (02 R44, R45) -/

/-- Ticks of a quiet slot, and of a conversion (02 R44; 19 R428). -/
def convTicks : Nat := 20 * usTicks

/-- TCLK ticks until the sweep reaches a position, at the present rate; none while it holds short of it. -/
def ticksTo (s : State) (p : Pos) : Option Nat :=
  if !isFuture s.sweep.pos p then some 0 else if s.sweep.rate = 0 then none else some (ahead s.sweep.pos p * 256 / s.sweep.rate)

/-- A generator's window is open, or will open within 20 µs, on some channel that follows it (02 R44): a sweep start opens it
OPEN after its position (07 R152). -/
def wgOpens (s : State) (n g : Nat) : Bool :=
  let x := s.wg n g
  let soon := stampNow s + convTicks * 65536
  x.armed.isSome && !(followers s n g).isEmpty && (x.isOpen || (match x.win with
      | some (o, _) => o < soon
      | none => false) ||
    (match (findAct s (.window n g)).bind fun a => ticksTo s a.pos with
      | some k => stampNow s + k * 65536 + 256 * x.opens < soon
      | none => false) || x.due.any fun t => t + 256 * x.opens < soon)

/-- A lane group's item is in its settle or sample interval, or will be within 20 µs (02 R44). -/
def lgOpens (s : State) (l : Nat) : Bool := (s.lg l).item.isSome || (nextItem s l).isSome

/-- A digitizer acquires with decimated output, or will start to within 20 µs (02 R44). -/
def digOpens (s : State) (n : Nat) : Bool :=
  let d := s.dig n
  d.dec.isOpen && (acqRuns d || (match findAct s (.acq n) with
    | some a => isPast s.sweep.pos a.pos || ahead s.sweep.pos a.pos < leadUnits s 20000
    | none => false))

/-- The PE die of a self-check group (20 R453). -/
def groupDie (g : Nat) : Nat := if g < 32 then g % 8 / 2 else if g < 48 then (g - 32) / 4 else (g - 48) / 4

/-- A self-check runs on a die. -/
def checkOpens (s : State) (d : Nat) : Bool := s.cal.checks.any fun p => p.2.isSome && groupDie p.1 == d

/-- No precision window of PE die d is open or opens within 20 µs (02 R44). -/
def quietSlot (s : State) (d : Nat) : Bool :=
  !(((List.range 2).any fun j => (List.range 4).any fun g => wgOpens s (2 * d + j) g) ||
    ((List.range 16).any fun l => lgOpens s (16 * d + l)) || ((List.range 4).any fun j => digOpens s (4 * d + j)) ||
    checkOpens s d)

/-- Mark the precision windows of a die that are open during a conversion without a quiet slot (02 R45). -/
def markUncertain (s : State) (d : Nat) : State :=
  let s := forEach [2 * d, 2 * d + 1] s fun n s => forEach (List.range 4) s fun g s =>
    if (s.wg n g).isOpen then s.updWg n g fun x => { x with uncertain := true } else s
  forEach (List.range 16) s fun l s =>
    let x := s.lg (16 * d + l)
    if x.item.isSome && x.phase ≥ 1 then s.updLg (16 * d + l) fun x => { x with uncertain := true } else s

/-- The slots that wait for conversions which have not started, or run. -/
def waitsOn (s : State) : List Nat := s.thm.therms.map (·.slot) ++ s.thm.fresh.map Prod.fst

/-- THERMAL_CONVERSION_START: at once on the control die; on a PE die in a quiet slot, or 1 ms after its forced demand (19
R428, R430; 02 R45). -/
def execThermalConversionStart (die : Fin 5) (s : State) : Host.Outcome State Fault Refusal :=
  .next <|
    let d := die.val
    let m := s.thm.pending &&& dieMask d
    let quiet := d = 4 || s.stopped || quietSlot s d
    let late := match Tab.get none s.thm.forcedAt d with
      | some t => decide (s.now ≥ t + 1000 * usTicks)
      | none => false
    if m == 0 || (runningConv s d).isSome || !(quiet || late) then s
    else
      let s := { s with
        thm.pending := s.thm.pending - m,
        thm.forcedAt := Tab.erase s.thm.forcedAt d,
        thm.running := Tab.set none s.thm.running d (some ⟨m, s.now, s.sweep.pos, !quiet, waitsOn s⟩) }
      if quiet then s else markUncertain s d

/-! ### Readings, levels and actions (19 R429, R432 to R435, R437) -/

/-- The level of a sensor after a reading of T (19 R432). -/
def levelOf (x : Sensor) (t : Int) : Nat :=
  let above (c : Nat) : Bool := decide (t ≥ 16 * (c : Int))
  if x.level = 3 || above x.shutdown then 3
  else if above x.throttle || (x.level = 2 && above (x.throttle - 5)) then 2
  else if above x.warn || (x.level ≥ 1 && above (x.warn - 5)) then 1
  else 0

/-- A sensor event: KIND, reason and reading (19 R437). -/
def sensorEvent (s : State) (n kind reason : Nat) (t : Int) : State :=
  post s (0x0450 + n) kind 0xFF (fromSigned 16 t + 65536 * reason)

/-- The events of a change of level (19 R437). -/
def levelEvents (s : State) (n old new : Nat) (t : Int) : State :=
  let s := if old < 1 && new ≥ 1 then sensorEvent s n 0 2 t else s
  let s := if old < 2 && new ≥ 2 then sensorEvent s n 0 4 t else s
  let s := if old ≥ 2 && new < 2 then sensorEvent s n 0 5 t else s
  if old ≥ 1 && new < 1 then sensorEvent s n 0 3 t else s

/-- What a reading raises: the level events, then BROKEN and SHUTDOWN with their faults (19 R429, R434; log entry 31). -/
def readingActs (s : State) (n old : Nat) : State :=
  let x := s.sensor n
  let s := levelEvents s n old x.level x.temp
  let s := if x.broken then raiseWith (sensorEvent s n 1 6 x.temp) domDev 49 0x04E1 (faultData domDev 0) else s
  if x.temp ≥ 16 * (x.shutdown : Int) then raiseWith (sensorEvent s n 1 7 x.temp) domDev 48 0x04E1 (faultData domDev 0) else s

/-- OVER_NOW after a conversion (19 R435). -/
def overAfter (s : State) : Bool :=
  let xs := (List.range 16).map s.sensor
  if xs.any fun x => x.broken || (x.valid && decide (x.temp ≥ 16 * (x.shutdown : Int))) then true
  else s.thm.overNow && !xs.all fun x => decide (x.temp < 16 * ((x.shutdown : Int) - 5))

/-- The part of a conversion that a THERM waits for; one that had started before the demand is none (19 R428). -/
def thermTake (s : State) (c : Conversion) (r : ThermRun) : ThermRun :=
  let mine := r.left &&& c.sensors
  if mine == 0 || !c.slots.contains r.slot then r
  else
    let ns := maskList 16 mine
    { r with left := r.left - mine, noQuiet := r.noQuiet || c.noQuiet, lastPos := c.startPos,
             broken := r.broken || ns.any fun n => (s.sensor n).broken,
             highest := ns.foldl (fun h n => max h (s.sensor n).temp) r.highest }

/-- Complete the THERMs whose last conversion has ended, or that met a broken sensor (14 R335). -/
def finishTherms (s : State) (c : Conversion) : State :=
  let rs := s.thm.therms.map (thermTake s c)
  let ended (r : ThermRun) : Bool := r.left == 0 || r.broken
  let s := { s with thm.therms := rs.filter fun r => !ended r }
  forEach (rs.filter ended) s fun r s =>
    complete s r.slot (if r.broken then Status.testerFault else Status.ok)
      (fromSigned 16 r.highest + 65536 * b2n r.noQuiet) r.lastPos

/-- Freshness demands take the readings of a conversion (19 R431). -/
def finishFresh (s : State) (c : Conversion) : State :=
  let left := s.thm.fresh.map fun p => if c.slots.contains p.1 then (p.1, p.2 - (p.2 &&& c.sensors)) else p
  let s := { s with thm.fresh := left.filter fun p => p.2 != 0 }
  forEach (left.filter fun p => p.2 == 0) s fun p s => s.updSlot p.1 fun x => { x with fresh := true }

/-- A conversion of a die ends with a reading of each of its sensors (19 R429 to R435). -/
def endConversion (s : State) (d : Nat) (c : Conversion) (read : Nat → Int × Bool) : State :=
  let ns := maskList 16 c.sensors
  let olds := ns.map fun n => (n, (s.sensor n).level)
  let s := { s with thm.running := Tab.erase s.thm.running d }
  let s := forEach ns s fun n s =>
    let (code, tripped) := read n
    let bad := tripped || code < -640 || code > 2240
    let t := if bad then brokenTemp else code
    s.updSensor n fun x =>
      { x with temp := t, valid := true, broken := bad, noQuiet := c.noQuiet, endAt := some s.now, level := levelOf x t }
  let s := { s with thm.overNow := overAfter s }
  let s := if c.sensors == dieMask d then
      { s with thm.timer := Tab.set 0 s.thm.timer d s.now, thm.told := s.thm.told - (s.thm.told &&& 2 ^ d) }
    else s
  let s := finishFresh (finishTherms s c) c
  forEach olds s fun p s => readingActs s p.1 p.2

/-- THERMAL_CONVERSION_END, with a reading of every sensor converted (19 R428, R432): a conversion that ends later than 40 µs
after its start finds its sensors broken, whatever their codes (R429). -/
def execThermalConversionEnd (die : Fin 5) (readings : List Reading) (s : State) : Host.Outcome State Fault Refusal :=
  .next <| match runningConv s die with
    | some c =>
      let found (n : Nat) : Option Reading := readings.find? fun r => r.sensor.val == n
      if s.now > c.startAt + 2 * convTicks then endConversion s die c fun _ => (0, true)
      else if s.now < c.startAt + convTicks || !(maskList 16 c.sensors).all fun n => (found n).isSome then s
      else endConversion s die c fun n => match found n with
        | some r => (r.code, r.tripped)
        | none => (0, true)
    | none => s

/-- CONVERSION_TIMEOUT: 40 µs after its start a conversion's sensors are broken (19 R429). -/
def execConversionTimeout (die : Fin 5) (s : State) : Host.Outcome State Fault Refusal :=
  .next <| match runningConv s die with
    | some c => if s.now < c.startAt + 2 * convTicks then s else endConversion s die c fun _ => (0, true)
    | none => s

end Sys2Proof.Machine
end

