-- ==== Sys2Proof/Machine/Ageing.lean ====
section
/-! DEFINITION. Self-checks, the ledger, the margin plan and the time base (20 R448 to R461; 14 R336, R337). -/

namespace Sys2Proof.Machine

open Sys2Proof

/-! ### Self-check groups (20 R453 to R455) -/

/-- The duration of a group's check in ticks (20 R453). -/
def checkTicks (g : Nat) : Nat := (if g < 8 then 4000 else if 24 ≤ g && g < 32 then 30000 else 2000) * usTicks

/-- The resources that a group names. -/
def groupMembers (g : Nat) : List Nat :=
  if g < 32 then (List.range 64).map fun c => 64 * (g % 8) + c else if g < 48 then [g - 32] else [g - 48]

/-- Some source is routed to a channel. -/
def routedTo (s : State) (n : Nat) : Bool :=
  (List.range 4).any fun j => routeOf s.stg.image (4 * (n / 128) + j) == some n

/-- A resource of a group can be checked: eligible and not in recovery (20 R453, R454; 07 R165). -/
def checkable (s : State) (g n : Nat) : Bool :=
  match groupKind g with
  | 0 =>
    let c := s.chan n
    !isContained s (domChan n) &&
      (c.st == .hold || (c.st == .idle && s.setting 1 n 0x011 == 0 && s.setting 1 n 0x00B == 0 &&
        s.setting 1 n 0x201 == 0 && !routedTo s n)) &&
      !(16 ≤ g && g < 24 && s.setting 1 n 0x201 == 2 && (s.wg (n / 64) (s.settingN 1 n 0x205)).armed.isSome)
  | 1 =>
    let d := s.dig n
    !isContained s (domDig n) && d.acq == .idle && !d.raw.isOpen && !d.dec.isOpen
  | _ => !isContained s (domAwg n) && ((s.awg n).st == .idle || (s.awg n).st == .cleared)

/-- Start the check of a group, for a WATCH or forced, its voltages against REF_V or the internal references (20 R453 to
R455). -/
def startCheck (s : State) (g : Nat) (slot : Option Nat) (refV : Bool) : State :=
  let ok := (groupMembers g).filter (checkable s g)
  let s := { s with cal.checks := Tab.set none s.cal.checks g (some ⟨slot, ok, [], s.now + checkTicks g, refV⟩) }
  refreshRoutes (forEach ok s fun n s => setChecking s (groupKind g) n true)

/-- The ledger quantities of one resource that a group checks (20 R451, R453). -/
def groupQtys (g n : Nat) : List Nat :=
  if g < 8 then [16 * n, 16 * n + 1, 16 * n + 2]
  else if g < 16 then [16 * n + 3]
  else if g < 24 then [16 * n + 4]
  else if g < 32 then (List.range 6).map fun j => 16 * n + 5 + j
  else if g < 48 then (List.range 3).map fun j => 0x2000 + 4 * n + j
  else [0x2040 + n]

/-- The event of reasons 3 and 4 of a group (20 R460). -/
def groupNotice (s : State) (g reason : Nat) : State :=
  notice s (if g < 32 then 0x0440 + g % 8 else if g < 48 then 0x0410 + (g - 32) else 0x0400 + (g - 48)) (g + 65536 * reason)

/-- D of an entry after a check that finds a deviation (20 R452), in 2^-8 unit per day; with no time passed since Δt
started the manual states no rate: a free value (log entry 3). -/
def newDrift (s : State) (q : Nat) (found : Int) : Int × State :=
  let l := s.ledger q
  let t := ageTicks s q
  if t == 0 then
    let (w, s) := s.fresh
    (toSigned 32 w.toNat, s)
  else
    let rate := roundDiv ((found - l.e) * 256 * dayTicks) t
    (if l.first then rate else l.d + roundDiv (rate - l.d) 4, s)

/-- One entry takes a deviation found (20 R452). -/
def updateEntry (s : State) (q : Nat) (found : Int) : State :=
  let e := toSigned 32 (fromSigned 32 found)
  let (d, s) := newDrift s q e
  s.updLedger q fun l => { l with e := e, d := d, checked := true, skipped := false, first := false, since := s.now }

/-- The check of a group completes: its entries are updated, skipped ones flagged, and the group's timer restarts (20 R452 to
R455). A deviation that the command does not carry is 0 (log entry 32). The Nat is the number of entries updated. -/
def completeCheck (s : State) (g : Nat) (c : GroupCheck) (found : List (Nat × Int)) : State × Nat :=
  let done' := c.eligible.filter fun n => !c.abandoned.contains n && !isContained s (match groupKind g with
    | 0 => domChan n
    | 1 => domDig n
    | _ => domAwg n)
  let skipped := (groupMembers g).filter fun n => !done'.contains n
  let qs := done'.flatMap (groupQtys g)
  let s := forEach qs s fun q s => updateEntry s q (((found.find? fun p => p.1 == q).map Prod.snd).getD 0)
  let s := forEach (skipped.flatMap (groupQtys g)) s fun q s => s.updLedger q fun l => { l with skipped := true }
  let s := if skipped.isEmpty then s else groupNotice s g 4
  let s := endCheck { s with cal.timers := Tab.set 0 s.cal.timers g s.now } g
  (evalAll s, qs.length)

/-- One group of a WATCH is done; the last completes it (14 R336, R320). -/
def watchGroupDone (s : State) (id g updated : Nat) : State :=
  match s.cal.watches.find? fun w => w.1 == id with
  | none => s
  | some (_, left, n) =>
    let left := left - (left &&& 2 ^ g)
    let s := s.updSlot id fun x => { x with progress := x.progress + 1 }
    let rest := s.cal.watches.filter fun w => w.1 != id
    if left == 0 then done { s with cal.watches := rest } id Status.ok (n + updated)
    else { s with cal.watches := rest ++ [(id, left, n + updated)] }

/-- The routine of a slot runs untrapped. -/
def runsNow (s : State) (id : Nat) : Bool := match s.slot id with
  | some sl => match sl.st with
    | .running c => (s.ctx c).slot == some id
    | _ => false
  | none => false

/-- SELF_CHECK_DONE, with the deviations found (20 R452, R454). -/
def execSelfCheckDone (group : Fin 64) (found : List (Nat × Int)) (s : State) : Host.Outcome State Fault Refusal :=
  .next <| match Tab.get none s.cal.checks group with
    | some c =>
      if s.now < c.endAt then s
      else match c.slot with
        | some id =>
          if runsNow s id then
            let (s, n) := completeCheck s group c found
            watchGroupDone s id group n
          else s
        | none => (completeCheck s group c found).1
    | none => s

/-- WATCH claims every resource of its groups (14 R336; 20 R453). -/
def watchClaims (sl : Slot) (m : Nat) : Bool :=
  (maskList 32 m).all (fun g => sl.covers0 (2 ^ (g % 8))) && (bits m 47 32 == 0 || sl.coversBit 2) &&
    (bits m 63 48 == 0 || sl.coversBit 1)

/-- WATCH: every selected group's check starts, and the routine runs until the last is done (14 R336; 17 R385, R395; log
entry 33). -/
def execWatch (id : Nat) (s : State) : Host.Outcome State Fault Refusal :=
  .next <| withDesc s id (fun sl => sl.opc == 0x4A) fun sl =>
    let m := sl.op 8 8
    if s.cal.watches.any fun w => w.1 == id then s
    else guarded s id
      [(m == 0 || sl.op 16 1 > 1 || !sl.zero 17 64, Status.field, 0),
       (!watchClaims sl m, Status.claim, 0),
       ((maskList 64 m).any fun g => (Tab.get none s.cal.checks g).isSome, Status.consistency, 0)]
      (forEach (maskList 64 m) { s with cal.watches := s.cal.watches ++ [(id, m, 0)] } fun g s =>
        startCheck s g (some id) (sl.op 16 1 == 1 && s.cal.refV != 0))

/-- FORCED_CHECK: a group's timer reaches WATCH_MAX_INTERVAL (20 R455). -/
def execForcedCheck (group : Fin 64) (s : State) : Host.Outcome State Fault Refusal :=
  .next <|
    let g := group.val
    if !s.running || (Tab.get none s.cal.checks g).isSome ||
        s.now - Tab.get 0 s.cal.timers g < s.cal.watchMax * 60 * secTicks then s
    else groupNotice (startCheck { s with cal.forced := incSat 32 s.cal.forced } g none false) g 3

/-! ### LEDGER (14 R337; 20 R456 to R459) -/

/-- The operand test of LEDGER (14 R337). -/
def ledgerFieldBad (sl : Slot) : Bool :=
  let a := sl.op 8 1
  a > 2 || !sl.zero 9 12 || !sl.zero 20 24 || !sl.zero 32 64 || sl.op 24 8 % 16 != 0 || (a != 0 && sl.op 12 4 != 0) ||
    (a == 2 && (sl.op 16 4 != 0 || sl.op 24 8 != 0)) || (a != 2 && sl.op 16 4 == 0)

/-- Seconds since Δt of a quantity started (20 R459). -/
def ageSeconds (s : State) (q : Nat) : Nat := satTo 32 (ageTicks s q / secTicks)

/-- One entry of LEDGER READ (20 R459). -/
def ledgerEntry (s : State) (q : Nat) : List Byte :=
  let l := s.ledger q
  let c := qClass q
  if c == 0xFF then zeros 3 ++ leBytes 1 0xFF ++ zeros 28
  else
    let flags := b2n (uUser s q).isSome + 2 * b2n (s.cal.badRecords.contains q) + 4 * b2n l.oom + 8 * b2n l.skipped +
      16 * b2n (!l.checked)
    let d := if q == 0x2050 then (driftOf s q : Int) else l.d
    leBytes 2 q ++ leBytes 1 flags ++ leBytes 1 c ++ leBytes 4 (uFactory s q) ++ leBytes 4 ((uUser s q).getD 0) ++
      leBytes 4 (fromSigned 32 l.e) ++ leBytes 4 (fromSigned 32 d) ++ leBytes 4 (uNow s q) ++ leBytes 4 (uAhead s q) ++
      leBytes 4 (ageSeconds s q)

/-- LEDGER_READ: the next `entries` entries, the tests before the first of them (14 R337; 20 R459). -/
def execLedgerRead (id entries : Nat) (s : State) : Host.Outcome State Fault Refusal :=
  .next <| withDesc s id (fun sl => sl.opc == 0x4B && sl.op 8 1 != 1 && sl.op 8 1 != 2) fun sl =>
    let first := sl.op 12 4
    let n := sl.op 16 4
    let upTo := itemsTo sl entries n
    let from' := sl.progress
    let send : State :=
      let bytes := (List.range (upTo - from')).flatMap fun i => ledgerEntry s (first + from' + i)
      goOn (if bytes.isEmpty then s else emit s (.data (sl.op 24 8 + 32 * from') bytes (slotPlace s id))) id upTo n fun s =>
        done s id Status.ok n
    if from' > 0 then send
    else guarded s id [(ledgerFieldBad sl, Status.field, 0), (first + n > 8273, Status.length, 0)] send

/-- A margin plan entry as read. -/
def planEntry (bs : List Byte) : PlanEntry := ⟨field bs 0 1, field bs 1 1, field bs 2 2, field bs 4 4, field bs 8 4⟩

/-- A field of a plan entry is out of range, or its class stands before it (20 R456). -/
def planBad (es : List (List Byte)) (i : Nat) (b : List Byte) : Bool :=
  let p := planEntry b
  p.cls > 13 || p.action > 2 || p.k > 4096 || p.tol == 0 || p.horizon > 8760 || field b 12 4 != 0 ||
    (es.take i).any fun x => field x 0 1 == p.cls

/-- PLAN_LOAD (14 R337; 20 R456, R457). -/
def execPlanLoad (id : Nat) (data : List Byte) (s : State) : Host.Outcome State Fault Refusal :=
  .next <| withDesc s id (fun sl => sl.opc == 0x4B && sl.op 8 1 == 1) fun sl =>
    let n := sl.op 16 4
    let es := if n ≤ 14 then chunks 16 n (hostBytes data (16 * n)) else []
    let bad := (es.zipIdx.find? fun p => planBad es p.2 p.1).map Prod.snd
    guarded s id
      [(ledgerFieldBad sl, Status.field, 0), (n > 14, Status.length, 0), (bad.isSome, Status.field, bad.getD 0)]
      (done (evalAll { s with cal.plan := es.map planEntry }) id Status.ok n)

/-- PLAN_CLEAR (14 R337; 20 R456, R457). -/
def execPlanClear (id : Nat) (s : State) : Host.Outcome State Fault Refusal :=
  .next <| withDesc s id (fun sl => sl.opc == 0x4B && sl.op 8 1 == 2) fun sl =>
    guarded s id [(ledgerFieldBad sl, Status.field, 0)] (done (evalAll { s with cal.plan := [] }) id Status.ok 0)

/-- MARGIN_EVALUATION, once per minute (20 R457). -/
def execMarginEvaluation (s : State) : Host.Outcome State Fault Refusal :=
  .next (if s.running && s.now - s.cal.minAt ≥ 60 * secTicks then
      evalAll { s with cal.minAt := s.cal.minAt + 60 * secTicks }
    else s)

/-! ### Registers of the ledger (20 R461) -/

/-- A write of LED_CFG: every group timer restarts. -/
def ledCfgWrite (s : State) (w : RegWrite) : State :=
  let v := (RegWrite.onto w (BitVec.ofNat 64 s.cal.watchMax)).toNat % 16384
  if v < 1 || v > 10080 then configRefused s (RegWrite.at' w 0xF0008)
  else if w.half == .high then s
  else { s with cal.watchMax := v, cal.timers := (List.range 64).foldl (fun t g => Tab.set 0 t g s.now) s.cal.timers }

/-- LED_CFG_WRITE (20 R455, R461). -/
def execLedCfgWrite (w : RegWrite) (s : State) : Host.Outcome State Fault Refusal := .next (ledCfgWrite s w)

/-- A write of LED_REFV. -/
def ledRefvWrite (s : State) (w : RegWrite) : State :=
  let v := (RegWrite.onto w (BitVec.ofNat 64 (s.cal.refV + 2 ^ 32 * s.cal.refVUnc))).toNat
  if v % 2 ^ 32 > 7000000 then configRefused s (RegWrite.at' w 0xF0010)
  else { s with cal.refV := v % 2 ^ 32, cal.refVUnc := v / 2 ^ 32 }

/-- LED_REFV_WRITE (20 R461). -/
def execLedRefvWrite (w : RegWrite) (s : State) : Host.Outcome State Fault Refusal := .next (ledRefvWrite s w)

/-! ### Time base (20 R448 to R450) -/

/-- XTAL_AGE and AGE_RATE stay within ±1,000,000 (20 R448, R450). -/
def clampAge (x : Int) : Int := max (-1000000) (min 1000000 x)

/-- The correction that the crystal moves to: the factory trim and XTAL_AGE, at most ±10 ppm, in 0.01 ppb (20 R448). -/
def corrTarget (s : State) : Int := clampAge (factoryVal s xtalTrimKey + s.cal.xtalAge)

/-- The correction of the crystal now: it slews by at most 10 units per ms (20 R448). -/
def corrNow (s : State) : Int :=
  let step : Int := (10 * (s.now - s.cal.corrAt) / (1000 * usTicks) : Nat)
  max (s.cal.corrFrom - step) (min (s.cal.corrFrom + step) (corrTarget s))

/-- XTAL_AGE changes; the correction slews from where it stands (20 R448). -/
def setXtal (s : State) (a : Int) : State :=
  { s with cal.xtalAge := a, cal.corrFrom := corrNow s, cal.corrAt := s.now }

/-- REF_STATE is ACQUIRING or LOCKED: the device steers the crystal. -/
def steers (s : State) : Bool := s.cal.refSt == .acquiring || s.cal.refSt == .locked

/-- A write of CLK_XTAL; a write that reaches XTAL_AGE clears its fraction (20 R450; log entry 34). -/
def clkXtalWrite (s : State) (w : RegWrite) : State :=
  let old := fromSigned 32 s.cal.xtalAge + 2 ^ 32 * fromSigned 32 s.cal.ageRate
  let v := (RegWrite.onto w (BitVec.ofNat 64 old)).toNat
  let a := toSigned 32 v
  let r := toSigned 32 (v / 2 ^ 32)
  if steers s || clampAge a != a || clampAge r != r then configRefused s (RegWrite.at' w 0x50000)
  else { setXtal s a with cal.ageRate := r, cal.ageFrac := if w.half == .high then s.cal.ageFrac else 0 }

/-- CLK_XTAL_WRITE (20 R450). -/
def execClkXtalWrite (w : RegWrite) (s : State) : Host.Outcome State Fault Refusal := .next (clkXtalWrite s w)

/-- CLK_REF as a number, its read-only field apart. -/
def clkRef (s : State) : Nat := s.cal.refSel + 2 ^ 32 * s.cal.refUnc

/-- A write of CLK_REF: a changed REF_SEL moves REF_STATE to CRYSTAL or ACQUIRING (20 R449, R450; log entry 35). -/
def refSelWrite (s : State) (w : RegWrite) : State :=
  let v := (RegWrite.onto w (BitVec.ofNat 64 (clkRef s))).toNat
  let sel := v % 4
  let unc := v / 2 ^ 32
  if unc < 1 || unc > 1000000 then configRefused s (RegWrite.at' w 0x50008)
  else
    let st : RefSt := if sel == s.cal.refSel then s.cal.refSt else if sel == 0 then .crystal else .acquiring
    { s with cal.refSel := sel, cal.refUnc := unc, cal.refSt := st,
             cal.acqAt := if sel == s.cal.refSel then s.cal.acqAt else s.now }

/-- REF_SEL_WRITE (20 R449, R450). -/
def execRefSelWrite (w : RegWrite) (s : State) : Host.Outcome State Fault Refusal := .next (refSelWrite s w)

/-- XTAL_AGE_UPDATE: once per second, by AGE_RATE or, while LOCKED, to the steering correction (20 R448, R449). AGE_RATE is in
0.001 ppb per day, and XTAL_AGE in 0.01 ppb: one unit takes 864,000 units and seconds. -/
def execXtalAgeUpdate (steer : Int) (s : State) : Host.Outcome State Fault Refusal :=
  .next <|
    if !s.running || s.now - s.cal.secAt < secTicks then s
    else
      let s := { s with cal.secAt := s.cal.secAt + secTicks }
      if s.cal.refSt == .locked then
        { setXtal s (clampAge steer) with cal.ageFrac := 0, cal.lockedAt := s.now }
      else
        let t := s.cal.ageFrac + s.cal.ageRate
        { setXtal s (clampAge (s.cal.xtalAge + t / 864000)) with cal.ageFrac := t % 864000 }

/-- AGE_RATE_UPDATE: once per day while LOCKED (20 R449); the eighth is rounded to the nearest unit, ties to even (log entry
36). -/
def execAgeRateUpdate (s : State) : Host.Outcome State Fault Refusal :=
  .next <|
    if s.cal.refSt != .locked || s.now - s.cal.dayAt < dayTicks then s
    else
      let r := 10 * (s.cal.xtalAge - s.cal.dayAge)
      { s with
        cal.residSum := s.cal.residSum + (r - s.cal.ageRate).natAbs,
        cal.residDays := s.cal.residDays + 1,
        cal.ageRate := clampAge (s.cal.ageRate + roundDiv (r - s.cal.ageRate) 8),
        cal.dayAge := s.cal.xtalAge,
        cal.dayAt := s.cal.dayAt + dayTicks }

/-- REF_IN_LOCKED: ACQUIRING to LOCKED once the mean frequency difference over each of the last ten seconds, in 0.001 ppb, lies
within ±0.05 ppb; the day of AGE_RATE starts (20 R449). -/
def execRefInLocked (means : List Int) (s : State) : Host.Outcome State Fault Refusal :=
  .next (if s.cal.refSt == .acquiring && means.length == 10 && means.all (fun m => m.natAbs ≤ 50) &&
        s.cal.acqAt + 10 * secTicks ≤ s.now then
      { s with cal.refSt := .locked, cal.dayAt := s.now, cal.dayAge := s.cal.xtalAge, cal.lockedAt := s.now }
    else s)

/-- REF_IN lies within ±10 ppm of the selected nominal, in ppb (20 R449). -/
def refInOk (ppb : Int) : Bool := ppb.natAbs ≤ 10000

/-- REF_IN_LOSS: LOCKED to HOLDOVER when no edge has come for 1 µs since `lastEdge`, or the frequency lies outside ±10 ppm; Δt of
the time base counts from here (20 R449, R452). -/
def execRefInLoss (lastEdge : Nat) (ppb : Int) (s : State) : Host.Outcome State Fault Refusal :=
  .next (if s.cal.refSt == .locked && (lastEdge + usTicks ≤ s.now || !refInOk ppb) then
      { s with cal.refSt := .holdover, cal.lockedAt := s.now }
    else s)

/-- REF_IN_ACCEPTED: HOLDOVER to ACQUIRING (20 R449). -/
def execRefInAccepted (ppb : Int) (s : State) : Host.Outcome State Fault Refusal :=
  .next (if s.cal.refSt == .holdover && refInOk ppb then { s with cal.refSt := .acquiring, cal.acqAt := s.now } else s)

end Sys2Proof.Machine
end

