-- ==== Sys2Proof/Machine/UserCal.lean ====
section
/-! DEFINITION. The AUX port and the user calibration overlay (14 R338, R339; 20 R443 to R447; 22 R474 to R479). -/

namespace Sys2Proof.Machine

open Sys2Proof

/-! ### AUX_XFER (14 R338; 22 R476 to R479) -/

/-- The tests before the first item of slot id have passed. -/
def setTested (s : State) (id : Nat) : State := s.updSlot id fun x => { x with tested := true }

/-- Start a transfer. -/
def auxBegin (s : State) (id : Nat) (sl : Slot) (tx rx : List Byte) : State :=
  let n := sl.op 12 2
  let r : AuxRun := ⟨id, auxStart s, 32 * sl.op 11 1, n, sl.op 24 8, rx, sl.op 8 1, sl.op 9 1 == 3, tickCeil s.aux.selSetup⟩
  park { s with aux.busy := some r, aux.bits := 0, aux.tx := hostBytes tx ((n + 7) / 8) } id .ending

/-- At tick t a stopped transfer still shifts its last bit (22 R478). -/
def inTail (s : State) (t : Nat) : Bool := s.aux.tail.any fun p => decide (t < p.1.start + p.1.len * p.1.period + p.1.period / 2)

/-- The transfer whose levels the pins show at tick t. -/
def auxShown (s : State) (t : Nat) : Option AuxRun := if inTail s t then s.aux.tail.map Prod.fst else s.aux.busy

/-- AUX_SELV_N at tick t: low from t_s to half a period behind the last bit (22 R474, R476, R478). -/
def auxSelvN (s : State) (t : Nat) : Bool :=
  !(auxShown s t).any fun r => decide (r.start ≤ t ∧ t < r.start + r.len * r.period + r.period / 2)

/-- AUX_SCK at tick t: its idle level, and while a transfer shifts low for the first half of each bit and high for the second (22
R474, R476). -/
def auxSck (s : State) (t : Nat) : Bool := match auxShown s t with
  | some r =>
    if t < r.start then s.aux.sck
    else if r.len * r.period ≤ t - r.start then r.mode3
    else decide ((t - r.start) % r.period ≥ r.period / 2)
  | none => s.aux.sck

/-- AUX_SDO at tick t: bit i from i periods behind t_s on, else low; bit i is bit 7 − (i mod 8) of byte i div 8 (22 R474,
R476). -/
def auxSdo (s : State) (t : Nat) : Bool := match auxShown s t with
  | some r =>
    let i := (t - r.start) / r.period
    decide (r.start ≤ t) && decide (i < r.len) && (if inTail s t then s.aux.tail.any (·.2) else txBit s.aux.tx i)
  | none => false

/-- The device drives the outputs of the AUX port: from the 1 ms point on, while every rail is valid and the TAP leaves the chain
pins to it (22 R474; 23 R491; 25 R522). -/
def auxDriven (s : State) : Bool := s.aux.driven && pinsDriven s && !s.tap.driving

/-- AUX_SEL[3:0] at tick t: SEL of the transfer from SEL_SETUP before t_s on, before it the code of the last one (22 R474 to
R476). -/
def auxSel (s : State) (t : Nat) : Nat := match auxShown s t with
  | some r => if t + r.setup ≥ r.start then r.sel else s.aux.sel
  | none => s.aux.sel

/-- AUX_XFER, with the bytes it reads at TX_ADDR and the bits that AUX_SDI will receive (14 R338; 22 R477, R478). -/
def execAuxXfer (id : Nat) (tx rx : List Byte) (s : State) : Host.Outcome State Fault Refusal :=
  .next <| withDesc s id (fun sl => sl.opc == 0x50) fun sl =>
    let mode := sl.op 9 1
    guarded s id
      [(sl.op 8 1 > 15 || (mode != 0 && mode != 3) || sl.op 10 1 > 1 || sl.op 11 1 == 0 || !sl.zero 14 16 || !sl.zero 32 64 ||
          sl.op 16 8 % 8 != 0 || sl.op 24 8 % 8 != 0, Status.field, 0),
       (sl.op 12 2 == 0, Status.length, 0),
       (!sl.coversBit 6, Status.claim, 0)]
      (let go (s : State) : State := if auxFree s then auxBegin s id sl tx rx else park s id .aux
       if sl.op 10 1 == 0 || sl.tested then go s
       else whenFresh s id sl fun s => guarded s id [(!junctionOk s, Status.tempRange, 0)] (go (setTested s id)))

/-- A transfer whose last step has passed completes: what the port does as time passes (22 R476, R477). -/
def auxTick (s : State) : State :=
  match s.aux.busy with
  | some r => if r.start + r.len * r.period + r.period / 2 ≤ s.now then auxEnd s Status.ok r.len else s
  | none => s

/-- AUX_CFG as a number (22 R479). -/
def auxCfg (s : State) : Nat := s.aux.sampleDly + 256 * s.aux.selSetup

/-- A write of AUX_CFG (22 R479). -/
def auxCfgWrite (s : State) (w : RegWrite) : State :=
  let v := (RegWrite.onto w (BitVec.ofNat 64 (auxCfg s))).toNat
  if bits v 15 8 < 20 then configRefused s (RegWrite.at' w 0xB0008)
  else { s with aux.sampleDly := v % 8, aux.selSetup := bits v 15 8 }

/-- AUX_CFG_WRITE (22 R479). -/
def execAuxCfgWrite (w : RegWrite) (s : State) : Host.Outcome State Fault Refusal := .next (auxCfgWrite s w)

/-! ### The overlay (20 R443, R444, R447) -/

/-- The overlay holds an entry form for a quantity and SUB (20 R443). -/
def overlayOk (qty sub : Nat) : Bool :=
  match qClass qty with
  | 0 => sub ≤ 3
  | 1 => sub ≤ 1
  | 2 => sub ≤ 1
  | 3 => sub == 0
  | 4 => sub == 0
  | 11 => sub == 0
  | 12 => sub == 0
  | c => 5 ≤ c && c ≤ 10 && sub ≤ 1

/-- An image entry as read (20 R444). -/
def readOverlay (b : List Byte) : Overlay := ⟨field b 0 2, field b 2 1, fieldS b 4 4, fieldS b 8 4, field b 12 4⟩

/-- An image entry is out of range or names no overlay entry (20 R443, R444). -/
def overlayBad (b : List Byte) : Bool :=
  let o := readOverlay b
  let uncOnly := qClass o.qty == 3 || qClass o.qty == 4
  field b 3 1 != 0 || !overlayOk o.qty o.sub || o.gain < -10000000 || o.gain > 10000000 ||
    (uncOnly && (o.gain != 0 || o.offset != 0))

/-- The bytes of an entry. -/
def overlayBytes (o : Overlay) : List Byte :=
  leBytes 2 o.qty ++ leBytes 1 o.sub ++ zeros 1 ++ leBytes 4 (fromSigned 32 o.gain) ++ leBytes 4 (fromSigned 32 o.offset) ++
    leBytes 4 o.unc

/-- The whole overlay as an image (20 R444, R445). -/
def overlayImage (s : State) : List Byte :=
  let es := s.cal.overlay.flatMap overlayBytes
  leBytes 4 0x43554C50 ++ leBytes 4 s.cal.overlay.length ++ leBytes 4 (crc32 es) ++ zeros 4 ++ es

/-- The overlay with an entry written: it replaces the one of its quantity and SUB (20 R444). -/
def placeOverlay (os : List Overlay) (o : Overlay) : List Overlay :=
  (os.filter fun x => !(x.qty == o.qty && x.sub == o.sub)) ++ [o]

/-- An entry is written and acts: its quantity's base is U_U, E is 0 and Δt restarts (20 R447, R452). -/
def writeOverlay (s : State) (o : Overlay) : State :=
  let level := if o.qty % 16 == 0 then [2, 3, 4, 0x00A].getD o.sub 0 else [5, 6].getD o.sub 0
  let s := if o.qty < 0x2000 && o.qty % 16 ≤ 1 then
      s.updChan (o.qty / 16) fun c => { c with levelAt := Tab.set 0 c.levelAt level s.now }
    else s
  ({ s with cal.overlay := placeOverlay s.cal.overlay o }).updLedger o.qty fun l =>
    { l with e := 0, first := true, since := s.now }

/-- The claim covers the resource of a quantity (20 R445; 14 R326). -/
def claimsQty (sl : Slot) (q : Nat) : Bool :=
  if q < 0x2000 then sl.covers0 (2 ^ (q / 1024)) else if q < 0x2040 then sl.coversBit 2 else sl.coversBit 1

/-- A self-check group in progress covers the resource of a quantity (20 R445 order 5). -/
def qtyWatched (s : State) (q : Nat) : Bool :=
  s.cal.checks.any fun p => p.2.isSome &&
    (if q < 0x2000 then p.1 < 32 && p.1 % 8 == q / 1024
     else if q < 0x2040 then p.1 == 32 + (q - 0x2000) / 4 else p.1 == 48 + (q - 0x2040))

/-- The domain of the resource of a quantity. -/
def qtyDomain (q : Nat) : Nat :=
  if q < 0x2000 then domChan (q / 16) else if q < 0x2040 then domDig ((q - 0x2000) / 4) else domAwg (q - 0x2040)

/-- The overlay entries that CLEAR removes, in their order: those of claimed resources (20 R445). -/
def clearedBy (s : State) (sl : Slot) : List Overlay :=
  s.cal.overlay.filter fun o =>
    if o.qty < 0x2000 then sl.covers0 (2 ^ (o.qty / 1024)) else if o.qty < 0x2040 then sl.coversBit 2 else sl.coversBit 1

/-- The bytes of an image's entries: of the N that its header names, those that LENGTH bytes hold (20 R444; which of them
a wrong N leaves under the CRC is DESIGN CHOICE, log entry 81). -/
def imageBody (d : List Byte) : List Byte := (d.drop 16).take (16 * field d 4 4)

/-- The entries of an image. -/
def imageEntries (d : List Byte) : List Overlay := (chunks 16 ((imageBody d).length / 16) (imageBody d)).map readOverlay

/-- What test 1 finds wrong in an image: the index of an entry, or 0 for the header (20 R445). -/
def imageBad (d : List Byte) : Option Nat :=
  let es := imageBody d
  if field d 0 4 != 0x43554C50 || field d 4 4 == 0 || field d 12 4 != 0 || field d 8 4 != crc32 es then some 0
  else ((chunks 16 (es.length / 16) es).zipIdx.find? fun p => overlayBad p.1).map Prod.snd

/-- Another CAL_USER whose tests have passed covers the resource of a quantity: CAPTURE and CLEAR by their claim, the others by
their image (20 R445 order 5). -/
def qtyTaken (s : State) (id q : Nat) : Bool :=
  (heldSlots s).any fun p =>
    let o := p.2
    p.1 != id && o.opc == 0x58 && o.tested &&
      if o.op 8 1 == 2 || o.op 8 1 == 4 then claimsQty o q
      else (imageEntries o.held).any fun x => qtyDomain x.qty == qtyDomain q

/-- Tests 5 and 6 of CAL_USER for the quantities it writes (20 R445). -/
def qtyTests (s : State) (id : Nat) (qs : List Nat) : List (Bool × Nat × Nat) :=
  [(qs.any (fun q => qtyWatched s q || qtyTaken s id q), Status.consistency, 0),
   (qs.any fun q => inRecovery s (qtyDomain q), Status.recovery, 0)]

/-! ### CAL_USER (14 R339; 20 R445, R446) -/

/-- The operand test of CAL_USER (14 R339): a flash address is below 2^24, and STORE_FLASH's a multiple of 4,096. -/
def calFieldBad (sl : Slot) : Bool :=
  let a := sl.op 8 1
  let flash := a == 1 || a == 3
  let len := sl.op 12 4
  let addr := sl.op 16 8
  a > 4 || (if flash then sl.op 9 1 > 15 else sl.op 9 1 != 0) || !sl.zero 10 12 || !sl.zero 24 64 ||
    (if a == 4 then len != 0 else len == 0 || len % 16 != 0) || (a == 2 && addr != 0) || (a == 4 && addr != 0) ||
    (flash && addr ≥ 2 ^ 24) || (a == 3 && addr % 4096 != 0)

/-- A load writes its next entries, `k` of them or as many as are left, in order (20 R445, R447). -/
def loadEntries (s : State) (id : Nat) (sl : Slot) (k : Nat) : State :=
  let os := imageEntries sl.held
  let upTo := itemsTo sl k os.length
  goOn (evalAll (forEach ((os.take upTo).drop sl.progress) s fun o s => writeOverlay s o)) id upTo os.length fun s =>
    done s id Status.ok os.length

/-- The tests of a load, in order, before the first of its entries is written (20 R445): `d` is the image. -/
def loadImage (s : State) (id : Nat) (sl : Slot) (d : List Byte) (flash : Bool) (k : Nat) : State :=
  let len := sl.op 12 4
  let n := field d 4 4
  let bad := imageBad d
  let os := imageEntries d
  let qs := os.map Overlay.qty
  guarded s id
    ([(bad.isSome, Status.field, bad.getD 0),
      (len != 16 + 16 * n || n > 16384 || (os.foldl placeOverlay s.cal.overlay).length > 16384, Status.length, 0),
      (!qs.all (claimsQty sl) || (flash && !sl.coversBit 6), Status.claim, 0)] ++ qtyTests s id qs)
    (loadEntries (s.updSlot id fun x => { x with held := d, tested := true }) id { sl with held := d } k)

/-- LOAD_HOST: the next `entries` entries, the tests before the first of them; an unknown action ends here too (20 R445). -/
def execLoadHost (id : Nat) (data : List Byte) (entries : Nat) (s : State) : Host.Outcome State Fault Refusal :=
  .next <| withDesc s id (fun sl => sl.opc == 0x58 && !(1 ≤ sl.op 8 1 && sl.op 8 1 ≤ 4) && !dmaHeld s id sl) fun sl =>
    if sl.tested then loadEntries s id sl entries
    else guarded s id [(calFieldBad sl, Status.field, 0)] (loadImage s id sl (hostBytes data (sl.op 12 4)) false entries)

/-- A 3-byte flash address, most significant byte first. -/
def flashAddr (a : Nat) : List Byte := (leBytes 3 a).reverse

/-- The transfers that program a page of up to 256 bytes: write enable, page program, and the poll of the status (20 R446). -/
def flashPage (a : Nat) (d : List Byte) : List FlashStep :=
  [{ bytes := [0x06] }, { bytes := 0x02 :: flashAddr a ++ d, page := true },
   { bytes := [0x05], reads := 1, poll := some (d.length / 16) }]

/-- The transfers of one 4 KiB sector: erased, then its pages programmed (20 R446). -/
def flashSector (a : Nat) (d : List Byte) : List FlashStep :=
  [{ bytes := [0x06] }, { bytes := 0x20 :: flashAddr a }, { bytes := [0x05], reads := 1, poll := some 0 }] ++
    (List.range ((d.length + 255) / 256)).flatMap fun i => flashPage (a + 256 * i) ((d.drop (256 * i)).take 256)

/-- The transfers of a STORE_FLASH of an image from an address on (20 R446). -/
def flashStore (a : Nat) (d : List Byte) : List FlashStep :=
  (List.range ((d.length + 4095) / 4096)).flatMap fun i => flashSector (a + 4096 * i) ((d.drop (4096 * i)).take 4096)

/-- A flash action takes the port for a list of transfers and starts the first (20 R446; 22 R478). -/
def flashTake (s : State) (id : Nat) (sl : Slot) (script : List FlashStep) : State :=
  flashBegin { s with aux.flash := some id, aux.script := script, aux.ready := false, aux.pageAt := none } id (sl.op 9 1)

/-- The port of a flash action whose descriptor has completed is free (22 R478). -/
def flashLeave (s : State) (id : Nat) : State := if (s.slot id).isNone then { s with aux.flash := none } else s

/-- The image of a flash action runs past the 3-byte addresses. -/
def flashPast (sl : Slot) : Bool := sl.op 16 8 + sl.op 12 4 > 2 ^ 24

/-- LOAD_FLASH: it takes the port and reads the image, which is what the flash holds; then the next `entries` entries, the tests
before the first of them (20 R445, R446). -/
def execLoadFlash (id : Nat) (data : List Byte) (entries : Nat) (s : State) : Host.Outcome State Fault Refusal :=
  .next <| withDesc s id (fun sl => sl.opc == 0x58 && sl.op 8 1 == 1 && !dmaHeld s id sl) fun sl =>
    if s.aux.flash == some id then
      if s.aux.busy.isSome then s
      else flashLeave (if sl.tested then loadEntries s id sl entries else loadImage s id sl sl.held true entries) id
    else guarded s id [(calFieldBad sl, Status.field, 0), (flashPast sl, Status.length, 0)]
      (if !auxFree s then park s id .aux
       else flashTake (s.updSlot id fun x => { x with held := hostBytes data (sl.op 12 4) }) id sl
         [{ bytes := 0x03 :: flashAddr (sl.op 16 8), reads := sl.op 12 4 }])

/-- The quantities and SUBs that CAPTURE measures on the claimed resources (20 R445). -/
def capturedBy (sl : Slot) : List (Nat × Nat) :=
  let chan (n : Nat) : List (Nat × Nat) :=
    [0, 1, 2, 5, 6, 7, 8, 9, 10].flatMap fun c => (List.range (if c == 0 then 4 else 2)).map fun b => (16 * n + c, b)
  let secs := if sl.coversBit 0 then maskList 8 sl.secMask else []
  (secs.flatMap fun n => (List.range 64).flatMap fun c => chan (64 * n + c)) ++
    (if sl.coversBit 2 then (List.range 16).flatMap fun n => (List.range 3).map fun j => (0x2000 + 4 * n + j, 0) else []) ++
    (if sl.coversBit 1 then (List.range 16).map fun n => (0x2040 + n, 0) else [])

/-- A self-check group of the resource of a quantity, to test eligibility under 20 R453. -/
def eligibleQty (s : State) (q : Nat) : Bool :=
  if q < 0x2000 then checkable s (q / 1024) (q / 16) || inRecovery s (domChan (q / 16))
  else if q < 0x2040 then
    let n := (q - 0x2000) / 4
    checkable s (32 + n) n || inRecovery s (domDig n)
  else checkable s (48 + (q - 0x2040)) (q - 0x2040) || inRecovery s (domAwg (q - 0x2040))

/-- The entry measured for a quantity and SUB: as the command gives it, or else free values (log entry 3). -/
def measured (s : State) (es : List Overlay) (p : Nat × Nat) : Overlay × State :=
  match es.find? fun o => o.qty == p.1 && o.sub == p.2 with
  | some o => (o, s)
  | none =>
    let (a, s) := s.fresh
    let (b, s) := s.fresh
    (⟨p.1, p.2, toSigned 32 a.toNat, toSigned 32 (a.toNat / 2 ^ 32), b.toNat % 2 ^ 32⟩, s)

/-- A CAPTURE measures and writes its next entries, `k` of them or as many as are left (20 R445, R447). -/
def captureEntries (s : State) (id : Nat) (sl : Slot) (es : List Overlay) (k : Nat) : State :=
  let ps := capturedBy sl
  let upTo := itemsTo sl k ps.length
  goOn (evalAll (forEach ((ps.take upTo).drop sl.progress) s fun p s =>
    let (o, s) := measured s es p
    writeOverlay s o)) id upTo ps.length fun s => done s id Status.ok ps.length

/-- CAPTURE, with the entries measured: the next `count` of them, the tests before the first (20 R445; 19 R431, R436). -/
def execCapture (id : Nat) (entries : List Byte) (count : Nat) (s : State) : Host.Outcome State Fault Refusal :=
  .next <| withDesc s id (fun sl => sl.opc == 0x58 && sl.op 8 1 == 2) fun sl =>
    let ps := capturedBy sl
    let qs := (ps.map Prod.fst).eraseDups
    let blank := ps.map fun p => (⟨p.1, p.2, 0, 0, 0⟩ : Overlay)
    let es := (chunks 16 (entries.length / 16) entries).map readOverlay
    if sl.tested then captureEntries s id sl es count
    else guarded s id
      [(calFieldBad sl, Status.field, 0),
       (16 + 16 * ps.length > sl.op 12 4 || (blank.foldl placeOverlay s.cal.overlay).length > 16384, Status.length, 0)]
      (whenFresh s id sl fun s =>
        guarded s id
          ([(!junctionOk s, Status.tempRange, 0),
            (s.cal.refV == 0 || !qs.all (eligibleQty s), Status.consistency, 0)] ++ qtyTests s id qs)
          (captureEntries (setTested s id) id sl es count))

/-- A STORE_FLASH whose tests have passed takes the port with the image it holds, or waits for it (20 R446; 22 R478). -/
def storeStart (s : State) (id : Nat) (sl : Slot) (image : List Byte) : State :=
  if auxFree s then flashTake s id sl (flashStore (sl.op 16 8) image) else park s id .aux

/-- STORE_FLASH: the tests and its first transfer; from then on that the flash has finished the erase or page that is polled,
which the next poll reads (20 R445, R446). -/
def execStoreFlash (id : Nat) (s : State) : Host.Outcome State Fault Refusal :=
  .next <| withDesc s id (fun sl => sl.opc == 0x58 && sl.op 8 1 == 3) fun sl =>
    if s.aux.flash == some id then
      if (s.aux.script.head?.bind FlashStep.poll).isSome && !pageLate s then { s with aux.ready := true } else s
    else if sl.tested then storeStart s id sl sl.held
    else
      let qs := s.cal.overlay.map Overlay.qty
      guarded s id
        [(calFieldBad sl, Status.field, 0),
         (sl.op 12 4 != 16 + 16 * s.cal.overlay.length || flashPast sl, Status.length, 0),
         (!qs.all (claimsQty sl) || !sl.coversBit 6, Status.claim, 0)]
        (whenFresh s id sl fun s =>
          guarded s id ([(!junctionOk s, Status.tempRange, 0)] ++ qtyTests s id qs)
            (storeStart (s.updSlot id fun x => { x with held := overlayImage s, tested := true }) id sl (overlayImage s)))

/-- FLASH_PAGE_TIMEOUT: a page is not finished within 10 ms: its STORE_FLASH ends, with the bytes written (20 R446). -/
def execFlashPageTimeout (id : Nat) (s : State) : Host.Outcome State Fault Refusal :=
  .next <| withDesc s id (fun sl => sl.opc == 0x58 && sl.op 8 1 == 3) fun sl =>
    if s.aux.flash == some id && pageLate s then
      done (leaveItems s id sl sl.progress) id Status.testerFault (16 * sl.progress)
    else s

/-- CLEAR: the next `entries` entries go, the tests before the first of them (20 R445). -/
def execClear (id entries : Nat) (s : State) : Host.Outcome State Fault Refusal :=
  .next <| withDesc s id (fun sl => sl.opc == 0x58 && sl.op 8 1 == 4) fun sl =>
    let left := clearedBy s sl
    let n := sl.progress + left.length
    let go (s : State) : State :=
      let gone := left.take entries
      goOn (evalAll { s with cal.overlay := s.cal.overlay.filter fun o => !gone.contains o }) id (itemsTo sl entries n) n fun s =>
        done s id Status.ok n
    if sl.tested then go s
    else guarded s id ([(calFieldBad sl, Status.field, 0)] ++ qtyTests s id (left.map Overlay.qty).eraseDups) (go (setTested s id))

end Sys2Proof.Machine
end

