-- ==== Sys2Proof/Machine/Power.lean ====
section
/-! DEFINITION. Power-up, host resets and the state of the host link (23; 13 R286, R289, R308; 02 R28; 20 R439; 21 R463). -/

namespace Sys2Proof.Machine

open Sys2Proof

/-! ### Power-up (23 R490 to R495) -/

/-- DEV_SAFE_P/N as the pins read: high-impedance before the 1 ms point and while a rail is not valid (18 R424; 23 R491). -/
def devSafePins (s : State) : DevSafe := if pinsDriven s then s.flt.devSafe else .hiZ

/-- The sweep of the SWEEP_SRC_DEFAULT strap (02 R28): a keeper strapped to GROUP, and the reserved code, take TIME. -/
def strapSweep (straps : Straps) : Sweep :=
  let code := straps.sweepSrc.toNat
  if code == 1 && !straps.keeper then { source := .group, st := .noSync, rate := 0, takeNext := true }
  else if code == 2 then { source := .angle, st := .noSync, rate := 0 }
  else {}

/-- POWER_UP_RESET: all device state is lost, and the straps are sampled (23 R492, R493; 16 R363). What stands outside the
device stays: the waiting commands, the record of what it has sent, and the levels of PERST_N, AWG_CLR_N and the bus
lines and rails. A low level of PWR_OK shorter than 1 µs, `low` in ticks, is ignored. -/
def execPowerUpReset (low : Nat) (straps : Straps) (s : State) : Host.Outcome State Fault Refusal :=
  let r := State.reset
  .next <| if low < usTicks then s else { r with
    sweep := { strapSweep straps with st := .running },
    pending := s.pending, free := s.free, host.out := s.host.out, pwr.straps := straps, pwr.perst := s.pwr.perst,
    flt.awgClr := s.flt.awgClr, pwr.badRails := s.pwr.badRails, grp.keeper := straps.keeper,
    grp.groupId := if straps.keeper then 0 else straps.groupId.toNat,
    grp.rdyN := s.grp.rdyN, grp.gfltN := s.grp.gfltN,
    tb := s.tb.filterMap fun p => if p.2.asserted then some (p.1, { asserted := true }) else none }

/-- A rail that its monitor reads at `uv` µV is valid, in the order of the table (23 R490). -/
def railValid (rail : Fin 11) (uv : Int) : Bool :=
  if rail.val == 9 then uv ≤ -3600000
  else uv ≥ [675000, 765000, 765000, 990000, 765000, 1080000, 900000, 2970000, 8400000, 0, 1620000].getD rail 0

/-- RAIL_INVALID: the monitor of a rail reads `uv` µV; while a rail is not valid, every pin is high-impedance (23 R490, R491). -/
def execRailInvalid (rail : Fin 11) (uv : Int) (s : State) : Host.Outcome State Fault Refusal :=
  .next (if railValid rail uv then { s with pwr.badRails := s.pwr.badRails.filter (· != rail.val) }
    else if s.pwr.badRails.contains rail.val then s
    else { s with pwr.badRails := s.pwr.badRails ++ [rail.val] })

/-- The channels enter HOLD with the comparator bits that they would have without hysteresis, at the voltages of their pins in
µV; a pin that the list does not name is at 0 V (03 R53). -/
def firstBits (s : State) (pins : List (Nat × Int)) : State :=
  forEach (List.range 512) s fun n s =>
    let uv := ((pins.find? fun p => p.1 == n).map Prod.snd).getD 0
    let h := bitWithout s n true uv
    let l := bitWithout s n false uv
    s.updChan n fun c => { c with voh := h, vol := l, accVoh := h, accVol := l }

/-- By the 1 ms point, and within every later step of power-up, the pins take their safe states (23 R494; 18 R424; 22
R474). -/
def safePins (s : State) (pins : List (Nat × Int)) : State :=
  if s.pwr.pinsSafe || !s.pwr.badRails.isEmpty then s
  else firstBits { s with pwr.pinsSafe := true, flt.devSafe := .fault, aux.driven := true } pins

/-- POWER_UP_1MS_POINT, with the voltages at the test pins (23 R494 step 2; 03 R53, R64). -/
def execPowerUp1msPoint (pins : List (Nat × Int)) (s : State) : Host.Outcome State Fault Refusal := .next (safePins s pins)

/-- The quantities whose factory values stand in one record with q: those of a channel, or the AWG and DIG quantities of a PE
die (20 R440, R441, R451). -/
def recordOf (q : Nat) : List Nat :=
  if q < 0x2000 then (List.range 11).map fun c => 16 * (q / 16) + c
  else
    let d := if q < 0x2040 then (q - 0x2000) / 16 else (q - 0x2040) / 4
    if q < 0x2050 then
      ((List.range 16).filter fun i => i % 4 ≤ 2).map (fun i => 0x2000 + 16 * d + i) ++
        (List.range 4).map fun i => 0x2040 + 4 * d + i
    else [q]

/-- A copy of a record whose CRC-32 passes (20 R439, R441). -/
def copyOk (d : List Byte) : Bool := d.length == 1024 && crc32 (d.take 1020) == field d 1020 4

/-- The values that a record gives: those of the copy, or the nominal ones (20 R439). -/
def recordVal (r : Nat) (copy : Option (List Byte)) (i : Nat) : Int :=
  match copy with
  | some d => fieldS d (4 * i) 4
  | none => factoryNominal (recordBase r + 4 * i)

/-- Give the 255 words of a record their values. -/
def setRecord (t : Tab Int) (r : Nat) (copy : Option (List Byte)) : Tab Int :=
  (List.range 255).foldl (fun t i =>
    Tab.set (factoryNominal (recordBase r + 4 * i)) t (recordBase r + 4 * i) (recordVal r copy i)) t

/-- Record r of OTP, stored in two copies: the first whose CRC passes gives its values; where neither does, the nominal values
stand and every ledger entry that the record serves is FACTORY_BAD (20 R439 to R441). -/
def loadRecord (r : Nat) (a b : List Byte) (s : State) : State :=
  if copyOk a then { s with cal.factory := setRecord s.cal.factory r (some a) }
  else if copyOk b then { s with cal.factory := setRecord s.cal.factory r (some b) }
  else { s with cal.factory := setRecord s.cal.factory r none,
                cal.badRecords := (s.cal.badRecords ++ recordOf (recordQty r)).eraseDups }

/-- FACTORY_CALIBRATION_LOADED: each record of OTP, by the number of `recordBase`, is loaded from its two copies; START ends (20
R439; 18 R408). The timeline waits for the rails (23 R492). -/
def execFactoryCalibrationLoaded (otp : List (Nat × List Byte × List Byte)) (s : State) : Host.Outcome State Fault Refusal :=
  .next <|
    if s.flt.phase != .start || !s.pwr.badRails.isEmpty then s
    else
      let s := forEach (otp.filter fun r => r.1 ≤ 516) (safePins s []) fun r s => loadRecord r.1 r.2.1 r.2.2 s
      setPhase { s with cal.corrFrom := corrTarget s, cal.corrAt := s.now } .selftest

/-- What training finds: DDR5 enters service at one common rate, or stays out of service with event 0x0462 (21 R462, R463). The
rate is at most the one that MAX_RATE allows. -/
def trainMem (s : State) (t : Training) : State :=
  let m := { s.mem with ranks2 := t.ranks2, density := t.density.toNat }
  if t.rate == 0 || t.failed != 0 || t.density == 3 then
    notice { s with mem := { s.mem with st := .outOfService, rate := 0, capacity := 0 } } 0x0462 t.failed.toNat
  else
    { s with mem := { m with st := .inService, rate := min t.rate.toNat (3 - s.mem.maxRate),
                             capacity := 16 * (1 + b2n t.ranks2) * (2 + t.density.toNat) } }

/-- A NOTICE whose event ID and DATA the manual does not give (02 R28; 16 R363; log entry 3). -/
def strapNotice (s : State) : State :=
  let (a, s) := s.fresh
  let (b, s) := s.fresh
  notice s (a.toNat % 0x600) (b.toNat % 2 ^ 32)

/-- The sweep at entry to SERVICE (02 R28): GROUP shows NO_SYNC until its first frame (DESIGN CHOICE, log entry 58). A keeper
strapped to GROUP, and the reserved code, log a NOTICE. -/
def startSweep (s : State) : State :=
  let straps := s.pwr.straps
  let code := straps.sweepSrc.toNat
  let x := strapSweep straps
  let s := s.setSetting 10 0 1 (match x.source with
    | .time => 0
    | .group => 1
    | .angle => 2)
  let s := takeAngle { s with sweep := { x with jumpAt := s.now * 65536 } }
  let s := if code == 3 || (code == 1 && straps.keeper) then strapNotice s else s
  if !straps.keeper && s.grp.groupId == 0 then strapNotice s else s

/-- The first quantity of each factory record that failed (20 R439). -/
def badFirsts (s : State) : List Nat :=
  s.cal.badRecords.filter fun q => !s.cal.badRecords.any fun p => p < q && (recordOf p).contains q

/-- Entry to SERVICE (23 R494 step 4): tick number 0, the sweep started, every synthesizer locked and gated, the timers of
sensors and ledger at 0, the light characters shown, a NOTICE for each failed factory record, DEV_SAFE_P/N at (1,0). -/
def enterService (s : State) : State :=
  let s := startSweep { s with pwr.service := some s.now, tick := 0, tickFrac := 0 }
  let s := forEach (List.range 8) s fun n s =>
    let s := s.updDcs n fun d => { d with unlocks := 0 }
    if isContained s (domDcs n) then s
    else freshAnchor (s.updDcs n fun d => { d with st := .gated, locked := true, refOk := true }) n
  let s := forEach (List.range 8) s fun n s => s.updAlive n fun a =>
    { a with showChar := if sectorDegraded s n then a.degraded else a.char, showPeriod := a.period, showFrom := s.now }
  let s := restartThmTimers s
  let s := { s with
    cal.timers := (List.range 64).foldl (fun t g => Tab.set 0 t g s.now) s.cal.timers,
    cal.secAt := s.now, cal.dayAt := s.now, cal.minAt := s.now,
    grp.roster := b2n s.grp.keeper, grp.aligned := s.grp.keeper, grp.posDue := 5 * s.now,
    flt.devSafe := if s.flt.devSafe == .hiZ then .hiZ else .safe }
  let s := forEach (badFirsts s) s fun q s => ledgerNotice s q 5
  let s := { s with pwr.ready := s.host.up && !s.pwr.perst && s.pwr.atTraining }
  setPhase s .service

/-- SELFTEST_DONE: DDR5 has been trained, and SELFTEST gives way to SERVICE (23 R494). After PERST_N with DDR5 out of service it
brings only the result of the new training (23 R497; log entry 40). -/
def execSelftestDone (t : Training) (s : State) : Host.Outcome State Fault Refusal :=
  .next <|
    if s.flt.phase == .selftest && s.pwr.badRails.isEmpty then enterService (trainMem (safePins s []) t)
    else if s.running && !s.stopped && s.mem.st == .training then resumeMem (trainMem s t)
    else s

/-! ### Host resets (23 R496 to R499) -/

/-- A channel after a host reset: HOLD, its latch and flags clear and disarmed, no site; counters stay (23 R496, R497). -/
def resetChan (s : State) (n : Nat) : State :=
  let s := holdChan s n (if (s.chan n).st == .isolated then .isolated else .hold)
  s.updChan n fun c =>
    { c with latch := false, flags := 0, armed := false, site := none, window := false, aligning := [], queue := [],
             epochSent := none, lostCount := 0, lostFirst := 0, lostTold := false, winOwed := [], mergeFrom := 0,
             prevStamp := none, block := [], slipTold := false }

/-- A sector after a host reset: no burst, no directory, no arming, its queued fail capture records discarded; a sector that
is contained stays HELD (23 R496, R497). -/
def resetSector (s : State) (n : Nat) : State :=
  let held := isContained s (domSec n)
  s.updSec n fun x =>
    { clearRun x with st := if held then .held else .idle, own := if held then x.own else none, dir := [],
                      followed := false, capQueue := [], capLost := 0, capLostFirst := none, wgs := [] }

/-- A flow after a host reset: closed. -/
def closedFlow (f : Flow) : Flow := { lostTotal := f.lostTotal, blockSeq := f.blockSeq }

/-- A digitizer after a host reset (23 R496). -/
def resetDig (s : State) (n : Nat) : State :=
  s.updDig n fun d =>
    { d with acq := .idle, slot := none, start := 0, sel := 0, post := 0, len := 0, startG := none, last := none, cause := 0,
             touched := false, mask := [], test := none, raw := closedFlow d.raw, dec := closedFlow d.dec, owed := [],
             closing := [], line := [] }

/-- A source after a host reset: at CLEAR_CODE, its directory and sequence table empty (23 R496, R497). -/
def resetAwg (s : State) (n : Nat) : State :=
  s.updAwg n fun a =>
    { a with st := if awgBusy a then .idle else a.st, dir := [], table := [], slot := none, streaming := false, holdOn := false,
             firstPos := none, late := false, dds := false, look := [], total := 0, jump := none, heldFor := 0, heldAt := none,
             release := none, due := [], ended := none, last := clearCode s n, atClear := true, window := [], fetch := 0,
             underTold := false, routed := false, routedTo := none, ddsDue := [], markOwed := false }

/-- A synthesizer after a host reset: gated, its profile empty; reset ratios that differ from those in force retune it
(23 R496, R497; 11 R246). -/
def resetDcs (s : State) (n : Nat) : State :=
  let s := s.updDcs n fun d => { d with ramp := none, point := 0, profile := [], retunePending := false, retuneAt := none }
  let d := s.dcs n
  if d.st == .contained then s
  else if d.m != s.settingN 9 n 1 || d.nNow != s.settingN 9 n 2 || d.o != s.settingN 9 n 3 || d.bw != s.settingN 9 n 4 then
    startRetune s n
  else settleDcs s n

/-- The HIF and EVT blocks after a host reset: reset values, but for HIF_BAR4_CFG (23 R497). -/
def resetHost (h : HostIf) : HostIf :=
  { rate := h.rate, width := h.width, flit := h.flit, up := h.up, bar4Size := h.bar4Size, bar4Next := h.bar4Next,
    bar4Base := h.bar4Base, aer := h.aer, out := h.out, readData := h.readData }

/-- A host reset of a kind (23 R496, R497, R500): every descriptor ends without a completion, everything that the host built
stops and is cleared, and what R497 keeps is kept. `training` says that readiness follows the link's training (R495). -/
def hostReset (s : State) (kind : Nat) (training : Bool) : State :=
  let s := forEach (s.cal.watches.map (·.1)) s fun id s => cancelWatch s id
  let s := { s with csq.slots := [], csq.ctxs := [], csq.awaiting := none, csq.inactive := {},
                    csq.patch := if s.csq.patch == .loaded then (if s.csq.active.words.isEmpty then .none else .active)
                      else s.csq.patch,
                    pmu := [], thm.therms := [], thm.fresh := [] }
  let s := { auxStop s Status.aborted with aux.flash := none, aux.script := [], aux.pageAt := none }
  let s := forEach (s.stg.image.filter fun p => tCls p.1 == 0x0C) s fun p s =>
    s.updIn (tIdx p.1 / 16) (tIdx p.1 % 16) fun x => { x with gates := (stampNow s, true) :: x.gates }
  let s := { s with stg.image := s.stg.image.filter fun p => tCls p.1 == 0x0A || tCls p.1 == 0x0B,
                    stg.sched := [], stg.dayBusy := s.stg.dayBusy.map fun b => (b.1, none),
                    grp.op := none, grp.worker := none, grp.fence := none, grp.rdyDrive := false, grp.rdyTest := none }
  let s := forEach (List.range 16) s fun k s => s.updSet k fun x => { applies := x.applies }
  let s := forEach (List.range 16) s fun e s => if (s.eng e).st == .running ||
    (s.eng e).ending.isSome then endEng s e Status.aborted .idle else s
  let s := forEach (List.range 512) s fun n s => resetChan s n
  let s := forEach (List.range 64) s fun n s => s.updLg n fun l => { scan := l.scan }
  let s := forEach (List.range 8) s fun n s => resetSector s n
  let s := forEach (List.range 256) s fun n s => s.updSite n fun x => { x with burst := none }
  let s := forEach (List.range 16) s fun n s => resetAwg (resetDig (clearTu s n) n) n
  let s := forEach (List.range 8) s fun n s => resetDcs s n
  { s with
    bursts := [], streams := [], host := resetHost s.host, mem.pattern := 0, mem.waveform := 0, mem.capture := 0, mem.stamp := 0,
    mem.down := [], mem.up := [], mem.host := 0, pwr.lastReset := kind, pwr.ready := false,
    pwr.atTraining := training, pwr.hostResets := incSat 32 s.pwr.hostResets }

/-- PERST_N_ASSERT (23 R496, R497): the link goes down, the patch RAM and match sets are emptied, and DDR5 that is out of
service is trained again. -/
def execPerstAssert (s : State) : Host.Outcome State Fault Refusal :=
  .next <|
    if s.pwr.perst then s
    else
      let s := hostReset s 1 true
      { s with
        pwr.perst := true, host.up := false, host.rate := 0, host.width := 0, host.flit := false,
        csq.active := {}, csq.patch := .none, csq.patchFailed := none,
        mem.st := if s.running && !s.stopped && s.mem.st == .outOfService then .training else s.mem.st }

/-- PERST_N_RELEASE samples SIZE of HIF_BAR4_CFG (13 R289). -/
def execPerstRelease (s : State) : Host.Outcome State Fault Refusal :=
  .next (if s.pwr.perst then { s with pwr.perst := false, host.bar4Size := s.host.bar4Next } else s)

/-- HOT_RESET, which comes over the link (23 R496). -/
def execHotReset (s : State) : Host.Outcome State Fault Refusal := .next (if s.host.up then hostReset s 2 false else s)

/-- FUNCTION_LEVEL_RESET, which comes over the link (23 R496). -/
def execFunctionLevelReset (s : State) : Host.Outcome State Fault Refusal := .next (if s.host.up then hostReset s 3 false else s)

/-- READY_AFTER_HOST_RESET: after a hot reset or an FLR the device becomes ready (23 R498). -/
def execReadyAfterHostReset (s : State) : Host.Outcome State Fault Refusal :=
  .next (if !s.pwr.atTraining && s.host.up && !s.pwr.perst && s.running then { s with pwr.ready := true } else s)

/-! ### The link (13 R286, R308; 23 R495) -/

/-- A write that waited is issued; a message whose vector has been masked since sets its pending bit (13 R286, R307). -/
def issueWaiting (m : HMsg) (s : State) : State :=
  match m with
  | .msi v _ _ => signal s v
  | _ => emit s m

/-- The writes that waited are issued, in order (13 R286). -/
def flushHost (s : State) : State :=
  if s.host.d3 || !s.host.up then s else forEach s.host.waiting { s with host.waiting := [] } issueWaiting

/-- A rate code and a width that a trained link can have (13 R308). -/
def linkOk (rate width : Nat) : Bool := 1 ≤ rate && rate ≤ 6 && (width == 1 || width == 2 || width == 4 || width == 8)

/-- LINK_UP: LINK_STATUS takes the trained rate and width, and STREAM_CAP follows; event 0x0481, and 0x0487 below 64 GT/s x8;
the writes that waited are issued before them, and the device may become ready (13 R286, R291, R308; 23 R495). Correctable errors
that AER reports of the training raise 0x0482 (log entry 70). The link stays down while PERST_N is asserted or the TAP drives
pins (25 R524). -/
def execLinkUp (rate width : BitVec 4) (flit : Bool) (aer : Word) (s : State) : Host.Outcome State Fault Refusal :=
  let r := rate.toNat
  let w := width.toNat
  .next <|
    if s.pwr.perst || s.tap.driving || !linkOk r w then s
    else
      let s := safePins s []
      let s := { s with
        host.up := true, host.rate := r, host.width := w, host.flit := flit || r == 6, host.aer := aer,
        pwr.ready := s.pwr.ready || (s.running && s.pwr.atTraining) }
      let s := event (flushHost s) 0x0481 (r + 16 * w)
      let s := if r == 6 && w == 8 then s else notice s 0x0487 (r + 16 * w)
      if aer == 0 then s else notice s 0x0482 aer.toNat

/-- LINK_DOWN: fetching and writes to the host stop, as in D3hot; event 0x0480 (13 R286, R308). -/
def execLinkDown (s : State) : Host.Outcome State Fault Refusal :=
  .next (if s.host.up then
      notice { s with host.up := false, host.rate := 0, host.width := 0, host.flit := false } 0x0480 0
    else s)

/-- ENTER_D3HOT (13 R286). -/
def execEnterD3hot (s : State) : Host.Outcome State Fault Refusal :=
  .next (if s.host.up then { s with host.d3 := true } else s)

/-- RETURN_TO_D0: fetching resumes and the waiting writes are issued (13 R286). -/
def execReturnToD0 (s : State) : Host.Outcome State Fault Refusal := .next (flushHost { s with host.d3 := false })

end Sys2Proof.Machine
end

