-- ==== Sys2Proof/Machine/MemCmd.lean ====
section
/-! DEFINITION. The patrol scrubber and MEM_CFG (21 R468, R469, R472, R473), and the test access port (25 R522 to R524). -/

namespace Sys2Proof.Machine

open Sys2Proof

/-! ### The patrol scrubber (21 R469) -/

/-- Beats that the scrubber meets as uncorrectable in a line: those it finds, and those known (21 R468, R469). -/
def scrubBeats (s : State) (line : Nat) (f : ScrubFind) : List Nat :=
  ((f.badBeats.filter (· < 16)).map (fun b => 16 * line + b) ++
    (s.mem.bad ++ s.mem.poison).filter fun b => b / 16 == line).eraseDups.mergeSort (· ≤ ·)

/-- An uncorrectable beat that the scrubber finds is poisoned in place and told by 0x0463, without other effect (21 R469; log
entry 38). -/
def poisonBeat (s : State) (b : Nat) : State :=
  let s := { s with mem.bad := s.mem.bad.filter (· != b),
                    mem.poison := if s.mem.poison.contains b then s.mem.poison else b :: s.mem.poison }
  notice s 0x0463 (b / 16)

/-- PATROL_SCRUB: the next line of the capacity is read, corrected and written back; the last line ends a pass (21 R469,
R472). -/
def execPatrolScrub (f : ScrubFind) (s : State) : Host.Outcome State Fault Refusal :=
  .next <|
    if !s.memUp then s
    else
      let line := s.mem.scrubLine
      let s := correctRead (countCorrected (takeUpsets s f.upsets) line f.corrected) (64 * line) 64
      let s := forEach (scrubBeats s line f) s fun b s => poisonBeat s b
      if line + 1 < s.mem.capacity * 2 ^ 24 then { s with mem.scrubLine := line + 1 }
      else
        let n := incSat 32 s.mem.scrubPasses
        event { s with mem.scrubLine := 0, mem.scrubPasses := n } 0x0465 n

/-- MEM_CFG as a number. -/
def memCfg (s : State) : Nat := s.mem.maxRate + 4 * s.mem.scrubHours

/-- A write of MEM_CFG; MAX_RATE acts at the next training (21 R473). -/
def memCfgWrite (s : State) (w : RegWrite) : State :=
  let v := (RegWrite.onto w (BitVec.ofNat 64 (memCfg s))).toNat
  let r := bits v 1 0
  let h := bits v 9 2
  if r == 3 || h == 0 || h > 168 then configRefused s (RegWrite.at' w 0x70008)
  else { s with mem.maxRate := r, mem.scrubHours := h }

/-- MEM_CFG_WRITE. -/
def execMemCfgWrite (w : RegWrite) (s : State) : Host.Outcome State Fault Refusal := .next (memCfgWrite s w)

/-! ### The test access port (25 R522 to R524) -/

/-- IDCODE (25 R523). -/
def idcode : BitVec 32 := BitVec.ofNat 32 (Config.stepping.toNat % 16 * 2 ^ 28 + 0x5120 * 2 ^ 12 + 0x2D7 * 2 + 1)

/-- `n` free values side by side, 64 bits each (log entry 3). -/
def freeBits : Nat → State → Nat × State
  | 0, s => (0, s)
  | n + 1, s =>
    let (v, s) := s.fresh
    let (r, s) := freeBits n s
    (v.toNat + 2 ^ 64 * r, s)

/-- The chain pins are sampled into the boundary register: the manual does not say which cell is which pin, so the sample is
free (25 R522; log entry 41). -/
def sampleChain (s : State) : State :=
  let (v, s) := freeBits 18 s
  { s with tap.boundary := BitVec.ofNat 1142 v }

/-- A pin-driving instruction becomes current: a hot reset, and the link goes down and stays down (25 R524). -/
def driveChain (s : State) (code : Byte) (selected : Nat) : State :=
  let s := if s.tap.ir == code then s
    else
      { hostReset s 2 true with host.up := false, host.rate := 0, host.width := 0, host.flit := false, host.d3 := false }
  { s with tap.ir := code, tap.driving := true, tap.selected := selected, tap.captured := 0 }

/-- An instruction that drives no pin becomes current: the link may train again (25 R524). -/
def quietChain (s : State) (code : Byte) (selected : Nat) (captured : BitVec 32) : State :=
  { s with tap.ir := code, tap.driving := false, tap.selected := selected, tap.captured := captured }

/-- EXTEST: the boundary register drives and samples the chain pins. -/
def execExtest (s : State) : Host.Outcome State Fault Refusal := .next (sampleChain (driveChain s 0x00 2))

/-- IDCODE. -/
def execIdcode (s : State) : Host.Outcome State Fault Refusal := .next (quietChain s 0x01 1 idcode)

/-- SAMPLE/PRELOAD: the chain pins are sampled; the device keeps control of them. -/
def execSamplePreload (s : State) : Host.Outcome State Fault Refusal := .next (sampleChain (quietChain s 0x02 2 0))

/-- CLAMP: outputs from the boundary register, bypass selected. -/
def execClamp (s : State) : Host.Outcome State Fault Refusal := .next (driveChain s 0x04 0)

/-- HIGHZ: chain outputs high-impedance, bypass selected. -/
def execHighz (s : State) : Host.Outcome State Fault Refusal := .next (driveChain s 0x05 0)

/-- EXTEST_PULSE, on the PCI Express lanes. -/
def execExtestPulse (s : State) : Host.Outcome State Fault Refusal := .next (driveChain s 0x06 2)

/-- EXTEST_TRAIN, on the PCI Express lanes. -/
def execExtestTrain (s : State) : Host.Outcome State Fault Refusal := .next (driveChain s 0x07 2)

/-- The codes of the instructions other than BYPASS (25 R522). -/
def tapCodes : List Byte := [0x00, 0x01, 0x02, 0x04, 0x05, 0x06, 0x07]

/-- BYPASS, or any code without an instruction of its own, which acts as BYPASS. -/
def execBypass (code : Byte) (s : State) : Host.Outcome State Fault Refusal :=
  .next (if tapCodes.contains code then s else quietChain s code 0 0)

/-- TEST_LOGIC_RESET: IDCODE is the current instruction (25 R522, R524). -/
def execTestLogicReset (s : State) : Host.Outcome State Fault Refusal := .next (quietChain s 0x01 1 idcode)

end Sys2Proof.Machine
end

