-- ==== Sys2Proof/Machine/RegRead.lean ====
section
/-! DEFINITION. What the registers of BAR0 read as, block by block, one aligned 8-byte word at a time (24 R501 to R511 and the
rules of each block); none where no register is defined. -/

namespace Sys2Proof.Machine

open Sys2Proof

/-! ### Packing -/

/-- A signed value as 32 bits. -/
def s32 (v : Int) : Nat := fromSigned 32 v

/-- The 8 bytes at byte `q` of a byte string, past its end 0. -/
def qwordOf (bs : List Byte) (q : Nat) : Nat := field bs q 8

/-- An array of items of 4 bytes: the two at quadword offset `off`. -/
def pair32 (off : Nat) (f : Nat → Nat) : Nat := pack [(32, f (off / 4)), (32, f (off / 4 + 1))]

/-- A level or current entry: effective value and code (24 R505). -/
def effEntry (eff code : Int) : Nat := pack [(32, s32 eff), (16, fromSigned 16 code)]

/-! ### GLB, HIF, EVT (24 R500, R504; 13 R289, R293, R305, R307, R308) -/

/-- The GLB block; GLB_SERIAL is the serial number in the control-die record (20 R440; its place: DESIGN CHOICE, log entry 11). -/
def glbRead (s : State) (off : Nat) : Option Nat :=
  match off with
  | 0x00 => some (pack [(16, 0x5120), (16, 0x5D7A), (8, Config.stepping.toNat)])
  | 0x08 => some (pack [(32, s32 (factoryVal s 0)), (32, s32 (factoryVal s 4))])
  | 0x10 => some s.tick.toNat
  | 0x20 => some (pack [(2, s.pwr.lastReset), (1, b2n s.pwr.ready), (5, 0), (1, b2n s.pwr.straps.keeper),
      (5, s.pwr.straps.groupId.toNat), (2, s.pwr.straps.sweepSrc.toNat), (16, 0), (32, s.pwr.hostResets)])
  | 0x28 => some s.pwr.scratch.toNat
  | _ => none

/-- The ring and register of a HIF offset (13 R293). -/
def ringAt (off : Nat) : Option (RingKind × Nat × Nat) :=
  if 0x1000 ≤ off && off < 0x3000 then some (.sq, (off - 0x1000) / 32, off % 32)
  else if 0x3000 ≤ off && off < 0x5000 then some (.cq, (off - 0x3000) / 32, off % 32)
  else if 0x5000 ≤ off && off < 0x5800 then some (.eq, (off - 0x5000) / 32, off % 32)
  else if 0x5800 ≤ off && off < 0x5C00 then some (.str, (off - 0x5800) / 32, off % 32)
  else none

/-- COUNT of a ring's STATUS (13 R293). -/
def ringCount (s : State) (k : RingKind) (n : Nat) : Nat :=
  let r := s.ring k n
  match k with
  | .sq => ((heldSlots s).filter fun p => p.2.ring == n).length
  | .cq => r.count
  | .eq => r.count
  | .str => r.staged.length

/-- STATUS of a ring (13 R293). -/
def ringStatus (s : State) (k : RingKind) (n : Nat) : Nat :=
  let r := s.ring k n
  let count := ringCount s k n
  let idle := r.cons == r.prod && (count == 0 || k == .eq || k == .str)
  let used := match k with
    | .sq => r.abortTo.isSome
    | .str => r.inUse
    | _ => false
  pack [(16, r.prod), (16, r.cons), (16, count), (1, b2n idle), (1, b2n used)]

/-- The HIF block. -/
def hifRead (s : State) (off : Nat) : Option Nat :=
  if off == 0x0000 then
    some (pack [(4, s.host.rate), (4, s.host.width), (1, b2n s.host.flit), (23, 0), (32, streamCap s)])
  else if off == 0x0008 then some (bar4Reg s)
  else if 0x8000 ≤ off then
    let v := (off - 0x8000) / 16
    some (if off % 16 == 0 then (Tab.get 0 s.host.msixAddr v).toNat
      else pack [(32, (Tab.get 0 s.host.msixData v).toNat), (1, b2n (!Tab.get false s.host.msixUnmasked v))])
  else if 0x7F00 ≤ off then
    some (pack ((List.range 64).map fun i => (1, b2n (Tab.get false s.host.msixPending (8 * (off - 0x7F00) + i)))))
  else match ringAt off with
    | some (k, n, 0x00) => some (s.ring k n).base.toNat
    | some (k, n, 0x08) => some (ringCtrl k (s.ring k n))
    | some (k, n, 0x10) => some (s.ring k n).shadow.toNat
    | some (k, n, 0x18) => some (ringStatus s k n)
    | _ => none

/-- EVT_ROUTE of an event ID (13 R305). -/
def routeReg (s : State) (i : Nat) : Nat :=
  let r := Tab.get 0 s.host.route i
  pack [(6, r), (2, 0), (1, r / 64)]

/-- The EVT block. -/
def evtRead (s : State) (off : Nat) : Option Nat := if off < 0x1800 then some (pair32 off (routeReg s)) else none

/-! ### FLT (18 R426) -/

/-- A history record as bytes (18 R419). -/
def histBytes (r : HistRec) : List Byte :=
  leBytes 4 r.seq ++ leBytes 2 r.source ++ leBytes 2 r.domain ++ leBytes 1 r.kind ++ leBytes 1 (r.classNow + 4 * r.classOpen) ++
    leBytes 1 r.phase ++ leBytes 1 r.merges ++ leBytes 4 r.recovery ++ leBytes 8 r.cause.toNat ++ leBytes 8 r.sweep.toNat

/-- The record in entry i of the history queue: entries are taken in turn (18 R426; log entry 42). -/
def histAt (s : State) (i : Nat) : Option HistRec := s.flt.hist.find? fun r => r.seq % 32 == i

/-- STATE of a recovery step (18 R426). -/
def stepCode : RecStep → Nat
  | .quiet _ => 2
  | .waiting _ _ => 3
  | .restoring _ => 4
  | .queued => 5

/-- FLT_DOMAIN_d (18 R426; log entry 42). -/
def domainReg (s : State) (d : Nat) : Nat :=
  if !domUsed d then 0
  else
    let n := Tab.get 0 s.flt.counts d
    match recOf s d with
    | some r => pack [(16, n), (3, stepCode r.step), (5, 0), (8, r.merges), (2, domClass r.domain)]
    | none =>
      if s.flt.isolated.contains d then pack [(16, n), (3, 6)]
      else if s.stopped then pack [(16, n), (3, 1)]
      else n

/-- FLT_ALIVE_s (18 R426). -/
def aliveReg (s : State) (n : Nat) : Nat :=
  let a := s.alive n
  pack [(3, a.char), (3, a.degraded), (2, 0), (7, a.period), (1, 0), (1, b2n a.frozen), (1, b2n (aliveLevel s n))]

/-- DEV_SAFE_P/N reads (1,0) (18 R426; 22 R483). -/
def safeNow (s : State) : Bool := devSafePins s == .safe

/-- The FLT block. -/
def fltRead (s : State) (off : Nat) : Option Nat :=
  if off == 0x0000 then
    some (pack [(3, phaseCode s.flt.phase), (1, b2n (safeNow s)), (1, b2n s.flt.awgClr), (5, runningRecs s),
      (10, s.flt.recs.length - runningRecs s), (12, 0), (32, s.flt.device)])
  else if off == 0x0008 then some (s.flt.quietUs % 1024)
  else if 0x0100 ≤ off && off < 0x0140 then some (aliveReg s ((off - 0x100) / 8))
  else if off == 0x0200 then
    let q := match s.flt.hist.getLast? with
      | some r => r.seq
      | none => 0
    some (pack [(5, q), (6, s.flt.hist.length), (1, b2n s.flt.frozen), (20, 0), (32, q)])
  else if 0x1000 ≤ off && off < 0x1400 then
    some (match histAt s ((off - 0x1000) / 32) with
      | some r => qwordOf (histBytes r) (off % 32)
      | none => 0)
  else if 0x2000 ≤ off && off < 0x4000 then some (domainReg s ((off - 0x2000) / 8))
  else none

/-! ### THM, CLK (19 R438; 20 R450; 02 R43) -/

/-- THM_SENSOR_n (19 R438). -/
def sensorReg (s : State) (n : Nat) : Nat :=
  let x := s.sensor n
  let age := match x.endAt with
    | some t => satTo 32 ((s.now - t) / usTicks)
    | none => 2 ^ 32 - 1
  pack [(16, fromSigned 16 x.temp), (1, b2n x.valid), (1, b2n x.broken), (1, b2n x.noQuiet), (2, x.level), (11, 0), (32, age)]

/-- The THM block. -/
def thmRead (s : State) (off : Nat) : Option Nat :=
  if off == 0x0000 then
    some (pack [(1, b2n (s.thm.sensors.any fun p => p.2.level ≥ 1)), (1, b2n (throttled s)), (1, b2n s.thm.overNow),
      (1, b2n (s.thm.sensors.any fun p => p.2.broken)), (16, s.thm.pending), (12, 0), (32, s.thm.forced)])
  else if off == 0x0008 then some (s.thm.maxMs % 128)
  else if off == 0x0010 then some 0
  else if 0x0100 ≤ off && off < 0x0180 then some (sensorReg s ((off - 0x100) / 8))
  else if 0x0200 ≤ off && off < 0x0280 then some (thmLimit (s.sensor ((off - 0x200) / 8)))
  else none

/-- REF_STATE codes (20 R450). -/
def refCode : RefSt → Nat
  | .crystal => 0
  | .acquiring => 1
  | .locked => 2
  | .holdover => 3

/-- SOURCE codes (02 R28). -/
def sourceCode : SweepSource → Nat
  | .time => 0
  | .group => 1
  | .angle => 2

/-- STATE codes of SWEEP_STATUS (02 R43). -/
def sweepCode : SweepState → Nat
  | .running => 0
  | .holdover => 1
  | .noSync => 2
  | .lost => 3
  | .held => 4

/-- The CLK block. -/
def clkRead (s : State) (off : Nat) : Option Nat :=
  match off with
  | 0x0000 => some (pack [(32, s32 s.cal.xtalAge), (32, s32 s.cal.ageRate)])
  | 0x0008 => some (pack [(2, s.cal.refSel), (3, refCode s.cal.refSt), (27, 0), (32, s.cal.refUnc)])
  | 0x0100 => some s.sweep.pos.toNat
  | 0x0108 => some (pack [(2, sourceCode s.sweep.source), (3, sweepCode s.sweep.st), (10, s.stg.sched.length), (1, 0),
      (16, satTo 16 s.sweep.resync)])
  | 0x0110 => some s.sweep.origin.toNat
  | 0x0118 => some (pack [(32, satTo 32 s.sweep.lastTicks), (32, s.sweep.teeth)])
  | _ => none

/-! ### GRP (16 R383) -/

/-- OP_KIND (16 R383). -/
def opKind (s : State) : Nat :=
  match s.grp.op with
  | some o => o.kind
  | none => if s.grp.worker.isSome then 1 else if s.grp.fence.isSome then 3 else 0

/-- GRP_EPOCH_CTRL; 0 on a worker (16 R383). -/
def epochCtrl (s : State) : Nat :=
  if s.grp.keeper then pack [(1, b2n s.grp.epochArm), (1, b2n s.grp.epochEdge), (14, 0), (24, s.grp.epochDelay)] else 0

/-- The GRP block. -/
def grpRead (s : State) (off : Nat) : Option Nat :=
  if off == 0x0000 then
    some (pack [(1, b2n s.grp.keeper), (5, s.grp.groupId), (1, b2n (s.grp.keeper || (s.grp.aligned && !s.grp.realign))),
      (1, b2n (s.grp.rdyN || drivesRdy s)), (1, b2n (s.grp.gfltN || drivesGflt s)), (1, b2n (drivesGflt s)), (3, opKind s),
      (3, 0), (32, if s.grp.keeper then s.grp.roster else 0),
      (16, satTo 16 s.grp.frameErrors)])
  else if 0x0108 ≤ off && off < 0x0200 then
    some (match Tab.get none s.grp.delays ((off - 0x100) / 8) with
      | some (b, l) => pack [(24, b), (24, l), (15, 0), (1, 1)]
      | none => 0)
  else match off with
    | 0x0200 => some (epochCtrl s)
    | 0x0208 => some s.grp.epochPos.toNat
    | 0x0210 => some s.grp.epochTick.toNat
    | _ => none

/-! ### MEM, CSQ, STG, DAY (21 R473; 17 R402; 15 R355, R360, R361) -/

/-- STATE codes of MEM_STATUS (21 R473). -/
def memCode : MemSt → Nat
  | .training => 0
  | .inService => 1
  | .outOfService => 2
  | .recovery => 3

/-- MEM_REGION_r: its first word, then its second (21 R473). -/
def regionReg (s : State) (r : Nat) (second : Bool) : Nat :=
  let (t, b, z) := regionOf s.stg.image r
  if second then z
  else t + 8 * b2n ((rangesInUse s).any fun u => overlap b z u.1 u.2) + b

/-- The MEM block. -/
def memRead (s : State) (off : Nat) : Option Nat :=
  if off == 0x0000 then
    some (pack [(2, memCode s.mem.st), (2, s.mem.rate), (1, b2n s.mem.ranks2), (2, s.mem.density), (9, 0),
      (16, if s.memUp then s.mem.capacity else 0), (32, s.mem.scrubPasses)])
  else if off == 0x0008 then some (memCfg s)
  else if 0x0100 ≤ off && off < 0x0120 then
    let c := s.memChan ((off - 0x100) / 16)
    some (if off % 16 == 0 then pack [(32, c.corrected), (32, c.uncorrected)]
      else match c.lastUe with
        | some a => a % 2 ^ 37 + 2 ^ 63
        | none => 0)
  else if 0x0200 ≤ off && off < 0x0600 then some (regionReg s ((off - 0x200) / 16) (off % 16 == 8))
  else none

/-- STATE codes of CSQ_PATCH (17 R402). -/
def patchCode : PatchSt → Nat
  | .none => 0
  | .loaded => 1
  | .active => 2
  | .dropped => 3

/-- A match entry (17 R399). -/
def matchReg (m : MatchReg) : Nat := m.rom + 2 ^ 16 * m.patch + 2 ^ 32 * m.len + 2 ^ 63

/-- CTX7 holds a routine: a fault reaction, a thermal conversion, a forced check or the safe state (17 R384). -/
def reacts (s : State) : Bool :=
  (s.ctx 7).busy || !s.thm.running.isEmpty || s.cal.checks.any (fun p => p.2.any fun c => c.slot.isNone) || s.stopped ||
    s.flt.recs.any fun r => match r.step with
      | .restoring _ => true
      | _ => false

/-- The CSQ block. -/
def csqRead (s : State) (off : Nat) : Option Nat :=
  if off == 0x0000 then
    let bit (f : Ctx → Bool) : Nat := pack ((List.range 8).map fun c => (1, b2n (f (s.ctx c))))
    some (pack [(8, bit (fun x => x.busy) ||| 128 * b2n (reacts s)), (8, bit fun x => !x.frames.isEmpty), (13,
      (parkedSlots s).length), (3, 0),
      (16, satTo 16 s.csq.machineChecks)])
  else if 0x0100 ≤ off && off < 0x0140 then some (Tab.get 0 s.csq.epochs ((off - 0x100) / 8))
  else if off == 0x0200 then
    let b := s.csq.active
    some (pack [(2, patchCode s.csq.patch), (6, 0), (6, b.matchSet.length), (2, 0), (11, b.words.length), (5, 0), (32, b.level)])
  else if off == 0x0208 then some Config.romId.toNat
  else if 0x0300 ≤ off && off < 0x0400 then
    some (match s.csq.active.matchSet[(off - 0x300) / 8]? with
      | some m => matchReg m
      | none => 0)
  else none

/-- STATE codes of a staged set (15 R355). -/
def setCode : SetSt → Nat
  | .free => 0
  | .opened => 1
  | .pending => 2

/-- The STG block. -/
def stgRead (s : State) (off : Nat) : Option Nat :=
  if 0x0100 ≤ off && off < 0x0180 then
    let x := s.set ((off - 0x100) / 8)
    some (pack [(2, setCode x.st), (6, 0), (8, x.owner), (13, x.recs.length), (3, 0), (32, x.applies)])
  else none

/-- Eight bytes of a daymark bank (15 R361). -/
def bankQword (b : Bank) (q : Nat) : Nat :=
  if q == 0 then pack [(32, b.seq), (8, b.st)]
  else if q == 8 then b.pos.toNat
  else if q == 16 then b.tick.toNat
  else (b.counters.filter fun c => q ≤ c.1 && c.1 < q + 8).foldl (fun n c => n + c.2.2 % 256 ^ c.2.1 * 256 ^ (c.1 - q)) 0

/-- The DAY block. -/
def dayRead (s : State) (off : Nat) : Option Nat :=
  if off == 0x0000 then
    some (pack [(1, s.stg.lastBank), (1, b2n s.stg.dayBusy.isSome), (1, b2n s.stg.dayDone), (29, 0), (32, s.stg.lastSeq)])
  else if 0x1000 ≤ off && off < 0x8000 then some (bankQword s.stg.bank0 (off - 0x1000))
  else if 0x9000 ≤ off then some (bankQword s.stg.bank1 (off - 0x9000))
  else none

/-! ### AUX, MNT, LED (22 R479, R489; 20 R461) -/

/-- The AUX block. -/
def auxRead (s : State) (off : Nat) : Option Nat :=
  match off with
  | 0x0000 =>
    let bits := match s.aux.busy with
      | some r => auxShifted s r
      | none => s.aux.bits
    let sel := match s.aux.busy with
      | some r => r.sel
      | none => s.aux.sel
    some (pack [(1, b2n s.aux.busy.isSome), (4, sel), (1, b2n s.aux.flash.isSome), (10, 0), (16, satTo 16 bits), (32, s.aux.transfers)])
  | 0x0008 => some (auxCfg s)
  | _ => none

/-- The MNT block. -/
def mntRegs (s : State) (off : Nat) : Option Nat :=
  match off with
  | 0x0000 => some (pack [(16, s.mnt.cntAborted), (16, s.mnt.cntCrc), (16, s.mnt.cntNotReady), (16, s.mnt.cntBadCmd)])
  | 0x0008 => some (pack [(32, s.mnt.reads), (32, s.mnt.writes)])
  | _ => none

/-- The LED block. -/
def ledRead (s : State) (off : Nat) : Option Nat :=
  match off with
  | 0x0000 =>
    some (pack [(14, min 16383 (s.cal.ledger.filter fun p => p.2.oom).length), (1, b2n !s.cal.plan.isEmpty),
      (1, b2n (s.ledger 0x2050).oom), (16, s.cal.overlay.length), (32, s.cal.forced)])
  | 0x0008 => some s.cal.watchMax
  | 0x0010 => some (pack [(32, s.cal.refV), (32, s.cal.refVUnc)])
  | _ => none

/-! ### DCS, TRG (11 R255; 24 R510, R511) -/

/-- A frequency in mHz: exact where it is a whole number, else rounded by a value that the manual leaves open (24 R510). -/
def wholeFreq (n d : Nat) : Nat := n / d + (if n % d != 0 && Config.freqUp n d then 1 else 0)

/-- STATE codes of a synthesizer (11 R255). -/
def dcsCode : DcsSt → Nat
  | .gated => 0
  | .locking => 1
  | .running => 2
  | .ramping => 3
  | .contained => 4

/-- DCS_STATUS (11 R255). -/
def dcsStatus (s : State) (n : Nat) : Nat :=
  let d := s.dcs n
  pack [(3, dcsCode d.st), (1, b2n d.locked), (1, b2n d.refOk), (11, 0), (14, d.nNow), (2, 0), (6, d.point), (10, 0),
    (16, satTo 16 d.unlocks)]

/-- DCS_APPLIED (24 R510). -/
def dcsApplied (s : State) (n : Nat) : Nat :=
  let g (p : Nat) : Nat := s.settingN 9 n p
  pack [(7, g 1), (14, g 2), (11, g 3), (3, g 4), (1, g 5), (1, g 6), (16, g 7)]

/-- DCS_FREQ (24 R510). -/
def dcsFreq (s : State) (n : Nat) (out : Bool) : Nat :=
  let g (p : Nat) : Nat := s.settingN 9 n p
  if out then wholeFreq (50000000000 * g 2) (g 1 * g 3) else wholeFreq (50000000000 * g 2) (g 1)

/-- The DCS block. -/
def dcsRead (s : State) (off : Nat) : Option Nat :=
  if 0x0100 ≤ off && off < 0x0180 then
    let n := (off - 0x100) / 16
    some (if off % 16 == 0 then dcsStatus s n else dcsApplied s n)
  else if 0x0200 ≤ off && off < 0x0280 then some (dcsFreq s ((off - 0x200) / 16) (off % 16 == 8))
  else if 0x1000 ≤ off && off < 0x2000 then
    some (match (s.dcs ((off - 0x1000) / 512)).profile[off % 512 / 8]? with
      | some (t, d) => pack [(16, t), (16, 0), (32, d)]
      | none => 0)
  else none

/-- The group of a trigger unit (24 R511): PENDING shows the starts that no clearing of 09 R197 has passed. -/
def tuReg (s : State) (u : Nat) (r : Nat) : Nat :=
  let x := s.tu u
  match r with
  | 0x00 => pack [(32, x.firings), (32, x.suppressed)]
  | 0x08 => pack ([(32, x.coincident), (1, s.settingN 8 u 1), (1, b2n x.holdoff.isSome)] ++
      (List.range 4).map fun m =>
        let k := Tab.get {} x.slots m
        (1, b2n (k.start.any fun t0 => stillCounts k.cut t0 (stampNow s))))
  | 0x10 => pack [(48, x.lastG)]
  | _ => 0

/-- An applied setting of a trigger unit, times in stamp units (24 R511). -/
def tuSetting (s : State) (u q : Nat) : Option Nat :=
  if 1 ≤ q && q ≤ 12 then some (if q == 4 then (stampUnits (s.setting 8 u 4)).toNat else s.settingN 8 u q)
  else if 16 ≤ q && q < 48 && q % 8 ≤ 5 then
    let p := 0x100 + 16 * ((q - 16) / 8) + q % 8
    some (if q % 8 ≥ 4 then (stampUnits (s.setting 8 u p)).toNat else s.settingN 8 u p)
  else none

/-- The TRG block. -/
def trgRead (s : State) (off : Nat) : Option Nat :=
  if 0x0100 ≤ off && off < 0x0300 then some (tuReg s ((off - 0x100) / 32) (off % 32))
  else if 0x1000 ≤ off && off < 0x3000 then tuSetting s ((off - 0x1000) / 512) (off % 512 / 8)
  else none

/-! ### Sequencer pages (24 R506) -/

/-- State codes of a sequencer (06 R108). -/
def seqStCode : SeqSt → Nat
  | .idle => 0
  | .armed => 1
  | .running => 2
  | .padding => 3
  | .waiting => 4
  | .draining => 5
  | .held => 6

/-- SEQ_STATUS; a burst of one sector shows that sector as leader and mask, though it runs no lock of 06 R123 (24 R506; DESIGN
CHOICE: the manual does not say what the two fields then show; log entry 12). -/
def seqStatus (s : State) (n : Nat) (stale : Bool) : Nat :=
  let x := s.sec n
  let b := burstOf s n
  let mask := (b.map Burst.mask).getD 0
  let jump := b.bind Burst.jump
  pack [(3, seqStCode x.st), (1, b2n (popcount 8 mask ≥ 2)), (3, (b.map leaderOf).getD 0), (1, b2n stale), (8, mask),
    (4, x.calls.length), (3, x.loops.length), (1, b2n jump.isSome), (10, x.seg),
    (10, match jump with
      | some j => j.target
      | none => 0)]

/-- Effective edge steps of a timing parameter (04 R73). -/
def tsReg (s : State) (ts p : Nat) : Nat := (stepsOf (s.setting 4 ts p)).toNat

/-- A word of the view window: D0, D1, D2, D3, C0, C1, B0, B1, with FORMAT beside D0 (24 R506). -/
def viewWord (s : State) (ts c k : Nat) : Nat :=
  let p := 0x400 + 16 * c
  pack [(29, tsReg s ts (p + 1 + k)), (3, if k == 0 then s.settingN 4 ts p else 0)]

/-- A directory entry of a sector, its first or second quadword (24 R506). -/
def segReg (s : State) (n seg : Nat) (second : Bool) : Nat :=
  match segOf s n seg with
  | some g => if second then g.base else pack [(2, g.kind), (1, b2n g.refused), (1, b2n g.stallSafe), (28, 0), (32, g.len)]
  | none => 0

/-- Deskews of a channel in its sector's page (24 R506). -/
def deskewReg (s : State) (ch : Nat) (second : Bool) : Nat :=
  let d (p : Nat) : Nat := s32 (stepsOf (s.setting 1 ch p))
  if second then pack [(32, d 0x103), (32, d 0x206)] else pack [(32, d 0x101), (32, d 0x102)]

/-- The first words of a sequencer page (24 R506). -/
def seqHead (s : State) (n off : Nat) (stale : Bool) : Option Nat :=
  let x := s.sec n
  let wg (f : WinGen → Bool) : Nat := pack ((List.range 4).map fun g => (1, b2n (f (s.wg n g))))
  match off with
  | 0x00 => some (seqStatus s n stale)
  | 0x08 => some (pack [(48, x.vecNum)])
  | 0x10 => some (pack [(32, x.off)])
  | 0x18 => some x.pos0.toNat
  | 0x20 => some (pack [(32, x.stallVectors), (16, x.underruns), (16, x.waitLate)])
  | 0x28 => some (pack [(10, x.buf.length), (6, 0), (10, x.refillMin), (6, 0), (32, x.ignoredStarts)])
  | 0x30 => some (pack [(32, x.wgSkipped), (4, wg fun g => g.armed.isSome), (4, wg fun g => g.isOpen)])
  | _ => none

/-- A sequencer page, with the view of the reading path. -/
def seqRead (s : State) (n off : Nat) (stale : Bool) (view : Nat) : Option Nat :=
  let x := s.sec n
  if off < 0x40 then seqHead s n off stale
  else if off < 0x80 then
    some (match x.calls.reverse[(off - 0x40) / 8]? with
      | some f => pack [(32, f.off), (10, f.seg), (3, f.loopDepth)]
      | none => 0)
  else if off < 0xC0 then none
  else if off < 0xE0 then
    some (match x.loops.reverse[(off - 0xC0) / 8]? with
      | some l => pack [(24, l.count), (24, l.iter), (1, b2n l.isMatch)]
      | none => 0)
  else if off == 0xE0 then some view
  else if off < 0x100 then none
  else if off < 0x200 then some (pair32 (off - 0x100) fun k => s.settingN 3 n (0x100 + k))
  else if off < 0x400 then some (s.settingN 3 n (0x200 + (off - 0x200) / 8))
  else if off < 0x800 then none
  else if off < 0x900 then some (pair32 (off - 0x800) fun k => tsReg s (64 * n + k) 1)
  else if off < 0xC00 then none
  else if off < 0x1000 then some (deskewReg s (64 * n + (off - 0xC00) / 16) (off % 16 == 8))
  else if off < 0x3000 then
    some (match x.siteRecs.find? fun p => p.1 == (off - 0x1000) / 32 with
      | some p => qwordOf p.2 (off % 32)
      | none => 0)
  else if off < 0x3400 then
    some (pair32 (off - 0x3000) fun i => match burstOf s n with
      | some b => if leaderOf b == n then (sitePart s b i).failCount else 0
      | none => 0)
  else if off < 0x4000 then none
  else if off < 0x8000 then some (segReg s n ((off - 0x4000) / 16) (off % 16 == 8))
  else if off < 0x10000 then none
  else if off < 0x10800 then some (pair32 (off % 32) fun k => viewWord s (64 * n + view) ((off - 0x10000) / 32) k)
  else none

/-! ### Channel pages (24 R505) -/

/-- States of a channel (24 R505). -/
def chanCode : ChanSt → Nat
  | .hold => 0
  | .idle => 1
  | .active => 2
  | .pmu => 3
  | .isolated => 4

/-- CHN_STATE (24 R505). -/
def chnState (s : State) (n : Nat) (stale : Bool) : Nat :=
  let c := s.chan n
  let oom := (List.range 11).any fun k => (s.ledger (16 * n + k)).oom
  let routed := (List.range 16).any fun a => (s.awg a).routed && routeOf s.stg.image a == some n
  pack [(3, chanCode c.st), (2, classOf c), (1, b2n c.latch), (4, c.flags.toNat), (1, b2n c.armed), (8, c.site.getD 0),
    (1, b2n c.site.isNone), (1, b2n oom), (1, b2n routed), (1, b2n stale), (9, 0), (16, c.slips), (16, c.truncs)]

/-- CHN_CFG (24 R505). -/
def chnCfg (s : State) (n : Nat) : Nat :=
  let g (p : Nat) : Nat := s.settingN 1 n p
  pack [(2, g 1), (2, g 0x00B), (2, g 0x00C), (1, g 0x00D), (1, g 0x00E), (1, g 0x010), (3, g 0x011), (3, g 0x012), (1, g 0x013),
    (16, g 7), (8, s.settingN 2 (n / 8) 1)]

/-- The entry of a level (24 R505). -/
def levelEntry (v : Int) : Nat := effEntry (levelUv (levelCode v)) (levelCode v)
/-- The entry of a load current (24 R505). -/
def loadEntry (v : Int) : Nat := effEntry (loadNa (loadCode v)) (loadCode v)

/-- An effective current of the PPMU's range (08 R168, R169). -/
def effForce (v : Int) (fs : Nat) : Int := forceNa (forceCode v fs) fs

/-- The parametric part of a channel page (24 R505). -/
def chnPmu (s : State) (n off : Nat) : Option Nat :=
  let c := s.chan n
  let fs := pmuFs (s.settingN 1 n 0x302)
  match off with
  | 0xC0 =>
    let runs := match (s.lg (n / 8)).item with
      | some (id, i) => itemChan (pmuItem s id i) == n
      | none => false
    some (pack [(2, s.settingN 1 n 0x301), (3, s.settingN 1 n 0x302), (1, b2n runs)])
  | 0xC8 => some (levelEntry (s.setting 1 n 0x303))
  | 0xD0 => some (effEntry (effForce (s.setting 1 n 0x304) fs) (forceCode (s.setting 1 n 0x304) fs))
  | 0xD8 => some (pack [(32, s32 (effForce (min (s.setting 1 n 0x305) fs) fs)),
      (32, s32 (effForce (max (s.setting 1 n 0x306) (-(fs : Int))) fs))])
  | 0xE0 => some (pack [(32, s32 (levelUv (levelCode (s.setting 1 n 0x307)))),
      (32, s32 (levelUv (levelCode (s.setting 1 n 0x308))))])
  | 0xE8 => some c.meas.toNat
  | 0xF0 => some c.measPos.toNat
  | _ => none

/-- A channel page. -/
def chnRead (s : State) (n off : Nat) (stale : Bool) : Option Nat :=
  let c := s.chan n
  let g (p : Nat) : Nat := s.settingN 1 n p
  match off with
  | 0x00 => some (chnState s n stale)
  | 0x08 => some (chnCfg s n)
  | 0x10 => some (levelEntry (s.setting 1 n 2))
  | 0x18 => some (levelEntry (s.setting 1 n 3))
  | 0x20 => some (levelEntry (s.setting 1 n 4))
  | 0x28 => some (levelEntry (s.setting 1 n 5))
  | 0x30 => some (levelEntry (s.setting 1 n 6))
  | 0x38 => some (levelEntry (s.setting 1 n 0xA))
  | 0x40 => some (loadEntry (s.setting 1 n 8))
  | 0x48 => some (loadEntry (s.setting 1 n 9))
  | 0x50 => some (pack [(2, g 0x201), (4, g 0x202), (12, g 0x203), (1, g 0x204), (2, g 0x205)])
  | 0x80 => some (pack [(64, c.stamps)])
  | 0x88 => some (pack [(32, c.holdSuppressed), (32, c.deadMissed)])
  | 0x90 => some (pack [(32, c.outsideWindow), (32, c.lostStamps)])
  | 0x98 => some (pack [(8, c.queue.length), (8, c.queuePeak)])
  | 0xA0 => some (match streamOf s n with
      | some k => pack [(4, k), (1, 1)]
      | none => 0)
  | 0xA8 => some (pack [(32, c.wrOff), (32, c.wraps)])
  | _ => chnPmu s n off

/-! ### Waveform and digitizer pages (24 R507, R508) -/

/-- States of a source (10 R230). -/
def awgCode : AwgSt → Nat
  | .idle => 0
  | .armed => 1
  | .running => 2
  | .waiting => 3
  | .holding => 4
  | .cleared => 5
  | .isolated => 6

/-- Effective full scale of a source, nA (10 R220). -/
def awgFsNa (code : Int) : Int := 2000000 + roundDiv (code * 18000000) 4095

/-- The status word of an AWG page (24 R507). -/
def awgStatus (s : State) (n : Nat) (stale : Bool) : Nat :=
  let a := s.awg n
  let target := match a.jump with
    | some j => j.target.getD 0
    | none => 0
  pack [(3, awgCode a.st), (1, s.settingN 6 n 1), (12, a.entry), (12, target), (1, b2n a.jump.isSome), (1, b2n s.flt.awgClr),
    (1, b2n stale), (1, 0), (24, a.reps)]

/-- An AWG page. -/
def awgRead (s : State) (n off : Nat) (stale : Bool) : Option Nat :=
  let a := s.awg n
  let g (p : Nat) : Nat := s.settingN 6 n p
  let i16 (p : Nat) : Nat := fromSigned 16 (s.setting 6 n p)
  if 0x4000 ≤ off && off < 0x8000 then
    some (match awgSegOf a ((off - 0x4000) / 16) with
      | some e => if off % 16 == 8 then e.base else pack [(2, e.kind), (30, 0), (32, e.len)]
      | none => 0)
  else if 0x8000 ≤ off then some (entryOf a ((off - 0x8000) / 8)).toNat
  else match off with
    | 0x00 => some (awgStatus s n stale)
    | 0x08 =>
      let code := awgFsCode (s.setting 6 n 2)
      some (pack [(32, s32 (awgFsNa code)), (12, code.toNat), (2, g 3), (1, g 4), (7, g 5), (1, g 7), (1, g 0x12)])
    | 0x10 => some (pack [(16, i16 6), (3, g 8), (3, g 9), (8, g 0xA), (4, g 0xB), (1, g 0xC), (3, g 0xD)])
    | 0x18 => some (pack [(48, ddsFtw (s.setting 6 n 0xE)), (16, g 0xF)])
    | 0x20 => some (pack [(16, g 0x10), (16, i16 0x11)])
    | 0x40 => some (pack [(64, a.repetitions)])
    | 0x48 => some (pack [(32, a.marks), (32, a.ignored)])
    | 0x50 => some (pack [(16, a.underruns), (16, 0), (32, underSamplesNow s a)])
    | 0x58 => some (pack [(32, a.routeBlocked)])
    | _ => none

/-- States of an acquisition (09 R212). -/
def acqCode : AcqSt → Nat
  | .idle => 0
  | .armed => 1
  | .running => 2
  | .post => 3

/-- Code of a digitizer's OFFSET (09 R187). -/
def digOffCode (v : Int) : Int := roundDiv ((v + 5000000) * 65535) 12000000
/-- Effective OFFSET of a code, to the nearest microvolt (09 R187). -/
def digOffUv (code : Int) : Int := roundDiv (code * 12000000 - 5000000 * 65535) 65535

/-- A digitizer page. -/
def digRead (s : State) (n off : Nat) (stale : Bool) : Option Nat :=
  let d := s.dig n
  let g (p : Nat) : Nat := s.settingN 7 n p
  let flow (f : Flow) : Nat := pack [(2, f.dest), (1, b2n f.ringMode), (5, f.str), (24, 0), (32, f.blockSeq)]
  match off with
  | 0x00 => some (pack [(2, acqCode d.acq), (1, b2n d.raw.isOpen), (1, b2n d.dec.isOpen), (1, g 1), (7, g 2), (2, g 3), (5, g 5),
      (1, b2n d.lo), (1, b2n d.hi), (1, b2n d.test.isSome), (1, b2n stale)])
  | 0x08 => some (effEntry (digOffUv (digOffCode (s.setting 7 n 4))) (digOffCode (s.setting 7 n 4)))
  | 0x10 => some (pack [(16, fromSigned 16 (s.setting 7 n 6)), (16, fromSigned 16 (s.setting 7 n 7)), (13, g 8)])
  | 0x18 => some (pack [(48, d.g0)])
  | 0x20 => some (flow d.raw)
  | 0x28 => some (pack [(64, d.raw.lostTotal)])
  | 0x30 => some (flow d.dec)
  | 0x38 => some (pack [(64, d.dec.lostTotal)])
  | 0x40 => some (pack [(64, d.kept)])
  | 0x48 => some (pack [(64, d.lostSamples)])
  | 0x50 => some (pack [(32, d.gaps), (32, d.lostMarks)])
  | 0x58 => some (pack [(32, d.maskTests), (32, d.maskViolations)])
  | 0x60 => some (pack [(32, d.maskIgnored)])
  | 0x68 => some 0
  | 0x70 => some 0
  | 0x78 => some 0
  | _ => none

/-! ### Engine pages (24 R509) -/

/-- States of an engine (24 R509). -/
def engCode : EngSt → Nat
  | .idle => 0
  | .running => 1
  | .contained => 2

/-- The binding word of a port (24 R509; 12 R278, R281). -/
def bindReg (s : State) (e i : Nat) : Nat :=
  let gate := s.settingN 12 (16 * e + i) 1
  if i < 8 then
    let p := s.inPort e i
    pack [(8, p.kind), (8, p.sel), (8, p.mode), (1, gate), (7, 0), (11, p.words.length)]
  else
    let p := s.outPort e (i - 8)
    pack [(8, p.kind), (8, b2n p.ringMode), (8, p.str), (1, gate), (7, 0), (11, p.words.length)]

/-- The first words of an engine page (24 R509). -/
def engHead (s : State) (e off : Nat) : Option Nat :=
  let x := s.eng e
  let w (i : Nat) : Nat := (x.w.getD i 0).toNat
  let r16 (l : List (BitVec 16)) (i : Nat) : Nat := pack ((List.range 4).map fun j => (16, (l.getD (4 * i + j) 0).toNat))
  let lost (i : Nat) : Nat := (s.inPort e i).lost
  if off == 0x00 then
    some (pack [(2, engCode x.st), (1, b2n (throttled s)), (13, 0), (14, x.pc), (2, 0), (32, x.stReg.toNat)])
  else if off == 0x08 then some (pack [(32, x.lc.toNat), (4, x.calls.length)])
  else if off < 0x30 then some (pair32 (off - 0x10) w)
  else if off < 0x40 then some (r16 x.p ((off - 0x30) / 8))
  else if off < 0x50 then some (r16 x.s ((off - 0x40) / 8))
  else if off < 0x60 then some (r16 x.q ((off - 0x50) / 8))
  else if off < 0x70 then some (r16 x.b ((off - 0x60) / 8))
  else if off < 0x80 then none
  else if off < 0x100 then
    some (match off with
      | 0x80 => x.cycles % 2 ^ 64
      | 0x88 => x.stalls % 2 ^ 48
      | 0x90 => pack [(32, x.limitFails), (32, x.guardFails)]
      | 0xB8 => pack [(32, x.outLost), (32, x.discarded)]
      | 0xC0 => pack [(16, x.eccCorrected)]
      | o => if o < 0xB8 then pair32 (o - 0x98) lost else 0)
  else if off < 0x160 then some (bindReg s e ((off - 0x100) / 8))
  else none

/-- Memory k of an engine holds an uncorrectable error in word a, which then reads 0 (24 R509). -/
def engBadWord (x : Engine) (k a : Nat) : Bool := x.bad.contains (k, a)

/-- An engine page. -/
def engRead (s : State) (e off : Nat) : Option Nat :=
  let x := s.eng e
  if off < 0x10000 then engHead s e off
  else if off < 0x11000 then
    let i := (off - 0x10000) / 16
    some (if engBadWord x 3 i then 0 else qwordOf (Tab.get [] x.limits i) (off % 16))
  else if off < 0x20000 then none
  else if off < 0x40000 then
    let a := (off - 0x20000) / 8
    some (if engBadWord x 0 a then 0 else (Tab.get haltWord x.code a).toNat)
  else if off < 0x60000 then
    some (pair32 (off - 0x40000) fun a => if engBadWord x 1 a then 0 else (Tab.get 0 x.u a).toNat)
  else some (pair32 (off - 0x60000) fun a => if engBadWord x 2 a then 0 else (Tab.get 0 x.v a).toNat)

/-! ### CAL (20 R440, R441, R444) -/

/-- Four bytes of a record, its CRC apart; a channel record begins with the channel's number (20 R440, R441). -/
def calWord (s : State) (r o : Nat) : Nat :=
  let v := s32 (factoryVal s (recordBase r + o))
  if o == 0 && r < 512 then r + 2 ^ 16 * (v / 2 ^ 16) else v

/-- Four bytes of a record (20 R439, R441). -/
def calRecWord (s : State) (r o : Nat) : Nat :=
  if o == 0x3FC then crc32 ((List.range 255).flatMap fun i => leBytes 4 (calWord s r (4 * i)))
  else calWord s r o

/-- The record that holds an offset of the CAL block, and the place in it (20 R440; DESIGN CHOICE, log entry 11). -/
def recordAt (off : Nat) : Option (Nat × Nat) :=
  let o := (off - 0x40000) % 0x40000
  let d := (off - 0x40000) / 0x40000
  if off < 0x400 then some (516, off)
  else if off < 0x40000 || 0x140000 ≤ off then none
  else if o < 0x20000 then some (128 * d + o / 0x400, o % 0x400)
  else if o < 0x20400 then some (512 + d, o - 0x20000)
  else none

/-- The CAL block: factory records of the dies, then the user overlay; offsets not listed read 0 (20 R440). -/
def calRead (s : State) (off : Nat) : Nat :=
  match recordAt off with
  | some (r, o) => pack [(32, calRecWord s r o), (32, calRecWord s r (o + 4))]
  | none =>
    if off < 0x180000 || 0x1C0000 ≤ off then 0
    else match s.cal.overlay[(off - 0x180000) / 16]? with
      | some x => qwordOf (overlayBytes x) (off % 16)
      | none => 0

/-! ### The block map (24 R501 to R503) -/

/-- The PE die whose units a page reflects. -/
def pageDie (off : Nat) : Option Nat :=
  if 0x100000 ≤ off && off < 0x200000 then some ((off - 0x100000) / 0x40000)
  else if 0x200000 ≤ off && off < 0x400000 then some ((off - 0x200000) / 0x80000)
  else if 0x400000 ≤ off && off < 0x500000 then some ((off - 0x400000) / 0x40000)
  else if 0x500000 ≤ off && off < 0x600000 then some ((off - 0x500000) / 0x40000)
  else none

/-- A page reflects units of a die whose die link is in recovery (24 R503). -/
def pageStale (s : State) (off : Nat) : Bool :=
  match pageDie off with
  | some d => inRecovery s (domDie d)
  | none => false

/-- The state as reflected by a page: before containment where the page is stale (24 R503). -/
def pageState (s : State) (off : Nat) : State :=
  match pageDie off with
  | some d =>
    if !inRecovery s (domDie d) then s
    else match Tab.get none s.flt.stale d with
      | some p => { s with chans := p.chans, lgs := p.lgs, sectors := p.sectors, sites := p.sites, streams := p.streams,
                           awgs := p.awgs, digs := p.digs, stg.image := p.image }
      | none => s
  | none => s

/-- SEQ_TS_VIEW of a path (24 R506). -/
def viewOf (s : State) (path : Path) (n : Nat) : Nat :=
  match path with
  | .pcie => (s.sec n).viewPcie.toNat
  | .mnt => (s.sec n).viewMnt.toNat

/-- The 64-bit word at an 8-byte-aligned offset of BAR0, as a path reads it; none where nothing is mapped (24 R501, R502). -/
def regRead (s : State) (path : Path) (off : Nat) : Option Nat :=
  let r := off % 0x10000
  let stale := pageStale s off
  let p := pageState s off
  if off < 0x100000 then
    match off / 0x10000 with
    | 0 => glbRead s r
    | 1 => hifRead s r
    | 2 => evtRead s r
    | 3 => fltRead s r
    | 4 => thmRead s r
    | 5 => clkRead s r
    | 6 => grpRead s r
    | 7 => memRead s r
    | 8 => csqRead s r
    | 9 => stgRead s r
    | 10 => dayRead s r
    | 11 => auxRead s r
    | 12 => mntRegs s r
    | 13 => dcsRead s r
    | 14 => trgRead s r
    | _ => ledRead s r
  else if off < 0x200000 then
    let n := (off - 0x100000) / 0x20000
    seqRead p n (off % 0x20000) stale (viewOf s path n)
  else if off < 0x400000 then chnRead p ((off - 0x200000) / 0x1000) (off % 0x1000) stale
  else if off < 0x500000 then awgRead p ((off - 0x400000) / 0x10000) r stale
  else if off < 0x600000 then digRead p ((off - 0x500000) / 0x10000) r stale
  else if off < 0x800000 then some (calRead s (off - 0x600000))
  else if off < 0x1000000 then engRead s ((off - 0x800000) / 0x80000) (off % 0x80000)
  else none

/-- The register at an 8-byte-aligned offset has 32 bits, and nothing is mapped in the upper half: CTRL of a ring, SWEEP_STATUS
(13 R293; 02 R43; 24 R502). -/
def isNarrow (off : Nat) : Bool :=
  off == 0x50108 || (off / 0x10000 == 1 && match ringAt (off % 0x10000) with
    | some (_, _, r) => r == 8
    | none => false)

/-- The 64-bit counters of a daymark bank, by the offset in it (15 R361). -/
def dayWide (q : Nat) : Bool :=
  if q < 0x40 then q == 0x08 || q == 0x10
  else if 0x0700 ≤ q && q < 0x0900 then q % 32 == 0
  else if 0x0900 ≤ q && q < 0x0D00 then q % 64 == 0 || q % 64 == 8
  else if 0x0D00 ≤ q && q < 0x1500 then (q - 0x0D00) % 128 == 0 || (q - 0x0D00) % 128 == 8
  else if 0x1500 ≤ q && q < 0x1600 then true
  else 0x2000 ≤ q && q < 0x6000 && q % 32 == 0

/-- Whether the 8 bytes at an offset are one 64-bit register, rather than two of 32 bits or less side by side (15 R356). -/
def isWide (off : Nat) : Bool :=
  if off < 0x100000 then
    let r := off % 0x10000
    match off / 0x10000 with
    | 1 => !(0x8000 ≤ r && r % 16 == 8) && !isNarrow off
    | 2 => false
    | 5 => !isNarrow off
    | 10 => r == 0 || (0x1000 ≤ r && dayWide ((r - 0x1000) % 0x8000))
    | _ => true
  else if off < 0x200000 then
    let r := off % 0x20000
    r < 0x100 || (0x200 ≤ r && r < 0x400) || (0x1000 ≤ r && r < 0x3000 && (r % 32 == 8 || r % 32 == 24)) || (0x4000 ≤ r &&
      r < 0x8000 && r % 16 == 8)
  else if off < 0x400000 then
    let r := off % 0x1000
    !(r == 0x88 || r == 0x90 || r == 0x98 || r == 0xD8 || r == 0xE0)
  else if off < 0x600000 then
    let r := off % 0x10000
    !(0x48 ≤ r && r < 0x60 && off < 0x500000) && !(0x50 ≤ r && r < 0x68 && 0x500000 ≤ off)
  else if off < 0x800000 then false
  else
    let r := off % 0x80000
    r < 0x10 || r == 0x80 || r == 0x88 || (0x100 ≤ r && r < 0x160) || (0x20000 ≤ r && r < 0x40000)

end Sys2Proof.Machine
end

