-- ==== Sys2Proof/Machine/RegCmd.lean ====
section
/-! DEFINITION. Accesses to BAR0 and BAR2 (13 R287, R288, R292, R305, R307; 15 R356, R357; 18 R413, R423; 16 R383; 24 R501 to
R506) and the MNT port (22 R480 to R488). -/

namespace Sys2Proof.Machine

open Sys2Proof

/-! ### Set-up registers with rows of their own (18 R413, R423; 16 R383; 24 R506) -/

/-- A write of FLT_CFG: QUIET_US from 2 to 1,000 (18 R413). -/
def fltCfgWrite (s : State) (w : RegWrite) : State :=
  let v := (RegWrite.onto w (BitVec.ofNat 64 s.flt.quietUs)).toNat % 1024
  if v < 2 || v > 1000 then configRefused s (RegWrite.at' w 0x30008) else { s with flt.quietUs := v }

/-- FLT_CFG_WRITE. -/
def execFltCfgWrite (w : RegWrite) (s : State) : Host.Outcome State Fault Refusal := .next (fltCfgWrite s w)

/-- A write of FLT_ALIVE_s: codes up to 4, a period of 1 to 100 ms; they show from the next period boundary (18 R423). -/
def fltAliveWrite (s : State) (n : Nat) (w : RegWrite) : State :=
  let v := (RegWrite.onto w (BitVec.ofNat 64 (aliveReg s n))).toNat
  let c := bits v 2 0
  let d := bits v 5 3
  let p := bits v 14 8
  if c > 4 || d > 4 || p < 1 || p > 100 then configRefused s (RegWrite.at' w (0x30100 + 8 * n))
  else s.updAlive n fun a => { a with char := c, degraded := d, period := p }

/-- FLT_ALIVE_WRITE. -/
def execFltAliveWrite (sector : Fin 8) (w : RegWrite) (s : State) : Host.Outcome State Fault Refusal :=
  .next (fltAliveWrite s sector w)

/-- A write of GRP_EPOCH_CTRL: ignored on a worker; DELAY up to 60 ns (16 R383). -/
def epochCtrlWrite (s : State) (w : RegWrite) : State :=
  if !s.grp.keeper then s
  else
    let v := (RegWrite.onto w (BitVec.ofNat 64 (epochCtrl s))).toNat
    let d := bits v 39 16
    if d > 6291456 then configRefused s (RegWrite.at' w 0x60200)
    else { s with grp.epochArm := bitOf v 0, grp.epochEdge := bitOf v 1, grp.epochDelay := d }

/-- GRP_EPOCH_CTRL_WRITE. -/
def execGrpEpochCtrlWrite (w : RegWrite) (s : State) : Host.Outcome State Fault Refusal := .next (epochCtrlWrite s w)

/-- A write of SEQ_TS_VIEW: the view of the writing path (24 R506). -/
def tsViewWrite (s : State) (n : Nat) (w : RegWrite) : State :=
  let v := BitVec.ofNat 6 (RegWrite.onto w (BitVec.ofNat 64 (viewOf s w.path n))).toNat
  s.updSec n fun x => match w.path with
    | .pcie => { x with viewPcie := v }
    | .mnt => { x with viewMnt := v }

/-- SEQ_TS_VIEW_WRITE. -/
def execSeqTsViewWrite (sector : Fin 8) (w : RegWrite) (s : State) : Host.Outcome State Fault Refusal :=
  .next (tsViewWrite s sector w)

/-! ### Writes of BAR0 (13 R288, R305, R307; 24 R502) -/

/-- A write of one EVT_ROUTE: EQ and ENABLE (13 R305). -/
def routeWrite (s : State) (i v : Nat) : State :=
  { s with host.route := Tab.set 0 s.host.route i (v % 64 + 64 * b2n (bitOf v 8)) }

/-- A write of the two EVT_ROUTE in a quadword. -/
def routesWrite (s : State) (w : RegWrite) (off : Nat) : State :=
  let v := w.value.toNat
  let s := if w.half == .high then s else routeWrite s (off / 4) (v % 2 ^ 32)
  if w.half == .low then s else routeWrite s (off / 4 + 1) (v / 2 ^ 32)

/-- A write of a vector's control word: clearing the mask sends a pending message (13 R307). -/
def maskWrite (s : State) (v : Nat) (masked : Bool) : State :=
  if masked then { s with host.msixUnmasked := Tab.set false s.host.msixUnmasked v false }
  else if Tab.get false s.host.msixUnmasked v then s
  else unmaskVector s v

/-- A write of the MSI-X table: address, or data and vector control (13 R307). -/
def msixWrite (s : State) (w : RegWrite) (off : Nat) : State :=
  let v := (off - 0x8000) / 16
  if off % 16 == 0 then
    { s with host.msixAddr := Tab.set 0 s.host.msixAddr v (RegWrite.onto w (Tab.get 0 s.host.msixAddr v)) }
  else
    let s := if w.half == .high then s
      else { s with host.msixData := Tab.set 0 s.host.msixData v (BitVec.ofNat 32 w.value.toNat) }
    if w.half == .low then s else maskWrite s v (bitOf w.value.toNat 32)

/-- A write in the HIF block, at a mapped offset. -/
def hifWrite (s : State) (w : RegWrite) (off : Nat) : State :=
  if off == 0x0008 then bar4CfgWrite s w
  else if 0x8000 ≤ off then msixWrite s w off
  else match ringAt off with
    | some (k, n, 0x00) => ringWrite s k n .base w
    | some (k, n, 0x08) => ringWrite s k n .ctrl w
    | some (k, n, 0x10) => ringWrite s k n .shadow w
    | _ => s

/-- A write in the GRP block, at a mapped offset. -/
def grpWrite (s : State) (w : RegWrite) (off : Nat) : State :=
  match off with
  | 0x0200 => epochCtrlWrite s w
  | 0x0208 => { s with grp.epochPos := RegWrite.onto w s.grp.epochPos }
  | 0x0210 => { s with grp.epochTick := RegWrite.onto w s.grp.epochTick }
  | _ => s

/-- A write at a mapped offset of the set-up blocks; a write to a field that is RO is ignored without an event (24 R502). -/
def setupWrite (s : State) (w : RegWrite) (off : Nat) : State :=
  let r := off % 0x10000
  match off / 0x10000 with
  | 0 => if r == 0x28 then { s with pwr.scratch := RegWrite.onto w s.pwr.scratch } else s
  | 1 => hifWrite s w r
  | 2 => routesWrite s w r
  | 3 => if r == 0x0008 then fltCfgWrite s w
    else if 0x0100 ≤ r && r < 0x0140 then fltAliveWrite s ((r - 0x100) / 8) w else s
  | 4 => if r == 0x0008 then thmCfgWrite s w
    else if r == 0x0010 then thmDemandWrite s w
    else if 0x0200 ≤ r && r < 0x0280 then thmLimitWrite s ((r - 0x200) / 8) w else s
  | 5 => if r == 0x0000 then clkXtalWrite s w else if r == 0x0008 then refSelWrite s w else s
  | 6 => grpWrite s w r
  | 7 => if r == 0x0008 then memCfgWrite s w else s
  | 11 => if r == 0x0008 then auxCfgWrite s w else s
  | 15 => if r == 0x0008 then ledCfgWrite s w else if r == 0x0010 then ledRefvWrite s w else s
  | _ => s

/-- The write of one 64-bit word or half at an 8-byte-aligned offset; none where nothing is mapped, or where every write is
unmapped (24 R502). -/
def regWrite (s : State) (w : RegWrite) (off : Nat) : Option State :=
  if off < 0x100000 then
    if (regRead s w.path off).isSome then some (setupWrite s w off) else none
  else if off < 0x200000 && off % 0x20000 == 0xE0 then some (tsViewWrite s ((off - 0x100000) / 0x20000) w)
  else none

/-- The write of 4 or 8 bytes at an offset as a write of a register or its half (15 R357). -/
def writeAt (path : Path) (off size : Nat) (v : Nat) : RegWrite :=
  if size == 8 then ⟨path, .full, BitVec.ofNat 64 v⟩
  else if off % 8 == 4 then ⟨path, .high, BitVec.ofNat 64 (v % 2 ^ 32 * 2 ^ 32)⟩
  else ⟨path, .low, BitVec.ofNat 64 (v % 2 ^ 32)⟩

/-- A write of 4 or 8 bytes to BAR0 (13 R288). -/
def bar0Write (s : State) (path : Path) (off size v : Nat) : State :=
  if !(size == 4 || size == 8) || off % size != 0 || off ≥ 0x1000000 then unmapped s path off
  else if off % 8 == 4 && isNarrow (off / 8 * 8) then unmapped s path off
  else match regWrite s (writeAt path off size v) (off / 8 * 8) with
    | some s' => s'
    | none => unmapped s path off

/-! ### Doorbells (13 R292, R301) -/

/-- The doorbell of a BAR2 offset: which ring kind's, or the abort doorbell (none), and its ring. -/
def doorAt (off : Nat) : Option (Option RingKind × Nat) :=
  if off % 8 != 0 then none
  else if off < 0x0800 then some (some .sq, off / 8)
  else if 0x1000 ≤ off && off < 0x1800 then some (some .cq, (off - 0x1000) / 8)
  else if 0x2000 ≤ off && off < 0x2200 then some (some .eq, (off - 0x2000) / 8)
  else if 0x3000 ≤ off && off < 0x3100 then some (some .str, (off - 0x3000) / 8)
  else if 0x4000 ≤ off && off < 0x4800 then some (none, (off - 0x4000) / 8)
  else none

/-- What a doorbell reads: the index that the device holds; for an abort doorbell 1 while the abort runs (13 R292). -/
def doorRead (s : State) (off : Nat) : Nat :=
  match doorAt off with
  | some (some .sq, n) => (s.ring .sq n).prod
  | some (some k, n) => (s.ring k n).cons
  | some (none, n) => b2n (s.ring .sq n).abortTo.isSome
  | none => 0

/-! ### Reads of BAR0 in halves (15 R356) -/

/-- The high-half latch of a path. -/
def latchOf (s : State) : Path → Option (Nat × Word)
  | .pcie => s.stg.latchPcie
  | .mnt => s.stg.latchMnt

/-- Set the high-half latch of a path. -/
def setLatchOf (s : State) (path : Path) (l : Option (Nat × Word)) : State :=
  match path with
  | .pcie => { s with stg.latchPcie := l }
  | .mnt => { s with stg.latchMnt := l }

/-- A 4-byte read: the low half of a 64-bit register latches its high half, and the next read of that high half on the path
returns the latched value and clears the latch (15 R356). -/
def read32 (s : State) (path : Path) (off : Nat) : Word × State :=
  let base := off / 8 * 8
  let high := off % 8 == 4
  match high, latchOf s path with
  | true, some (b, v) => if b == base then (v, setLatchOf s path none) else live base high
  | _, _ => live base high
where
  /-- The live value. -/
  live (base : Nat) (high : Bool) : Word × State :=
    match regRead s path base with
    | none => (0, unmapped s path off)
    | some v =>
      let hi := BitVec.ofNat 32 (v / 2 ^ 32)
      if high then (if isNarrow base then (0, unmapped s path off) else (hi, s))
      else (BitVec.ofNat 32 v, if isWide base then setLatchOf s path (some (base, hi)) else s)

/-- A read of BAR0: 4 bytes, or the 8 of a 64-bit word from one instant; a read of another size, of a misaligned or of an
unmapped offset returns zeros and raises 0x0483 (13 R288; 15 R356). -/
def bar0Read (s : State) (path : Path) (off size : Nat) : List Byte × State :=
  if !(size == 4 || size == 8) || off % size != 0 || off ≥ 0x1000000 then (zeros size, unmapped s path off)
  else if size == 4 then
    let (v, s) := read32 s path off
    (leBytes 4 v.toNat, s)
  else match regRead s path off with
    | some v => (leBytes 8 v, s)
    | none => (zeros 8, unmapped s path off)

/-- A read of BAR2: 4 or 8 bytes of a doorbell give its index; any other read is unmapped (13 R288, R292). -/
def bar2Read (s : State) (off size : Nat) : List Byte × State :=
  if (size == 4 || size == 8) && (doorAt off).isSome then (leBytes size (doorRead s off), s)
  else (zeros size, notice s 0x0483 (off + 2 ^ 31))

/-- HIGH_HALF_LATCH_READ: a read of BAR0 or BAR2 over PCI Express, or of 4 bytes of BAR0 through the MNT port, where a page that
is not ready reads nothing (13 R288, R292; 15 R356; 22 R484). -/
def execHighHalfLatchRead (path : Path) (bar : Bar) (offset : BitVec 32) (size : Nat) (s : State) :
    Host.Outcome State Fault Refusal :=
  let off := offset.toNat
  .next <| match path, bar with
    | .mnt, _ =>
      if pageStale s off then s
      else
        let (v, s) := bar0Read s .mnt off 4
        { s with host.readData := v, host.poisoned := false }
    | .pcie, .bar0 =>
      let (v, s) := bar0Read s .pcie off size
      { s with host.readData := v, host.poisoned := false }
    | .pcie, .bar2 =>
      let (v, s) := bar2Read s off size
      { s with host.readData := v, host.poisoned := false }

/-! ### The MNT port (22 R480 to R488) -/

/-- The bits of a frame that the next STATUS reports (22 R483). -/
structure MntFlags where
  aborted : Bool := false
  crcBad : Bool := false
  pageEnd : Bool := false
  badCmd : Bool := false
  deriving DecidableEq, Repr

/-- A frame began less than 400 ns after the last rise of MNT_CS_N, or MNT_SCK ran faster than 25 MHz through its STATUS byte (22
R484). -/
def mntHurried (f : MntFrame) : Bool := f.gap < 640 || f.sckPs < 40000

/-- READY of a frame (22 R484). -/
def mntReady (s : State) (f : MntFrame) : Bool := !mntHurried f && !pageStale s f.addr.toNat

/-- STATUS as a frame returns it (22 R483). -/
def mntStatus (s : State) (f : MntFrame) : Byte :=
  BitVec.ofNat 8 (pack [(1, b2n (mntReady s f)), (1, b2n s.mnt.aborted), (1, b2n s.mnt.crcBad), (1, b2n s.mnt.pageEnd),
    (1, b2n s.mnt.badCmd), (1, b2n (safeNow s)), (1, 0), (1, 1)])

/-- Words that a frame clocks out after STATUS, the last one perhaps in part. -/
def mntWords (f : MntFrame) : Nat := (f.clocks - 40 + 31) / 32

/-- A frame ends: its STATUS has been returned, its flags stand for the next one, and its counters count (22 R483, R489). -/
def mntEnd (s : State) (status : Byte) (returned : Bool) (fl : MntFlags) (sent : List Word) : State :=
  { s with
    mnt.aborted := fl.aborted, mnt.crcBad := fl.crcBad, mnt.pageEnd := fl.pageEnd, mnt.badCmd := fl.badCmd,
    mnt.cntAborted := if fl.aborted then incSat 16 s.mnt.cntAborted else s.mnt.cntAborted,
    mnt.cntCrc := if fl.crcBad then incSat 16 s.mnt.cntCrc else s.mnt.cntCrc,
    mnt.cntBadCmd := if fl.badCmd then incSat 16 s.mnt.cntBadCmd else s.mnt.cntBadCmd,
    mnt.status := if returned then status else s.mnt.status, mnt.sent := sent }

/-- What every frame does first: the port answers once the pins are safe; a frame with READY 0 changes nothing and sets no
bit; one that ends before clock 40 sets ABORTED; a bad command sets BAD_CMD; else `go` runs with the STATUS returned (22 R480,
R482 to R484). -/
def mntFrame (s : State) (f : MntFrame) (go : Byte → State) : State :=
  let st := mntStatus s f
  let late := 40 ≤ f.clocks
  let bad := (f.cmd != 0x00 && f.cmd != 0x02 && f.cmd != 0x0B) || f.addr.toNat % 4 != 0 || (f.cmd == 0x00 && f.addr != 0)
  let bad := 32 ≤ f.clocks && bad
  if !pinsDriven s then s
  else if !mntReady s f then mntEnd { s with mnt.cntNotReady := incSat 16 s.mnt.cntNotReady } st late {} []
  else if !late || bad then
    mntEnd s st late { aborted := !late, badCmd := bad } (List.replicate (if late then mntWords f else 0) 0)
  else go st

/-- MNT_NOP: STATUS only; a frame with an unknown code is a bad command (22 R482). -/
def execMntNop (f : MntFrame) (s : State) : Host.Outcome State Fault Refusal :=
  .next (if f.cmd == 0x02 || f.cmd == 0x0B then s
    else mntFrame s f fun st => mntEnd s st true {} (List.replicate (mntWords f) 0))

/-- Read `n` words from an offset upward within a page: the state, the words, and whether the page's end was passed (22
R485). -/
def mntReadWords : Nat → State → Nat → Nat → State × List Word × Bool
  | 0, s, _, _ => (s, [], false)
  | n + 1, s, off, stop =>
    if off ≥ stop then
      let (s, ws, _) := mntReadWords n s off stop
      (s, 0 :: ws, true)
    else
      let (v, s) := read32 s .mnt off
      let (s, ws, past) := mntReadWords n s (off + 4) stop
      (s, v :: ws, past)

/-- The end of the 4 KiB page of an offset. -/
def pageStop (off : Nat) : Nat := off / 4096 * 4096 + 4096

/-- MNT_READ (22 R482, R485). -/
def execMntRead (f : MntFrame) (s : State) : Host.Outcome State Fault Refusal :=
  .next (if f.cmd != 0x0B then s
    else mntFrame s f fun st =>
      let a := f.addr.toNat
      let (s, ws, past) := mntReadWords (mntWords f) s a (pageStop a)
      mntEnd { s with mnt.reads := addWrap 32 s.mnt.reads 1 } st true { pageEnd := past } ws)

/-- Write words upward from an offset on one fabric cycle, the two halves of a 64-bit register together (22 R485, R486). -/
def mntWriteWords : List Word → State → Nat → State
  | [], s, _ => s
  | [v], s, off => bar0Write s .mnt off 4 v.toNat
  | v :: v' :: rest, s, off =>
    if off % 8 == 0 then
      let s := match regWrite s (writeAt .mnt off 8 (v.toNat + 2 ^ 32 * v'.toNat)) off with
        | some s' => s'
        | none => unmapped (unmapped s .mnt off) .mnt (off + 4)
      mntWriteWords rest s (off + 8)
    else mntWriteWords (v' :: rest) (bar0Write s .mnt off 4 v.toNat) (off + 4)

/-- CRC-8 over CMD, ADDR and the data, as sent (22 R487). -/
def mntCrc (f : MntFrame) : Nat :=
  crc8 (f.cmd :: (leBytes 3 f.addr.toNat).reverse ++ f.words.flatMap fun w => (leBytes 4 w.toNat).reverse)

/-- MNT_WRITE: it takes effect only if the frame is complete, its CRC good and every word in its page (22 R485 to R487). -/
def execMntWrite (f : MntFrame) (s : State) : Host.Outcome State Fault Refusal :=
  .next (if f.cmd != 0x02 then s
    else mntFrame s f fun st =>
      let a := f.addr.toNat
      let whole := !f.words.isEmpty && f.clocks == 48 + 32 * f.words.length
      let crcBad := whole && mntCrc f != f.crc.toNat
      let past := a + 4 * f.words.length > pageStop a
      if whole && !crcBad && !past then
        mntEnd (mntWriteWords f.words { s with mnt.writes := addWrap 32 s.mnt.writes 1 } a) st true {} []
      else mntEnd s st true { aborted := true, crcBad := crcBad, pageEnd := past } [])

end Sys2Proof.Machine
end

