-- ==== Sys2Proof/Machine/Micro.lean ====
section
/-! DEFINITION. Microwords: the sequence, the ALU and the bus operations (17 R384, R387 to R390). -/

namespace Sys2Proof.Machine

open Sys2Proof

/-- Every parity bit makes its 32 bits and itself even (17 R387). -/
def parityOk (w : BitVec 132) : Bool :=
  (List.range 4).all fun q => (popcount 32 (mwBits w (32 * q + 31) (32 * q)) + mwBits w (128 + q) (128 + q)) % 2 == 0

/-- PC + 1, which 0x3FFF and 0x43FF do not have (17 R390). -/
def pcInc (pc : Nat) : Option Nat := if pc == 0x3FFF || pc == 0x43FF then none else some (pc + 1)

/-- COND of a microword holds (17 R389). -/
def mwCond (s : State) (x : Ctx) (code : Nat) (busDone busError : Bool) : Bool :=
  match code with
  | 0 => true
  | 1 => x.z
  | 2 => !x.z
  | 3 => x.n
  | 4 => !x.n
  | 5 => x.c
  | 6 => x.v
  | 7 => busDone
  | 8 => busError
  | 9 => match x.slot.bind s.slot with
    | some sl => !epochChanged s sl sl.epochs
    | none => true
  | k => Config.romCond s.free (BitVec.ofNat 5 k)

/-- The next micro-address before the match registers, and the micro-stack; none is a machine check (17 R390). -/
def nextMicro (x : Ctx) (w : BitVec 132) (cond : Bool) (lc : Nat) : Option (Nat × List (BitVec 15)) :=
  let pc := x.pc.toNat
  let br := mwBits w 14 0
  let inc := (pcInc pc).map fun a => (a, x.stack)
  let n : Option (Nat × List (BitVec 15)) := match mwBits w 19 16 with
    | 0 => inc
    | 1 => some (br, x.stack)
    | 2 => if cond then some (br, x.stack) else inc
    | 3 => if cond then inc else some (br, x.stack)
    | 4 => if x.stack.length ≥ 8 then none
      else (pcInc pc).map fun a => (br, x.stack ++ [BitVec.ofNat 15 a])
    | 5 => x.stack.getLast?.map fun a => (a.toNat, x.stack.dropLast)
    | 6 => if lc != 0 then some (br, x.stack) else inc
    | 7 => some ((br + ((x.mx[mwBits w 43 40]?).getD 0).toNat % 256) % 2 ^ 15, x.stack)
    | 8 => if cond then inc else some (pc, x.stack)
    | 9 => inc
    | 10 => some (pc, x.stack)
    | _ => none
  n.bind fun p => if p.1 ≥ 0x4400 then none else some p

/-- ALU result, carry and overflow; a flag that the manual does not state is none (17 R389). -/
def mwAlu (op : Nat) (a b : Word) (imm : Nat) : Option (Word × Option Bool × Option Bool) :=
  let sh := imm % 32
  match op with
  | 1 => some (a, none, none)
  | 2 => some (a + b, some (a.toNat + b.toNat ≥ 2 ^ 32), some ((a.toInt + b.toInt) != (a + b).toInt))
  | 3 => some (a - b, none, some ((a.toInt - b.toInt) != (a - b).toInt))
  | 4 => some (a &&& b, none, none)
  | 5 => some (a ||| b, none, none)
  | 6 => some (a ^^^ b, none, none)
  | 7 => some (a <<< sh, none, none)
  | 8 => some (a >>> sh, none, none)
  | 9 => some (BitVec.ofNat 32 imm, none, none)
  | _ => none

/-- A flag, or a free value where the manual states none (log entry 3). -/
def flagOr (s : State) : Option Bool → Bool × State
  | some b => (b, s)
  | none => let (v, s) := s.fresh; (bitOf v.toNat 0, s)

/-- The word of a unit register at a BAR0 offset (17 R389). -/
def unitWord (s : State) (off : Nat) : Word :=
  BitVec.ofNat 32 ((regRead s .pcie (off / 8 * 8)).getD 0 / 2 ^ (if off % 8 == 4 then 32 else 0))

/-- The manual does not say what a microword posts: an event, or the completion of its routine's descriptor, of free contents (17
R389; log entry 3). -/
def postMicro (s : State) (x : Ctx) : State :=
  let (w, s) := s.fresh
  let n := w.toNat
  match x.slot with
  | some id =>
    if bitOf n 63 then done s id (n % 0x13) (n / 0x100 % 2 ^ 32) else event s (n % 65536) (n / 65536 % 2 ^ 32)
  | none => event s (n % 65536) (n / 65536 % 2 ^ 32)

/-- The bus operation of a microword (17 R389): reads put their data in DST once done, a unit's from its register, DDR5's from
memory, the host's as it comes; writes act, but guarded ones only while the epochs compared are intact (R395); posts are recorded.
A read that a FAULT trap has cancelled puts nothing. -/
def mwBus (s : State) (c : Nat) (x : Ctx) (w : BitVec 132) (busDone : Bool) (busData : Word) : State :=
  let reg (i : Nat) : Nat := ((x.mx[i % 16]?).getD 0).toNat
  let a := mwBits w 43 40
  let addr := (reg a + reg (a + 1) * 2 ^ 32 + mwBits w 63 48) % 2 ^ 64
  let unit := mwBits w 99 68
  let data : Word := (x.mx[mwBits w 47 44]?).getD 0
  let barred := mwBits w 28 28 == 1 && (x.slot.bind s.slot).any (·.shaken)
  let inMem := s.memUp && addr + 4 ≤ s.mem.capacity * 2 ^ 30
  let put (s : State) (v : Word) : State :=
    if busDone && !x.cancelled then s.updCtx c fun y => { y with mx := setNth y.mx (mwBits w 39 36) v } else s
  match mwBits w 67 64 with
  | 1 => put s (unitWord s unit)
  | 2 => if barred then s else bar0Write { s with csq.posts := s.csq.posts ++ [(2, unit, data)] } .pcie unit 4 data.toNat
  | 3 => put s busData
  | 4 => emit s (.data addr (leBytes 4 data.toNat) ((x.slot.map (slotPlace s)).getD 0))
  | 5 =>
    if inMem && busDone && !x.cancelled then
      put (scanRead s addr 4).1 (BitVec.ofNat 32 (leNat (ddrRead s addr 4)))
    else s
  | 6 => if inMem && !barred then raiseOwed (rmwWrite s addr (leBytes 4 data.toNat)).1 else s
  | 7 => postMicro { s with csq.posts := s.csq.posts ++ [(7, addr, data)] } x
  | _ => s

/-- The BUS_OP of a microword reads. -/
def busReads (w : BitVec 132) : Bool := [1, 3, 5].contains (mwBits w 67 64)

/-- A context at a WAIT issues its word again: COND alone is looked at, and a read that is done puts its data (17 R390). -/
def waitStep (s : State) (c : Nat) (w : BitVec 132) (cond busDone : Bool) (busData : Word) : State :=
  if !cond then s
  else
    let x := s.ctx c
    let s := if busReads w then mwBus s c x w busDone busData else s
    s.updCtx c fun y =>
      { y with pc := BitVec.ofNat 15 (matched s (x.pc.toNat + 1)), waits := false, cancelled := false }

/-- The ALU of a microword on its operands: DST and the flags (17 R389). -/
def mwCompute (s : State) (c : Nat) (w : BitVec 132) (ra rb : Word) : State :=
  match mwAlu (mwBits w 35 32) ra rb (mwBits w 63 48) with
  | some (v, cy, ov) =>
    let (cf, s) := flagOr s cy
    let (vf, s) := flagOr s ov
    s.updCtx c fun y =>
      { y with mx := setNth y.mx (mwBits w 39 36) v, z := v == 0, n := bitOf v.toNat 31, c := cf, v := vf }
  | none => s

/-- DONE: the routine ends. A trap routine returns, a routine of CTX7 leaves it, and a descriptor's routine leaves its context (17
R384, R390, R391). -/
def mwDone (s : State) (c : Nat) : State := match (s.ctx c).slot with
  | some id => (leaveCtx s c id).updSlot id fun y => { y with st := .ended }
  | none => if (s.ctx c).frames.isEmpty then s.updCtx c fun _ => {} else trapReturn s c

/-- One microword of a context (17 R389, R390). A post that completes the descriptor ends its routine. -/
def microStep (s : State) (c : Nat) (busDone busError : Bool) (busData : Word) : State :=
  let x := s.ctx c
  let pc := x.pc.toNat
  let w := fetchMicro s pc
  if !parityOk w then machineCheck s pc 40
  else
    let alu := mwBits w 35 32
    let seq := mwBits w 19 16
    let lcsel := mwBits w 26 25
    let lc0 : BitVec 24 := (x.lc[lcsel]?).getD 0
    let lc := if seq == 6 then lc0 - 1 else lc0
    let code := mwBits w 24 20
    let cond := mwCond s x code busDone busError
    let s := if code ≥ 10 then { s with free := s.free + 1 } else s
    let ra : Word := (x.mx[mwBits w 43 40]?).getD 0
    let rb : Word := (x.mx[mwBits w 47 44]?).getD 0
    if alu ≥ 11 || mwBits w 67 64 ≥ 8 then machineCheck s pc 41
    else match nextMicro x w cond lc.toNat with
      | none => machineCheck s pc 41
      | some (a, stack) =>
        if x.waits then waitStep s c w cond busDone busData
        else
          let s := mwBus s c x w busDone busData
          if (s.ctx c).slot != x.slot then s
          else
            let s := mwCompute s c w ra rb
            let lc := if alu == 10 then BitVec.ofNat 24 ra.toNat else lc
            let s := s.updCtx c fun y =>
              { y with lc := setNth y.lc lcsel lc, stack := stack, pc := BitVec.ofNat 15 (matched s a),
                       atomic := mwBits w 27 27 == 1, waits := seq == 8 && !cond }
            match seq, x.slot with
            | 9, some id => (park s id .micro).updSlot id fun y => { y with pc := x.pc }
            | 10, _ => mwDone s c
            | _, _ => s

/-- A context holds a routine: CTX7 while the device reacts to a fault, converts temperatures, checks by force or keeps the safe
state (17 R384). -/
def ctxHolds (s : State) (c : Nat) : Bool := (s.ctx c).busy || (c == 7 && reacts s)

/-- A context is ready: it holds a routine, and stands at no WAIT whose COND failed (17 R384, R390). -/
def ctxReady (s : State) (c : Nat) : Bool := ctxHolds s c && !(s.ctx c).waits

/-- Context c may issue in this cycle: CTX7, where it is ready, in every second cycle at least, the others in fixed rotation,
CTX0 first (17 R384). A context at a WAIT takes its place in the rotation when its COND may hold. -/
def mayIssue (s : State) (c : Nat) : Bool :=
  let far (k : Nat) : Nat := (k + 13 - s.csq.turn) % 7
  ctxHolds s c &&
    if c == 7 then !s.csq.turn7 || (List.range 7).all fun k => !ctxReady s k
    else (s.csq.turn7 || !ctxReady s 7) && (List.range 7).all fun k => !ctxReady s k || far c ≤ far k

/-- CTX7 begins the routine that the device's state asks for (17 R384). -/
def enterCtx7 (s : State) (c : Nat) : State :=
  if c == 7 && !(s.ctx 7).busy then
    let n := s.csq.starts
    { s.updCtx 7 fun _ => { busy := true, pc := BitVec.ofNat 15 (matched s (Config.reactEntry n).toNat) } with csq.starts := n + 1 }
  else s

/-- MICROWORD_ISSUE: the context whose turn it is issues one microword (17 R384, R389). -/
def execMicrowordIssue (ctx : Fin 8) (busDone busError : Bool) (busData : Word) (s : State) :
    Host.Outcome State Fault Refusal :=
  .next <|
    if !mayIssue s ctx then s
    else
      let s := enterCtx7 s ctx
      let s := { s with csq.turn7 := ctx.val == 7, csq.turn := if ctx.val == 7 then s.csq.turn else ctx.val }
      microStep s ctx busDone busError busData

end Sys2Proof.Machine
end

