-- ==== Sys2Proof/Machine/Abort.lean ====
section
/-! DEFINITION. Host ABORT of a ring, and register writes over both bars (13 R288, R292, R301; 02 R40; 15 R347). -/

namespace Sys2Proof.Machine

open Sys2Proof

/-! ### What an abort ends, unit by unit (13 R301; log entry 45) -/

/-- A burst whose BURST the slot is takes a stop request (06 R125, R128). -/
def abortBurst (s : State) (id : Nat) : State :=
  if (s.burst id).isSome then stopBurst s id else s

/-- A pending jump or STOP of the slot: a jump goes, a STOP that has reached its sequencer, source or synthesizer stays in
force. -/
def abortRequests (s : State) (id : Nat) : State :=
  let s := forEach (Tab.keys s.bursts) s fun k s =>
    if ((s.burst k).bind Burst.jump).any fun j => j.slot == some id then dropJump s k else s
  let s := if (List.range 8).any fun n => ((s.dcs n).ramp.bind Ramp.stopAt).any fun p => p.2 == id then
      done s id Status.aborted 0
    else s
  forEach (List.range 16) s fun n s => if (s.awg n).jump.any fun j => j.slot == id then dropAwgJump s n else s

/-- Armings, acquisitions, sequences, ramps and runs that the slot started (07 R156; 09 R215; 10 R236; 11 R254; 12 R280; 08
R181). -/
def abortUnits (s : State) (id : Nat) : State :=
  let s := forEach (List.range 8) s fun n s => forEach (List.range 4) s fun g s =>
    if (s.wg n g).armed == some id then endArming s n g Status.aborted else s
  let s := forEach (List.range 16) s fun n s => if (s.dig n).slot == some id then endAcq s n Status.aborted else s
  let s := forEach (List.range 16) s fun n s =>
    if (s.awg n).slot == some id then endSequence s n Status.aborted .idle false else s
  let s := forEach (List.range 8) s fun n s =>
    if (s.dcs n).ramp.any fun r => r.slot == id then settleDcs (endRamp s n Status.aborted) n else s
  let s := forEach (List.range 16) s fun e s =>
    if (s.eng e).st == .running && (s.eng e).slot == some id && (s.eng e).ending.isNone then
      tryFinishEng (s.updEng e fun x => { x with ending := some Status.aborted, dup := none, loop := none }) e
    else s
  abortRun s id

/-- The pending apply or daymark of the slot, unless its tick has come (02 R40; 15 R347). A group apply ends in CANCEL unless
COMMIT is out (16 R376); an alignment ends with the workers aligned so far. -/
def abortScheduled (s : State) (id : Nat) : State :=
  match s.grp.op with
  | some o =>
    if o.slot != id then
      forEach (s.stg.sched.filter fun a => a.slot == some id && !isDue s a) s fun a s => cancelAct s a Status.aborted
    else if o.kind == 1 then (if o.committed then s else cancelGroup s Status.aborted 0)
    else if o.kind == 4 then endGroupOp s Status.aborted o.aligned s.sweep.pos
    else
      forEach (s.stg.sched.filter fun a => a.slot == some id && !isDue s a) s fun a s => cancelAct s a Status.aborted
  | none => forEach (s.stg.sched.filter fun a => a.slot == some id && !isDue s a) s fun a s => cancelAct s a Status.aborted

/-- The patch that waits for its activation is discarded (17 R401). -/
def abortPatch (s : State) (id : Nat) : State :=
  if s.csq.awaiting.any fun p => p.1 == id then
    let st : PatchSt := if s.csq.active.words.isEmpty then .none else .active
    done { s with csq.inactive := {}, csq.awaiting := none, csq.patch := st } id Status.aborted 0
  else s

/-- The transfer of the slot stops at the end of its bit (22 R478); a THERM and a STREAM_CLOSE complete, their conversion and
their last blocks going on. -/
def abortWaits (s : State) (id : Nat) : State :=
  let s := if s.aux.busy.any fun r => r.slot == id then auxStop s Status.aborted else s
  let s := if s.thm.therms.any fun r => r.slot == id then
      done { s with thm.therms := s.thm.therms.filter fun r => r.slot != id } id Status.aborted 0
    else s
  let s := forEach (List.range 32) s fun r s => match (s.ring .str r).closing with
    | some (j, detail) => if j == id then done s id Status.aborted detail else s
    | none => s
  forEach (Tab.keys s.bursts) s fun k s => match s.burst k with
    | some b =>
      if b.stops.contains id then
        done (s.updBurst k fun b => { b with stops := b.stops.filter (· != id) }) id Status.aborted 0
      else s
    | none => s

/-- Uncompleted descriptors inside a fence's bounds. -/
def boundsOpen (s : State) (b : List (Nat × Nat)) : Nat :=
  (b.map fun p => p.2 - (s.ring .sq p.1).total).sum + ((heldSlots s).filter fun q => inBounds b q.2.ring q.2.seq).length

/-- A parked descriptor that an abort ends without a unit of its own: DETAIL counts what its opcode counts (14 R318). -/
def abortParked (s : State) (id : Nat) (sl : Slot) : State :=
  let s := { s with thm.fresh := s.thm.fresh.filter fun p => p.1 != id }
  let s := if isGroupSlot s id then { s with grp.op := none, grp.rdyN := false } else s
  done s id Status.aborted (if sl.opc == 0x01 then satTo 32 (sl.covered - boundsOpen s sl.bounds) else sl.progress)

/-- Abort one held descriptor (13 R301). A running routine is ended by its ABORT trap (17 R391), a trapped one at its return
(17 R392). -/
def abortSlot (s : State) (id : Nat) (sl : Slot) : State :=
  match sl.st with
  | .waiting => done s id Status.aborted 0
  | .running _ => s
  | .ended => done s id Status.aborted sl.progress
  | .parked .ending =>
    if sl.outcome.isSome then done s id Status.aborted sl.progress
    else abortWaits (abortPatch (abortScheduled (abortUnits (abortRequests (abortBurst s id) id) id) id) id) id
  | .parked _ => abortParked s id sl

/-- An abort of ring n: every descriptor before the producer index (13 R301). -/
def abortRing (s : State) (n : Nat) : State :=
  let r := s.ring .sq n
  let s := s.setRing .sq n { r with abortTo := some (submitted r) }
  let mine := ((heldSlots s).filter fun p => p.2.ring == n).map Prod.fst
  let s := forEach mine s fun id s => s.updSlot id fun x => { x with aborted := true }
  finishAbort (forEach mine s fun id s => match s.slot id with
    | some sl => abortSlot s id sl
    | none => s) n

/-- A write of an abort doorbell: bit 0 starts the abort (13 R292, R301). -/
def abortDoor (s : State) (n v : Nat) : State :=
  if !(s.ring .sq n).enable || v ≥ 65536 then doorError s (doorOff 0x4000 n)
  else if bitOf v 0 then abortRing s n
  else s

/-- SQ_ABORT_DOORBELL (13 R292, R301). -/
def execSqAbortDoorbell (ring : Fin 256) (value : BitVec 64) (s : State) : Host.Outcome State Fault Refusal :=
  .next (abortDoor s ring value.toNat)

/-! ### Register writes (13 R288, R292; 15 R357; 24 R502) -/

/-- A write to BAR2: a doorbell, or an unmapped offset, whose event carries it with bit 31 set (13 R288, R292). -/
def bar2Write (s : State) (off size v : Nat) : State :=
  if !(size == 4 || size == 8) then notice s 0x0483 (off + 2 ^ 31)
  else match doorAt off with
    | some (some .sq, n) => producerDoor s n v
    | some (some k, n) => consumerDoor s k n v off
    | some (none, n) => abortDoor s n v
    | none => notice s 0x0483 (off + 2 ^ 31)

/-- REGISTER_WRITE: a write of 4 or 8 bytes to BAR0 or BAR2 (13 R288; 15 R357; 24 R502). -/
def execRegisterWrite (bar : Bar) (offset : BitVec 32) (size : Nat) (value : BitVec 64) (s : State) :
    Host.Outcome State Fault Refusal :=
  let v := value.toNat % 2 ^ (8 * size)
  .next <| match bar with
    | .bar0 => bar0Write s .pcie offset.toNat size v
    | .bar2 => bar2Write s offset.toNat size v

end Sys2Proof.Machine
end

