-- ==== Sys2Proof/Machine/Pmu.lean ====
section
/-! DEFINITION. Parametric units: PMU_LIST and the execution of its items, result words, limits, and the scan (08). -/

namespace Sys2Proof.Machine

open Sys2Proof

/-! ### Items and limits (08 R178, R182) -/

/-- SETTLE of an item in ns. -/
def itemSettle (it : List Byte) : Nat := field it 8 4
/-- AVG_K of an item. -/
def itemK (it : List Byte) : Nat := field it 12 1
/-- LIMIT of an item; 0xFFFF for none. -/
def itemLimit (it : List Byte) : Nat := field it 14 2

/-- The fields of an item are in range (08 R178). -/
def itemOk (limits : Nat) (it : List Byte) : Bool :=
  let v := itemValue it
  itemChan it ≤ 511 && itemMode it ≤ 2 && itemRange it ≤ 4 && itemSettle it ≤ 100000000 && itemK it ≤ 12 &&
    field it 13 1 == 0 && (itemLimit it == 0xFFFF || itemLimit it < limits) &&
    (match itemMode it with
      | 0 => -1500000 ≤ v && v ≤ 7000000
      | 1 => v.natAbs ≤ pmuFs (itemRange it)
      | _ => v == 0)

/-- A limit entry is in range (08 R179 test 1, R182). -/
def limitOk (l : List Byte) : Bool := fieldS l 0 4 ≤ fieldS l 4 4 && field l 8 1 ≤ 1 && zeroBytes l 9 16

/-- The operands of PMU_LIST are in range (08 R177). -/
def pmuListOk (sl : Slot) : Bool :=
  let count := sl.op 8 2
  let dest := sl.op 10 1
  let lims := sl.op 40 2
  1 ≤ count && count ≤ 4096 && dest ≤ 2 && (if dest == 2 then sl.op 11 1 ≤ 3 else sl.op 11 1 == 0) && sl.zero 12 16 &&
    sl.op 16 8 % 16 == 0 && sl.op 24 8 % 4 == 0 && (dest != 2 || sl.op 24 8 == 0) && sl.op 32 8 % 16 == 0 && lims ≤ 1024 &&
    (sl.op 32 8 == 0) == (lims == 0) && sl.zero 42 64

/-- PMU_LIST (08 R177 to R180). -/
def execPmuList (id : Nat) (items limits : List Byte) (s : State) : Host.Outcome State Fault Refusal :=
  .next <| withDesc s id (fun sl => sl.opc == 0x18) fun sl =>
    let count := sl.op 8 2
    let dest := sl.op 10 1
    let lims := sl.op 40 2
    let its := chunks 16 count (hostBytes items (16 * count))
    let ls := chunks 16 lims (hostBytes limits (16 * lims))
    let badItem := its.findIdx? fun it => !itemOk lims it
    let img := imageFor s none none
    let spent := its.findIdx? fun it => itemOver img it
    guarded s id
      [(!pmuListOk sl, Status.field, 0),
       (badItem.isSome, Status.field, badItem.getD 0),
       (ls.any fun l => !limitOk l, Status.field, 0),
       (dest == 1 && (regionHolding s [3, 6] (sl.op 24 8) (4 * count)).isNone, Status.length, 0),
       (its.any fun it => !sl.covers0 (2 ^ (itemChan it / 64)), Status.claim, 0),
       (spent.isSome, Status.consistency, spent.getD 0),
       (dest == 2 && (boundPort s 3 (sl.op 11 1)).isNone, Status.consistency, 0),
       (its.any fun it => inRecovery s (domChan (itemChan it)), Status.recovery, 0),
       (its.any fun it => excludedItem s (itemChan it) (itemMode it) (itemRange it), Status.margin, 0),
       (dest == 1 && !s.memUp, Status.testerFault, 0)]
      (park { s with pmu := s.pmu ++
          [{ slot := id, items := its, limits := ls, results := List.replicate count none }] } id .ending)

/-! ### Results (08 R174, R175, R182, R184; 20 R442, R458) -/

/-- Minimum SETTLE of a range in ns (08 R184). -/
def minSettle (range : Nat) : Nat :=
  match range with
  | 0 => 500000
  | 1 => 100000
  | 2 => 30000
  | 3 => 15000
  | _ => 10000

/-- The averager: round(sum × 64 / 2^k), ties to even (08 R174). -/
def averaged (sum : Int) (k : Nat) : Int := roundDiv (sum * 64) (2 ^ k)

/-- The ledger quantity of a measurement: PPMU_V, or the current range for FVMI (08 R182). -/
def pmuQty (n mode range : Nat) : Nat := if mode == 0 then 16 * n + 6 + range else 16 * n + 5

/-- The measured value with the factory and the user pair applied, rounded once (20 R442): µV, or FS / 2^23 for a
current. -/
def calibrated (s : State) (n mode range : Nat) (r : Int) : Int :=
  let off := chanRecOff n + (if mode == 0 then 0x118 + 16 * range else 0x108)
  let (gf, offF) := factoryPair s off
  let (gu, offU) := userPair s (pmuQty n mode range) 1
  let (d, u) : Nat × Int := if mode == 0 then (pmuFs range * 1000, 2 ^ 23) else (1, 1)
  roundDiv (gain8 gu (gain8 gf (r * d) + offF * u * 10 ^ 8) + offU * u * 10 ^ 16) (10 ^ 16 * d)

/-- VALUE of a result: a saturated ADC reads as the end of the scale; a calibrated value outside 24 bits, of which the
manual states no result, is a free value (08 R175; log entry 3). -/
def pmuValue (s : State) (n mode range k : Nat) (sum : Int) (overrange : Bool) : Int × State :=
  if overrange then (if sum ≥ 0 then 2 ^ 23 - 1 else -(2 ^ 23), s)
  else
    let v := calibrated s n mode range (averaged sum k)
    if -(2 ^ 23) ≤ v && v < 2 ^ 23 then (v, s)
    else
      let (w, s) := s.fresh
      (toSigned 24 w.toNat, s)

/-- The guard width k × U in 1/256 result unit (08 R182; 20 R458). -/
def pmuGuard (s : State) (n mode range : Nat) : Nat :=
  let q := pmuQty n mode range
  let u := uNow s q
  let units := if mode == 0 then (roundDiv (u * 2 ^ 23) (pmuFs range * 1000)).toNat else u
  (planOf s (qClass q)).k * units

/-- LIMIT_FAIL and GUARD_FAIL of a value (08 R182). -/
def limitFlags (s : State) (l : List Byte) (n mode range : Nat) (v : Int) : Nat :=
  let lo := fieldS l 0 4
  let hi := fieldS l 4 4
  if v < lo || v > hi then 2 ^ 28
  else if field l 8 1 == 1 then
    let g : Int := pmuGuard s n mode range
    if v * 256 < lo * 256 + g || v * 256 > hi * 256 - g then 2 ^ 29 else 0
  else 0

/-- The result word of an item (08 R175). In FNMV no clamp acts and the range has no effect, so neither CLAMPED nor the minimum
of R184 applies (08 R166, R169). -/
def pmuWord (s : State) (it : List Byte) (limit : Option (List Byte)) (sum : Int) (clamped overrange uncertain : Bool) :
    Word × State :=
  let n := itemChan it
  let mode := itemMode it
  let range := itemRange it
  let (v, s) := pmuValue s n mode range (itemK it) sum overrange
  let tests := match limit with
    | some l => limitFlags s l n mode range v
    | none => 0
  let short := mode != 2 && itemSettle it < minSettle range
  (BitVec.ofNat 32 (fromSigned 24 v + b2n (clamped && mode != 2) * 2 ^ 24 + b2n overrange * 2 ^ 25 + b2n short * 2 ^ 26 +
    b2n uncertain * 2 ^ 27 + tests), s)

/-! ### Execution (08 R180, R181) -/

/-- TCLK ticks of a number of ns, rounded up (1.6 per ns). -/
def nsTicks (ns : Nat) : Nat := (8 * ns + 4) / 5

/-- When an item that starts now gets the lane ADC: a scan gives it up at the end of its present sample (08 R176). -/
def itemStart (s : State) (lg : Nat) : Nat :=
  let l := s.lg lg
  if l.scanCur.isSome then l.due + (s.now - l.due + 799) / 800 * 800 else s.now

/-- PMU_ITEM_START (08 R176, R180 step 1, R181; 12 R273). -/
def execPmuItemStart (lg : Fin 64) (s : State) : Host.Outcome State Fault Refusal :=
  .next <|
    let l := s.lg lg
    match l.item, nextItem s lg with
    | none, some (id, i) =>
      let it := pmuItem s id i
      let ch := itemChan it
      if heldResult s lg then s
      else if isContained s (domChan ch) then setResult s id i (BitVec.ofNat 32 (2 ^ 31))
      else if (s.chan ch).st != .pmu then setResult s id i (BitVec.ofNat 32 (2 ^ 30))
      else
        let f : PmuForce := ⟨itemMode it, itemRange it, itemValue it⟩
        let change := rangeChanges (s.chan ch) f
        let at' := itemStart s lg
        let s := forceChan s ch f
        let s := s.updRun id fun r => { r with firstPos := some (r.firstPos.getD s.sweep.pos) }
        s.updLg lg fun l =>
          { l with item := some (id, i), phase := 0, due := at' + (if change then 7 else 2) * usTicks, uncertain := false,
                   scan := l.scanCur.getD l.scan, scanCur := none }
    | _, _ => s

/-- The step of the running item that a lane group is in has fallen due. -/
def itemDue (s : State) (lg phase : Nat) : Bool :=
  let l := s.lg lg
  l.item.isSome && l.phase == phase && l.due ≤ s.now

/-- Bytes of the running item of a lane group. -/
def runningItem (s : State) (lg : Nat) : List Byte := match (s.lg lg).item with
  | some (id, i) => pmuItem s id i
  | none => []

/-- PMU_SETTLE_BEGIN: the precision window opens (08 R180 step 2; 02 R44, R45). -/
def execPmuSettleBegin (lg : Fin 64) (s : State) : Host.Outcome State Fault Refusal :=
  .next <|
    if itemDue s lg 0 then
      let unc := converting s (lg.val / 16)
      let ns := itemSettle (runningItem s lg)
      s.updLg lg fun l => { l with phase := 1, due := l.due + nsTicks ns, uncertain := unc }
    else s

/-- PMU_SAMPLING_BEGIN (08 R180 step 3). -/
def execPmuSamplingBegin (lg : Fin 64) (s : State) : Host.Outcome State Fault Refusal :=
  .next <|
    if itemDue s lg 1 then
      let k := itemK (runningItem s lg)
      s.updLg lg fun l => { l with phase := 2, due := l.due + 2 ^ k * 800 }
    else s

/-- PMU_SAMPLING_END with the sum of the item's samples (08 R180 step 4, R181, R182). -/
def execPmuSamplingEnd (lg : Fin 64) (sum : Int) (clamped overrange : Bool) (s : State) :
    Host.Outcome State Fault Refusal :=
  .next <|
    match (if itemDue s lg 2 then (s.lg lg).item else none) with
    | some (id, i) =>
      let it := pmuItem s id i
      let limit := if itemLimit it == 0xFFFF then none else (pmuRun s id).bind fun r => r.limits[itemLimit it]?
      let (w, s) := pmuWord s it limit sum clamped overrange (s.lg lg).uncertain
      let after := s.updRun id fun r => { r with results := setNth r.results i (some w) }
      let direct := (nextItem after lg).any fun p => itemChan (pmuItem after p.1 p.2) == itemChan it
      raiseOwed (setResult (leaveItem s lg direct) id i w)
    | none => s

/-- PMU_RANGE_CHANGE_DONE (08 R170). -/
def execPmuRangeChangeDone (ch : Fin 512) (s : State) : Host.Outcome State Fault Refusal :=
  .next <| match (s.chan ch).rangeBusy with
    | some (_, t) => if t ≤ s.now then s.updChan ch fun c => { c with rangeBusy := none } else s
    | none => s

/-- PMU_SCAN_RESULT with the sum of the samples of the channel under scan; the scan goes on with the next (08 R174 to
R176). -/
def execPmuScanResult (lg : Fin 64) (sum : Int) (clamped overrange : Bool) (s : State) :
    Host.Outcome State Fault Refusal :=
  .next <|
    let k := s.settingN 2 lg 0x102
    let l := s.lg lg
    match l.scanCur with
    | some j =>
      if l.item.isSome || (nextItem s lg).isSome || s.now < l.due + 2 ^ k * 800 then s
      else
        let n := 8 * lg.val + j
        let f := (s.chan n).force.getD (staticForce s n)
        let (v, s) := pmuValue s n f.mode f.range k sum overrange
        let w := BitVec.ofNat 32 (fromSigned 24 v + b2n (clamped && f.mode != 2) * 2 ^ 24 + b2n overrange * 2 ^ 25)
        let s := s.updChan n fun c => { c with meas := w, measPos := s.sweep.pos }
        scanGo (s.updLg lg fun l => { l with scan := j, scanCur := none }) lg
    | none => s

end Sys2Proof.Machine
end

