-- ==== Sys2Proof/Machine/Dispatch.lean ====
section
/-! DEFINITION. The meaning of a command on everything but the queue: one arm per constructor of `Instr`. -/

namespace Sys2Proof.Machine

open Sys2Proof

def exec (i : Instr) (s : State) : Host.Outcome State Fault Refusal :=
  match i with
  | .nop id => Sys2Proof.Machine.execNop id s
  | .fence id => Sys2Proof.Machine.execFence id s
  | .memCopy id data blocks => Sys2Proof.Machine.execMemCopy id data blocks s
  | .memFill id blocks => Sys2Proof.Machine.execMemFill id blocks s
  | .stage id data => Sys2Proof.Machine.execStage id data s
  | .check id => Sys2Proof.Machine.execCheck id s
  | .apply id => Sys2Proof.Machine.execApply id s
  | .discard id => Sys2Proof.Machine.execDiscard id s
  | .segLoad id data vectors => Sys2Proof.Machine.execSegLoad id data vectors s
  | .burst id => Sys2Proof.Machine.execBurst id s
  | .burstCtlStop id => Sys2Proof.Machine.execBurstCtlStop id s
  | .burstCtlJump id => Sys2Proof.Machine.execBurstCtlJump id s
  | .siteMap id data channels => Sys2Proof.Machine.execSiteMap id data channels s
  | .pmuList id items limits => Sys2Proof.Machine.execPmuList id items limits s
  | .timArmArm id => Sys2Proof.Machine.execTimArmArm id s
  | .timArmDisarm id => Sys2Proof.Machine.execTimArmDisarm id s
  | .stampStream id => Sys2Proof.Machine.execStampStream id s
  | .acqArmArm id mask => Sys2Proof.Machine.execAcqArmArm id mask s
  | .acqArmStop id => Sys2Proof.Machine.execAcqArmStop id s
  | .streamOpen id => Sys2Proof.Machine.execStreamOpen id s
  | .streamClose id => Sys2Proof.Machine.execStreamClose id s
  | .awgSeq id data => Sys2Proof.Machine.execAwgSeq id data s
  | .awgWrite id data granules => Sys2Proof.Machine.execAwgWrite id data granules s
  | .awgCtlStart id => Sys2Proof.Machine.execAwgCtlStart id s
  | .awgCtlStop id => Sys2Proof.Machine.execAwgCtlStop id s
  | .awgCtlJump id => Sys2Proof.Machine.execAwgCtlJump id s
  | .awgCtlTrigger id => Sys2Proof.Machine.execAwgCtlTrigger id s
  | .dcsProfile id data => Sys2Proof.Machine.execDcsProfile id data s
  | .dcsCtlStart id => Sys2Proof.Machine.execDcsCtlStart id s
  | .dcsCtlStop id => Sys2Proof.Machine.execDcsCtlStop id s
  | .engLoad id data words => Sys2Proof.Machine.execEngLoad id data words s
  | .engRunStart id bind => Sys2Proof.Machine.execEngRunStart id bind s
  | .engRunStop id => Sys2Proof.Machine.execEngRunStop id s
  | .daymark id => Sys2Proof.Machine.execDaymark id s
  | .therm id => Sys2Proof.Machine.execTherm id s
  | .watch id => Sys2Proof.Machine.execWatch id s
  | .ledgerRead id entries => Sys2Proof.Machine.execLedgerRead id entries s
  | .planLoad id data => Sys2Proof.Machine.execPlanLoad id data s
  | .planClear id => Sys2Proof.Machine.execPlanClear id s
  | .auxXfer id tx rx => Sys2Proof.Machine.execAuxXfer id tx rx s
  | .loadHost id data entries => Sys2Proof.Machine.execLoadHost id data entries s
  | .loadFlash id data entries => Sys2Proof.Machine.execLoadFlash id data entries s
  | .capture id entries count => Sys2Proof.Machine.execCapture id entries count s
  | .storeFlash id => Sys2Proof.Machine.execStoreFlash id s
  | .clear id entries => Sys2Proof.Machine.execClear id entries s
  | .flashPageTimeout id => Sys2Proof.Machine.execFlashPageTimeout id s
  | .groupApply id => Sys2Proof.Machine.execGroupApply id s
  | .groupDaymark id => Sys2Proof.Machine.execGroupDaymark id s
  | .groupAlign id => Sys2Proof.Machine.execGroupAlign id s
  | .patchLoad id data => Sys2Proof.Machine.execPatchLoad id data s
  | .patchActivation => Sys2Proof.Machine.execPatchActivation s
  | .patchActivationTimeout => Sys2Proof.Machine.execPatchActivationTimeout s
  | .descriptorFetch ring bytes => Sys2Proof.Machine.execDescriptorFetch ring bytes s
  | .descriptorStart id => Sys2Proof.Machine.execDescriptorStart id s
  | .descriptorResume id => Sys2Proof.Machine.execDescriptorResume id s
  | .microwordIssue ctx busDone busError busData => Sys2Proof.Machine.execMicrowordIssue ctx busDone busError busData s
  | .microTrap ctx op => Sys2Proof.Machine.execMicroTrap ctx op s
  | .sqProducerDoorbell ring value => Sys2Proof.Machine.execSqProducerDoorbell ring value s
  | .cqConsumerDoorbell ring value => Sys2Proof.Machine.execCqConsumerDoorbell ring value s
  | .eqConsumerDoorbell ring value => Sys2Proof.Machine.execEqConsumerDoorbell ring value s
  | .strConsumerDoorbell ring value => Sys2Proof.Machine.execStrConsumerDoorbell ring value s
  | .sqAbortDoorbell ring value => Sys2Proof.Machine.execSqAbortDoorbell ring value s
  | .ringConfigWrite kind ring reg w => Sys2Proof.Machine.execRingConfigWrite kind ring reg w s
  | .hifBar4CfgWrite w => Sys2Proof.Machine.execHifBar4CfgWrite w s
  | .msixVectorUnmask vector => Sys2Proof.Machine.execMsixVectorUnmask vector s
  | .registerWrite bar offset size value => Sys2Proof.Machine.execRegisterWrite bar offset size value s
  | .highHalfLatchRead path bar offset size => Sys2Proof.Machine.execHighHalfLatchRead path bar offset size s
  | .bar4Read offset len => Sys2Proof.Machine.execBar4Read offset len s
  | .bar4Write offset data => Sys2Proof.Machine.execBar4Write offset data s
  | .thmDemandWrite w => Sys2Proof.Machine.execThmDemandWrite w s
  | .thmCfgWrite w => Sys2Proof.Machine.execThmCfgWrite w s
  | .thmLimitWrite n w => Sys2Proof.Machine.execThmLimitWrite n w s
  | .fltCfgWrite w => Sys2Proof.Machine.execFltCfgWrite w s
  | .fltAliveWrite sector w => Sys2Proof.Machine.execFltAliveWrite sector w s
  | .ledCfgWrite w => Sys2Proof.Machine.execLedCfgWrite w s
  | .ledRefvWrite w => Sys2Proof.Machine.execLedRefvWrite w s
  | .clkXtalWrite w => Sys2Proof.Machine.execClkXtalWrite w s
  | .refSelWrite w => Sys2Proof.Machine.execRefSelWrite w s
  | .grpEpochCtrlWrite w => Sys2Proof.Machine.execGrpEpochCtrlWrite w s
  | .seqTsViewWrite sector w => Sys2Proof.Machine.execSeqTsViewWrite sector w s
  | .memCfgWrite w => Sys2Proof.Machine.execMemCfgWrite w s
  | .auxCfgWrite w => Sys2Proof.Machine.execAuxCfgWrite w s
  | .mntNop f => Sys2Proof.Machine.execMntNop f s
  | .mntRead f => Sys2Proof.Machine.execMntRead f s
  | .mntWrite f => Sys2Proof.Machine.execMntWrite f s
  | .extest => Sys2Proof.Machine.execExtest s
  | .idcode => Sys2Proof.Machine.execIdcode s
  | .samplePreload => Sys2Proof.Machine.execSamplePreload s
  | .clamp => Sys2Proof.Machine.execClamp s
  | .highz => Sys2Proof.Machine.execHighz s
  | .extestPulse => Sys2Proof.Machine.execExtestPulse s
  | .extestTrain => Sys2Proof.Machine.execExtestTrain s
  | .bypass code => Sys2Proof.Machine.execBypass code s
  | .testLogicReset => Sys2Proof.Machine.execTestLogicReset s
  | .powerUpReset low straps => Sys2Proof.Machine.execPowerUpReset low straps s
  | .selftestDone t => Sys2Proof.Machine.execSelftestDone t s
  | .railInvalid rail uv => Sys2Proof.Machine.execRailInvalid rail uv s
  | .perstAssert => Sys2Proof.Machine.execPerstAssert s
  | .perstRelease => Sys2Proof.Machine.execPerstRelease s
  | .hotReset => Sys2Proof.Machine.execHotReset s
  | .functionLevelReset => Sys2Proof.Machine.execFunctionLevelReset s
  | .linkUp rate width flit aer => Sys2Proof.Machine.execLinkUp rate width flit aer s
  | .linkDown => Sys2Proof.Machine.execLinkDown s
  | .enterD3hot => Sys2Proof.Machine.execEnterD3hot s
  | .returnToD0 => Sys2Proof.Machine.execReturnToD0 s
  | .readyAfterHostReset => Sys2Proof.Machine.execReadyAfterHostReset s
  | .drvOc ch na since => Sys2Proof.Machine.execDrvOc ch na since s
  | .pinOv ch uv since => Sys2Proof.Machine.execPinOv ch uv since s
  | .pinUv ch uv since => Sys2Proof.Machine.execPinUv ch uv since s
  | .dacVerify ch dac err since => Sys2Proof.Machine.execDacVerify ch dac err since s
  | .lgOc lg na since => Sys2Proof.Machine.execLgOc lg na since s
  | .peRail die pos neg since => Sys2Proof.Machine.execPeRail die pos neg since s
  | .pmuLgOc lg na since => Sys2Proof.Machine.execPmuLgOc lg na since s
  | .sectorPll sector => Sys2Proof.Machine.execSectorPll sector s
  | .dieLink die => Sys2Proof.Machine.execDieLink die s
  | .awgOverCompliance n legN uv since => Sys2Proof.Machine.execAwgOverCompliance n legN uv since s
  | .awgOpenLoad n legN uv na since => Sys2Proof.Machine.execAwgOpenLoad n legN uv na since s
  | .awgPll n since => Sys2Proof.Machine.execAwgPll n since s
  | .digPll n => Sys2Proof.Machine.execDigPll n s
  | .dcsUnlock n => Sys2Proof.Machine.execDcsUnlock n s
  | .dcsRefLoss n => Sys2Proof.Machine.execDcsRefLoss n s
  | .refStopped since => Sys2Proof.Machine.execRefStopped since s
  | .engFault e cause mem addr => Sys2Proof.Machine.execEngFault e cause mem addr s
  | .ctrlRail permille since => Sys2Proof.Machine.execCtrlRail permille since s
  | .memPatternUe sector addr => Sys2Proof.Machine.execMemPatternUe sector addr s
  | .memChannel m since => Sys2Proof.Machine.execMemChannel m since s
  | .quietPeriodEnd domain => Sys2Proof.Machine.execQuietPeriodEnd domain s
  | .restorationResume domain => Sys2Proof.Machine.execRestorationResume domain s
  | .recoveryWaiting domain => Sys2Proof.Machine.execRecoveryWaiting domain s
  | .restored domain => Sys2Proof.Machine.execRestored domain s
  | .alivePeriodBoundary sector => Sys2Proof.Machine.execAlivePeriodBoundary sector s
  | .awgClrAsserted => Sys2Proof.Machine.execAwgClrAsserted s
  | .awgClrReleased => Sys2Proof.Machine.execAwgClrReleased s
  | .gfltNEdge asserted => Sys2Proof.Machine.execGfltNEdge asserted s
  | .gfltDriveEnd => Sys2Proof.Machine.execGfltDriveEnd s
  | .scheduledApply set => Sys2Proof.Machine.execScheduledApply set s
  | .applyRecoveryCheck set => Sys2Proof.Machine.execApplyRecoveryCheck set s
  | .daymarkCapture => Sys2Proof.Machine.execDaymarkCapture s
  | .daymarkBankValid => Sys2Proof.Machine.execDaymarkBankValid s
  | .sweepToothEdge falling t => Sys2Proof.Machine.execSweepToothEdge falling t s
  | .sweepIndexEdge falling t => Sys2Proof.Machine.execSweepIndexEdge falling t s
  | .toothTimeout => Sys2Proof.Machine.execToothTimeout s
  | .posSync pos rate arrival => Sys2Proof.Machine.execPosSync pos rate arrival s
  | .holdover => Sys2Proof.Machine.execHoldover s
  | .sweepLost => Sys2Proof.Machine.execSweepLost s
  | .posSyncDue => Sys2Proof.Machine.execPosSyncDue s
  | .prepare op set sweep pos => Sys2Proof.Machine.execPrepare op set sweep pos s
  | .applyFrame op pos second => Sys2Proof.Machine.execApplyFrame op pos second s
  | .commit op => Sys2Proof.Machine.execCommit op s
  | .cancel op => Sys2Proof.Machine.execCancel op s
  | .daymarkFrame op bank pos => Sys2Proof.Machine.execDaymarkFrame op bank pos s
  | .fenceFrame op visible => Sys2Proof.Machine.execFenceFrame op visible s
  | .ping gid t => Sys2Proof.Machine.execPing gid t s
  | .comp gid beacon line => Sys2Proof.Machine.execComp gid beacon line s
  | .tick stamp arrival => Sys2Proof.Machine.execTick stamp arrival s
  | .epoch offset => Sys2Proof.Machine.execEpoch offset s
  | .rdyNReleased => Sys2Proof.Machine.execRdyNReleased s
  | .rdyNTimeout => Sys2Proof.Machine.execRdyNTimeout s
  | .keeperSendApply => Sys2Proof.Machine.execKeeperSendApply s
  | .voteSlot g asserted => Sys2Proof.Machine.execVoteSlot g asserted s
  | .commitDecision => Sys2Proof.Machine.execCommitDecision s
  | .commitLost => Sys2Proof.Machine.execCommitLost s
  | .groupApplyDone => Sys2Proof.Machine.execGroupApplyDone s
  | .sysEpoch falling t => Sys2Proof.Machine.execSysEpoch falling t s
  | .vectorIssuePoint sector => Sys2Proof.Machine.execVectorIssuePoint sector s
  | .seqNop sector => Sys2Proof.Machine.execSeqNop sector s
  | .rpt sector => Sys2Proof.Machine.execRpt sector s
  | .loopBegin sector => Sys2Proof.Machine.execLoopBegin sector s
  | .loopEnd sector => Sys2Proof.Machine.execLoopEnd sector s
  | .seqCall sector => Sys2Proof.Machine.execSeqCall sector s
  | .seqRet sector => Sys2Proof.Machine.execSeqRet sector s
  | .seqJmp sector => Sys2Proof.Machine.execSeqJmp sector s
  | .matchOpen sector => Sys2Proof.Machine.execMatchOpen sector s
  | .matchEnd sector => Sys2Proof.Machine.execMatchEnd sector s
  | .waitSweep sector => Sys2Proof.Machine.execWaitSweep sector s
  | .waitPositionReached sector => Sys2Proof.Machine.execWaitPositionReached sector s
  | .mark sector => Sys2Proof.Machine.execMark sector s
  | .stallSafe sector => Sys2Proof.Machine.execStallSafe sector s
  | .halt sector => Sys2Proof.Machine.execHalt sector s
  | .sequencerDrainDone sector => Sys2Proof.Machine.execSequencerDrainDone sector s
  | .burstStart sector => Sys2Proof.Machine.execBurstStart sector s
  | .refillDataArrival sector => Sys2Proof.Machine.execRefillDataArrival sector s
  | .compareResultArrival sector period => Sys2Proof.Machine.execCompareResultArrival sector period s
  | .failRecordDrain sector => Sys2Proof.Machine.execFailRecordDrain sector s
  | .vectorPeriodStart sector => Sys2Proof.Machine.execVectorPeriodStart sector s
  | .driverEdge ch => Sys2Proof.Machine.execDriverEdge ch s
  | .compareStrobe ch => Sys2Proof.Machine.execCompareStrobe ch s
  | .compareWindowClose ch => Sys2Proof.Machine.execCompareWindowClose ch s
  | .blankTimerExpiry lg => Sys2Proof.Machine.execBlankTimerExpiry lg s
  | .comparatorCrossing ch x t code => Sys2Proof.Machine.execComparatorCrossing ch x t code s
  | .stampAlignmentDone ch => Sys2Proof.Machine.execStampAlignmentDone ch s
  | .stampMerge => Sys2Proof.Machine.execStampMerge s
  | .stampBlockFlush stream ch => Sys2Proof.Machine.execStampBlockFlush stream ch s
  | .windowGeneratorStart sector wg t => Sys2Proof.Machine.execWindowGeneratorStart sector wg t s
  | .winOpen sector wg => Sys2Proof.Machine.execWinOpen sector wg s
  | .winClose sector wg => Sys2Proof.Machine.execWinClose sector wg s
  | .pmuItemStart lg => Sys2Proof.Machine.execPmuItemStart lg s
  | .pmuSettleBegin lg => Sys2Proof.Machine.execPmuSettleBegin lg s
  | .pmuSamplingBegin lg => Sys2Proof.Machine.execPmuSamplingBegin lg s
  | .pmuSamplingEnd lg sum clamped overrange => Sys2Proof.Machine.execPmuSamplingEnd lg sum clamped overrange s
  | .pmuRangeChangeDone ch => Sys2Proof.Machine.execPmuRangeChangeDone ch s
  | .pmuScanResult lg sum clamped overrange => Sys2Proof.Machine.execPmuScanResult lg sum clamped overrange s
  | .digSample n v => Sys2Proof.Machine.execDigSample n v s
  | .decSample n v => Sys2Proof.Machine.execDecSample n v s
  | .acqStart n => Sys2Proof.Machine.execAcqStart n s
  | .acqPostDone n => Sys2Proof.Machine.execAcqPostDone n s
  | .flowBlockDeliver n dec => Sys2Proof.Machine.execFlowBlockDeliver n dec s
  | .tuDecision u => Sys2Proof.Machine.execTuDecision u s
  | .tuTimeout u slot => Sys2Proof.Machine.execTuTimeout u slot s
  | .tuHoldoffEnd u => Sys2Proof.Machine.execTuHoldoffEnd u s
  | .tbLineEdge line asserted t => Sys2Proof.Machine.execTbLineEdge line asserted t s
  | .tbPulseEnd line => Sys2Proof.Machine.execTbPulseEnd line s
  | .awgSequenceStart n => Sys2Proof.Machine.execAwgSequenceStart n s
  | .awgSegmentBoundary n => Sys2Proof.Machine.execAwgSegmentBoundary n s
  | .awgTrigger n t => Sys2Proof.Machine.execAwgTrigger n t s
  | .awgWaitRelease n => Sys2Proof.Machine.execAwgWaitRelease n s
  | .awgRefillArrival n badBeats => Sys2Proof.Machine.execAwgRefillArrival n badBeats s
  | .awgUnderrun n => Sys2Proof.Machine.execAwgUnderrun n s
  | .awgMarkEnd n => Sys2Proof.Machine.execAwgMarkEnd n s
  | .ddsPhaseReset n => Sys2Proof.Machine.execDdsPhaseReset n s
  | .dcsRampStart n => Sys2Proof.Machine.execDcsRampStart n s
  | .dcsRampStep n => Sys2Proof.Machine.execDcsRampStep n s
  | .dcsDwellEnd n => Sys2Proof.Machine.execDcsDwellEnd n s
  | .dcsLockDeclared n => Sys2Proof.Machine.execDcsLockDeclared n s
  | .dcsRetuneTimeout n => Sys2Proof.Machine.execDcsRetuneTimeout n s
  | .dcsRefGood n => Sys2Proof.Machine.execDcsRefGood n s
  | .engNop e => Sys2Proof.Machine.execEngNop e s
  | .mov e => Sys2Proof.Machine.execMov e s
  | .movi e => Sys2Proof.Machine.execMovi e s
  | .ld e => Sys2Proof.Machine.execLd e s
  | .st e => Sys2Proof.Machine.execSt e s
  | .add e => Sys2Proof.Machine.execAdd e s
  | .sub e => Sys2Proof.Machine.execSub e s
  | .addi e => Sys2Proof.Machine.execAddi e s
  | .and e => Sys2Proof.Machine.execAnd e s
  | .or e => Sys2Proof.Machine.execOr e s
  | .xor e => Sys2Proof.Machine.execXor e s
  | .shl e => Sys2Proof.Machine.execShl e s
  | .asr e => Sys2Proof.Machine.execAsr e s
  | .lsr e => Sys2Proof.Machine.execLsr e s
  | .cmp e => Sys2Proof.Machine.execCmp e s
  | .cmpi e => Sys2Proof.Machine.execCmpi e s
  | .macp e => Sys2Proof.Machine.execMacp e s
  | .macs e => Sys2Proof.Machine.execMacs e s
  | .clrp e => Sys2Proof.Machine.execClrp e s
  | .clrs e => Sys2Proof.Machine.execClrs e s
  | .stpa e => Sys2Proof.Machine.execStpa e s
  | .stsa e => Sys2Proof.Machine.execStsa e s
  | .sqrt e => Sys2Proof.Machine.execSqrt e s
  | .engIn e => Sys2Proof.Machine.execEngIn e s
  | .engOut e => Sys2Proof.Machine.execEngOut e s
  | .engJmp e => Sys2Proof.Machine.execEngJmp e s
  | .engCall e => Sys2Proof.Machine.execEngCall e s
  | .engRet e => Sys2Proof.Machine.execEngRet e s
  | .dup e => Sys2Proof.Machine.execDup e s
  | .loop e => Sys2Proof.Machine.execLoop e s
  | .lim e => Sys2Proof.Machine.execLim e s
  | .engHalt e => Sys2Proof.Machine.execEngHalt e s
  | .strBlockDeliver ring => Sys2Proof.Machine.execStrBlockDeliver ring s
  | .thermalConversionStart die => Sys2Proof.Machine.execThermalConversionStart die s
  | .thermalConversionEnd die readings => Sys2Proof.Machine.execThermalConversionEnd die readings s
  | .conversionTimeout die => Sys2Proof.Machine.execConversionTimeout die s
  | .forcedDemand die => Sys2Proof.Machine.execForcedDemand die s
  | .forcedCheck group => Sys2Proof.Machine.execForcedCheck group s
  | .selfCheckDone group found => Sys2Proof.Machine.execSelfCheckDone group found s
  | .marginEvaluation => Sys2Proof.Machine.execMarginEvaluation s
  | .xtalAgeUpdate steer => Sys2Proof.Machine.execXtalAgeUpdate steer s
  | .ageRateUpdate => Sys2Proof.Machine.execAgeRateUpdate s
  | .refInLocked means => Sys2Proof.Machine.execRefInLocked means s
  | .refInLoss lastEdge ppb => Sys2Proof.Machine.execRefInLoss lastEdge ppb s
  | .refInAccepted ppb => Sys2Proof.Machine.execRefInAccepted ppb s
  | .patrolScrub f => Sys2Proof.Machine.execPatrolScrub f s
  | .dieLinkReplay die => Sys2Proof.Machine.execDieLinkReplay die s
  | .gclkValid phase => Sys2Proof.Machine.execGclkValid phase s
  | .beaconCrcFailure => Sys2Proof.Machine.execBeaconCrcFailure s
  | .alignReply t => Sys2Proof.Machine.execAlignReply t s
  | .alignKeeperPulse t => Sys2Proof.Machine.execAlignKeeperPulse t s
  | .alignEcho t => Sys2Proof.Machine.execAlignEcho t s
  | .alignAbsent => Sys2Proof.Machine.execAlignAbsent s
  | .sweepHeld => Sys2Proof.Machine.execSweepHeld s
  | .sweepHoldRelease => Sys2Proof.Machine.execSweepHoldRelease s
  | .powerUp1msPoint pins => Sys2Proof.Machine.execPowerUp1msPoint pins s
  | .factoryCalibrationLoaded otp => Sys2Proof.Machine.execFactoryCalibrationLoaded otp s
  | .awgWaitingJump n => Sys2Proof.Machine.execAwgWaitingJump n s
  | .engBlockFlush e port => Sys2Proof.Machine.execEngBlockFlush e port s
  | .edgeBlankingEnd ch => Sys2Proof.Machine.execEdgeBlankingEnd ch s

end Sys2Proof.Machine
end

