-- ==== Sys2Proof/Machine/Tick.lean ====
section
/-! DEFINITION. One tick of TCLK in which no command acts: what `step` does on an empty queue. -/

namespace Sys2Proof.Machine

open Sys2Proof

/-- While a daymark is pending, the counters are kept as of the end of each tick (02 R39, R41; 15 R358). -/
def keepCounters (s t : State) : State :=
  { t with stg.daySnap := if dayPending s then some (t.now, dayCounters s) else none }

/-- Runs of BETWEEN that reach 1.25 ns in the ticks that are over are decided (03 R54). -/
def runTick (s : State) : State := forEach (Tab.keys s.chans) s fun n s => settleRun s n (s.now * 256)

/-- One tick of TCLK: the fault that a channel of DDR5 still owes is raised, a line that a pulse drives is asserted, the tick
number and the sweep advance, a fence token whose descriptors are done releases RDY_N, a port transfer whose last step has passed
completes, and runs of BETWEEN and what a synthesizer does at a falling edge or a PFD cycle fall due (log entry 2). -/
def idleTick (s : State) : State :=
  keepCounters s (runTick (dcsTick (auxTick (releaseFence (tickOnce (ownLines (raiseOwed s)))))))

end Sys2Proof.Machine
end

