-- ==== Sys2Proof/Machine/PinOps.lean ====
section
/-! DEFINITION. What a test pin sees of its channel: driver current, termination, active load (03 R49, R55, R56, R63). Currents
are in nanoamperes, positive out of the device; voltages in microvolts. -/

namespace Sys2Proof.Machine

open Sys2Proof

/-- The output impedance of a driver in milliohms: 50 Ω ± 2 Ω up to 40 mA, 50 Ω ± 5 Ω above; a part's own value within these
bounds (03 R49; 25 R514; log entry 5). -/
def zOut (n : Nat) (high : Bool) : Nat :=
  if high then 45000 + Config.zOutHigh n % 10001 else 48000 + Config.zOutLow n % 4001

/-- The current of a source at `level` behind the driver's output impedance into a pin at `pin`, clamped at 150 mA (03 R49). -/
def driverCurrent (n : Nat) (level pin : Int) : Int :=
  let i := truncDiv ((level - pin) * 1000000) (zOut n false)
  if i.natAbs ≤ 40000000 then i
  else
    let j := min 150000000 (max 40000000 (truncDiv ((level - pin) * 1000000) (zOut n true)).natAbs)
    if level < pin then -(j : Int) else j

/-- I_sink of the active load at a pin voltage: IOH from VCOM + 250 mV up, −IOL from VCOM − 250 mV down, linear between
(03 R55). -/
def loadSink (s : State) (n : Nat) (pin : Int) : Int :=
  let ioh := loadNa (loadCode (s.setting 1 n 8))
  let iol := loadNa (loadCode (s.setting 1 n 9))
  let x := pin - levelUv (levelCode (s.setting 1 n 0x00A))
  if x ≥ 250000 then ioh
  else if x ≤ -250000 then -iol
  else roundDiv ((ioh + iol) * (x + 250000)) 500000 - iol

/-- What the pin sees while the driver is off: 0 HIZ, 1 50 Ω to VTT, 2 the load; TERM in IDLE and ACTIVE, HIZ in the other
states, during a self-check and while every pin is high-impedance (03 R56, R63; 20 R454; 23 R491). -/
def pinTerm (s : State) (n : Nat) : Nat :=
  if (s.chan n).checking || !pinsDriven s then 0 else match (s.chan n).st with
  | .idle => s.settingN 1 n 0x00B
  | .active => s.settingN 1 n 0x00B
  | _ => 0

/-- The load is engaged: TERM is LOAD and the driver is off (03 R55, R56). -/
def loadEngaged (s : State) (n : Nat) (t : Int) : Bool := (drivenCode s n t).isNone && pinTerm s n == 2

/-- The current that driver, termination or load drive into a pin at `pin` at edge step t; pin leakage apart (03 R49, R55,
R56). -/
def pinCurrent (s : State) (n : Nat) (t pin : Int) : Int :=
  match drivenCode s n t with
  | some c => driverCurrent n (levelUv c) pin
  | none =>
    match pinTerm s n with
    | 1 => driverCurrent n (levelUv (levelCode (s.setting 1 n 4))) pin
    | 2 => -loadSink s n pin
    | _ => 0

/-! ### Where test pins lie, and how warm a die runs (25 R525, R528) -/

/-- The ball at depth `d` and position `e` of a side, as row and column (25 R528). -/
def sideBall (side d e : Nat) : Nat × Nat :=
  match side with
  | 0 => (d, e)
  | 1 => (e, 67 - d)
  | 2 => (67 - d, 67 - e)
  | _ => (67 - e, d)

/-- The ball of test pin TPn (25 R528). -/
def testPinBall (n : Nat) : Nat × Nat :=
  let k := n % 128
  sideBall (n / 128) (2 * (k / 32) + 1) (18 + k % 32)

/-- The ground ball of test pin TPn: one deeper, at the same position (25 R528). -/
def testPinGround (n : Nat) : Nat × Nat :=
  let k := n % 128
  sideBall (n / 128) (2 * (k / 32) + 2) (18 + k % 32)

/-- The junction temperature of die `die` (4 is the control die) from the lid's and the die's power, in hundredths of a degree and
in watts: 0.30 °C/W and 0.60 °C/W (25 R525). -/
def junctionTemp (die : Nat) (lid : Int) (watts : Nat) : Int := lid + (if die == 4 then 30 else 60) * watts

end Sys2Proof.Machine
end

