-- ==== Sys2Proof/Safety.lean ====
section
/-! DEFINITION. The terms in which statements speak of the block: which descriptor runs, canonical memory, a step that goes on. -/

namespace Sys2Proof.Machine

open Sys2Proof

/-- DDR5 contents are in canonical form. -/
abbrev State.memOk (s : State) : Prop := Memory.wf s.mem.cells = true

/-- A step that goes on. -/
def Runs (o : Host.Outcome State Fault Refusal) : Prop := ∃ s', o = .next s'

/-- Slot id holds descriptor sl, its routine runs untrapped in context c, no abort has reached it, and the device is neither
HALTED nor in SHUTDOWN: the conditions under which an opcode's own rules act. -/
abbrev State.Serves (s : State) (id c : Nat) (sl : Slot) : Prop :=
  s.slot id = some sl ∧ sl.st = .running c ∧ (s.ctx c).slot = some id ∧ sl.aborted = false ∧ s.stopped = false

/-- Messages reach the host at once: the link is up and the device in D0 (13 R286). -/
abbrev State.Linked (s : State) : Prop := s.host.up = true ∧ s.host.d3 = false

/-- The MSI-X message of a vector that is signalled now: one where the vector is unmasked (13 R307). -/
def msiOf (s : State) (v : Nat) (b : Bool) : List HMsg :=
  if b && Tab.get false s.host.msixUnmasked v then [msiMsg s v] else []

/-- The shadow write of a ring whose device index becomes i: none at shadow address 0 (13 R291). -/
def shadowOf (r : Ring) (i : Nat) : List HMsg := if r.shadow = 0 then [] else [.shadow r.shadow.toNat i]

/-- Sector n runs and its last issued vector, whose opcode has not acted, is i with opcode `opc` (06 R110). -/
abbrev State.Acts (s : State) (n opc : Nat) (i : Issued) : Prop :=
  (s.sec n).issued = some i ∧ ((s.sec n).st = .running ∨ (s.sec n).st = .padding) ∧ vOpc i.word = opc

/-- Sector n alone runs the burst b that it leads (06 R123). -/
abbrev State.Alone (s : State) (n : Nat) (b : Burst) : Prop :=
  (s.sec n).own = some b.slot ∧ s.burst b.slot = some b ∧ lockSectors b = [n] ∧ bitOf b.mask n = true

/-- q is num / den to the nearest whole number, ties to the even one (03 R46, R47). -/
def NearestEven (num : Int) (den : Nat) (q : Int) : Prop :=
  2 * (den * q - num).natAbs ≤ den ∧ (2 * (den * q - num).natAbs = den → q % 2 = 0)

/-! ### Measurement engines (12) -/

/-- Engine e runs, and its PC stands at the good word w of opcode `opc` that passes the load check (12 R261, R282). -/
abbrev State.AtWord (s : State) (e opc w : Nat) : Prop :=
  (s.eng e).st = .running ∧ (s.eng e).ending = none ∧ codeWord (s.eng e) (s.eng e).pc = w ∧ wOpc w = opc ∧
    engWordOk (codeWord (s.eng e)) (s.eng e).pc = true ∧ (s.eng e).bad.contains (0, (s.eng e).pc) = false

/-- The register files of an engine have the sizes of 12 R257. -/
abbrev Engine.Shaped (x : Engine) : Prop :=
  x.w.length = 8 ∧ x.p.length = 8 ∧ x.s.length = 8 ∧ x.q.length = 8 ∧ x.b.length = 8 ∧ x.pa.length = 4 ∧ x.sa.length = 8 ∧
    x.ptrAt.length = 24 ∧ x.paAt.length = 4 ∧ x.saAt.length = 8 ∧ x.sqrtAt.length = 8

/-- What reads back of v written to register d: all of it from W, the low half of it from P and Q, sign-extended from S (12
R257). -/
def readBack (d : Nat) (v : Word) : Word :=
  if d < 8 then v else if 16 ≤ d ∧ d < 24 then (v.setWidth 16).signExtend 32 else (v.setWidth 16).setWidth 32

/-- From x to y, register d alone was written with v, a pointer into its base as well; ST is not spoken of (12 R257). -/
def Engine.Wrote (x y : Engine) (d : Nat) (v : Word) : Prop :=
  (d < 0x20 → regGet y d = readBack d v) ∧ (8 ≤ d → d < 16 → regGet y (d + 0x1B) = readBack d v) ∧
  (∀ l, d = 0x21 → x.loop = some l → x.dup = none → x.pc ≠ l.stop → y.lc = v) ∧
  (∀ k, k ≤ 0x2A → k ≠ d → k ≠ 0x20 → k ≠ 0x21 → k ≠ 0x22 → (8 ≤ d → d < 16 → k ≠ d + 0x1B) → regGet y k = regGet x k)

/-- From x to y no register but ST, LC and PC changed. -/
def Engine.SameRegs (x y : Engine) : Prop :=
  ∀ k, k ≤ 0x2A → k ≠ 0x20 → k ≠ 0x21 → k ≠ 0x22 → regGet y k = regGet x k

/-- From x to y the memories, accumulators, ports, counters of failures and the run stay. -/
def Engine.KeepsRest (x y : Engine) : Prop :=
  y.code = x.code ∧ y.u = x.u ∧ y.v = x.v ∧ y.limits = x.limits ∧ y.bad = x.bad ∧ y.pa = x.pa ∧ y.sa = x.sa ∧ y.calls = x.calls ∧
    y.ins = x.ins ∧ y.outs = x.outs ∧ y.st = x.st ∧ y.slot = x.slot ∧ y.ending = x.ending ∧ y.runFails = x.runFails ∧
    y.limitFails = x.limitFails ∧ y.guardFails = x.guardFails

/-- Outside a repetition the next word follows (12 R262). -/
def Engine.InOrder (x y : Engine) : Prop := x.dup = none → x.loop = none → y.pc = (x.pc + 1) % 16384

/-- From st to st' the bits listed are as given and every other bit stays (12 R258). -/
def StBits (st st' : Word) (l : List (Nat × Bool)) : Prop :=
  (∀ p ∈ l, st'.getLsbD p.1 = p.2) ∧ ∀ i, (∀ p ∈ l, i ≠ p.1) → st'.getLsbD i = st.getLsbD i

/-- An ALU command at a word w: DST takes the result where the opcode writes one; Z, N and V follow; the rest stays (12 R257,
R258, R262). -/
def AluRuns (s : State) (e : Nat) (c : Instr) (w opc : Nat) (imm put : Bool) (op : Word → Word → Word × Bool) : Prop :=
  s.AtWord e opc w → (s.eng e).Shaped →
    let x := s.eng e
    let d := bits w 41 36
    let r := op (regGet x d) (if imm then BitVec.ofNat 32 (bits w 31 0) else regGet x (bits w 35 30))
    ∃ y, exec c s = .next (s.updEng e fun _ => y) ∧ x.KeepsRest y ∧ x.InOrder y ∧
      (put = true → x.Wrote y d r.1) ∧ (put = false → x.SameRegs y) ∧
      StBits (if put = true ∧ d = 0x20 then r.1 &&& 0x73FF else x.stReg) y.stReg [(0, r.1 == 0), (1, r.1.msb), (2, r.2)]

/-- The result of a MAC's one enabled move in the registers W and in its bank (12 R264, R271); a move is (EN, DIR, WREG, PSEL, SSEL,
MODE). -/
def loadsW (m : Bool × Bool × Nat × Nat × Nat × Nat) (k : Nat) : Bool := m.1 && !m.2.1 && m.2.2.1 == k
/-- The move steps pointer k. -/
def stepsP (m : Bool × Bool × Nat × Nat × Nat × Nat) (k : Nat) : Bool := m.1 && m.2.2.2.2.2 != 0 && m.2.2.2.1 == k

/-- From x to y the two moves and the third operand of a MAC word w had their effect, with every operand as it stood before, and
no other register, base, stride, length or bank word changed (12 R259, R261, R264, R270, R271). -/
def Engine.Moved (x y : Engine) (w : Nat) : Prop :=
  let u := moveOf w 30
  let v := moveOf w 15
  (∀ k, k < 8 → y.w[k]? = if loadsW u k then some (bankGet x false (ptrAddr x u.2.2.2.1))
    else if loadsW v k then some (bankGet x true (ptrAddr x v.2.2.2.1)) else x.w[k]?) ∧
  (∀ k, k < 8 → y.p[k]? = if stepsP u k then some (modePtr x k u.2.2.2.2.1 u.2.2.2.2.2)
    else if stepsP v k then some (modePtr x k v.2.2.2.2.1 v.2.2.2.2.2)
    else if bitOf w 34 ∧ bits w 33 31 = k then some (stepPtr x k 1 16384) else x.p[k]?) ∧
  (∀ a, bankGet y false a = if u.1 ∧ u.2.1 ∧ a = ptrAddr x u.2.2.2.1 then (x.w[u.2.2.1]?).getD 0 else bankGet x false a) ∧
  (∀ a, bankGet y true a = if v.1 ∧ v.2.1 ∧ a = ptrAddr x v.2.2.2.1 then (x.w[v.2.2.1]?).getD 0 else bankGet x true a) ∧
  y.s = x.s ∧ y.q = x.q ∧ y.b = x.b ∧ y.code = x.code ∧ y.limits = x.limits ∧ y.calls = x.calls ∧ y.ins = x.ins ∧
  y.outs = x.outs ∧ y.st = x.st ∧ y.slot = x.slot

/-- None of the words that a MAC word w reads is uncorrectable (12 R282). -/
def macClean (x : Engine) (w : Nat) : Prop :=
  moveBad x false (moveOf w 30) = false ∧ moveBad x true (moveOf w 15) = false ∧
    (bitOf w 34 = true → x.bad.contains (0, ((x.p[bits w 33 31]?).getD 0).toNat % 16384) = false)

/-- The second multiplicand's word of a MAC: a W register, or the code-store word at pointer F2 (12 R264). -/
def secondOf (x : Engine) (w : Nat) : Nat :=
  if bitOf w 34 then codeWord x (((x.p[bits w 33 31]?).getD 0).toNat % 16384) else ((x.w[bits w 33 31]?).getD 0).toNat

/-- A product of two signed operands of n bits under FRAC, and whether it overflowed (12 R265). -/
def productOf (n : Nat) (frac : Bool) (a b : Int) : Int × Bool :=
  if frac = true ∧ a = -(2 ^ (n - 1) : Int) ∧ b = -(2 ^ (n - 1) : Int) then (2 ^ (2 * n - 1) - 1, true)
  else (if frac then 2 * (a * b) else a * b, false)

/-- What STPA and STSA store of an accumulator, and whether it saturated, under RND and SAT (12 R267). -/
def StoredAs (st : Word) (acc : Int) (shift n : Nat) (v : Word) (sat : Bool) : Prop :=
  let r := if st.getLsbD 13 then roundDiv acc (2 ^ shift) else acc / 2 ^ shift
  (-(2 ^ (n - 1) : Int) ≤ r → r < 2 ^ (n - 1) → v.toInt = r ∧ sat = false) ∧
  (2 ^ (n - 1) ≤ r → st.getLsbD 14 = true → v.toInt = 2 ^ (n - 1) - 1 ∧ sat = true) ∧
  (r < -(2 ^ (n - 1) : Int) → st.getLsbD 14 = true → v.toInt = -(2 ^ (n - 1) : Int) ∧ sat = true) ∧
  ((2 ^ (n - 1) ≤ r ∨ r < -(2 ^ (n - 1) : Int)) → st.getLsbD 14 = false → v = (BitVec.ofInt n r).signExtend 32 ∧ sat = false)

end Sys2Proof.Machine
end

