-- ==== Sys2Proof/Certificates/Slice0/Obligations.lean ====
section
/-! DEFINITION. The statements for the provers. Where a statement says what a descriptor does, `Serves` says that its routine
runs; the chapters of the manual are named by their number. -/

open Sys2Proof Sys2Proof.Machine

/-! ### Steps and the queue -/

/-- A step takes the command at the front of the queue and runs it with the queue's rest. -/
def Obligations.StepRunsFrontCommand : Prop :=
  ∀ (c : Instr) (q : List Instr) (s : State), s.pending = c :: q → step s = exec c { s with pending := q }

/-- Log entry 2 (the model's choice): on an empty queue one tick of TCLK passes. From SERVICE on the tick number advances by 1 and
the sweep by its tick's step; before SERVICE they stay. Where no port transfer, fence token, memory channel, pulse on a released
line, open compare window or synthesizer has anything due, nothing else changes but the counters that are kept, as they stood,
while a daymark is pending. -/
def Obligations.EmptyQueueTicks : Prop :=
  (∀ s : State, s.pending = [] →
    ∃ t, step s = .next t ∧ t.now = s.now + 1 ∧ t.pending = [] ∧
      t.tick = (if s.running then s.tick + 1 else s.tick) ∧ t.sweep = (if s.running then sweepTick s.sweep else s.sweep)) ∧
  (∀ s : State, s.pending = [] → s.aux.busy = none → s.grp.fence = none → (∀ n, openWindow (s.chan n) = none) →
    (∀ m, (s.memChan m).owed = false) → (∀ k, drivesLine s k = true → (s.line k).asserted = true) →
    (∀ n, (s.dcs n).oNext = none ∧ (s.dcs n).retuneAt = none ∧ ((s.dcs n).ramp.bind Ramp.stopAt) = none) →
    let t := { s with now := s.now + 1, tick := if s.running then s.tick + 1 else s.tick,
                      sweep := if s.running then sweepTick s.sweep else s.sweep }
    step s = .next { t with stg.daySnap := if dayPending s then some (t.now, dayCounters s) else none })

/-! ### Completions and events (13 R303 to R307; 14 R317) -/

/-- 13 R303, R291 and 14 R317: a descriptor that completes, outside an abort and with the host reachable, leaves its slot; one
entry with its tag, ring, status, LATE, DETAIL and SWEEP goes to the producer slot of the bound CQ, then the shadow, then the CQ's
message where IRQ_ALL or the descriptor's IRQ asks for one; the reserved slot is used up; every other held descriptor stays. 17
R385: the end of a parked one is kept while no context is free. 13 R304 to R306: an event whose route is enabled and whose EQ is
enabled and has room is entered at the producer slot with the position of its detection, the shadow follows, then the EQ's
message; a disabled route or EQ drops it; a full EQ loses it and counts it. 14 R317 and 13 R304: the 16 bytes of a completion
entry and of an event entry; 00 R7: a field of several bytes is little-endian. -/
def Obligations.MessagesReachTheHost : Prop :=
  (∀ (s : State) (id status detail : Nat) (pos : Pos) (late : Bool) (sl : Slot),
    s.slot id = some sl → s.Linked → sl.aborted = false → (s.ring .sq sl.ring).abortTo = none →
    (waitsCtx s sl = true → sl.outcome = none →
      complete s id status detail pos late = s.updSlot id fun x => { x with outcome := some ⟨status, detail, pos, late⟩ }) ∧
    (waitsCtx s sl = false → sl.outcome = none →
    let q := (s.ring .sq sl.ring).cq
    let r := s.ring .cq q
    let t := complete s id status detail pos late
    t.slot id = none ∧ (∀ j, j ≠ id → t.slot j = s.slot j) ∧
    (t.ring .cq q).prod = r.after r.prod ∧ (t.ring .cq q).count = r.count - 1 ∧
    t.host.out = s.host.out ++ [.completion (r.base.toNat + 16 * r.prod) ⟨sl.tag, sl.ring, status, late, detail % 2 ^ 32, pos⟩] ++
      shadowOf r (r.after r.prod) ++ msiOf s r.vector (r.irqAll || bitOf sl.flags 1))) ∧
  (∀ (s : State) (id kind cause data : Nat), s.Linked →
    let route := Tab.get 0 s.host.route id
    let r := s.ring .eq (route % 64)
    ((route < 64 ∨ r.enable = false) → post s id kind cause data = s) ∧
    (64 ≤ route → r.enable = true → r.full = true →
      post s id kind cause data =
        s.setRing .eq (route % 64) { r with count := incSat 16 r.count, lost := incSat 32 r.lost }) ∧
    (64 ≤ route → r.enable = true → r.full = false → r.lost = 0 →
      (post s id kind cause data).host.out =
        s.host.out ++ [.event (r.base.toNat + 16 * r.prod) ⟨id, kind, cause, data % 2 ^ 32, s.sweep.pos⟩] ++
          shadowOf r (r.after r.prod) ++ msiOf s r.vector true ∧
      ((post s id kind cause data).ring .eq (route % 64)).prod = r.after r.prod)) ∧
  ((∀ c : Completion,
    (HMsg.write (.completion 0 c)).2.length = 16 ∧ field c.bytes 0 2 = c.tag % 65536 ∧ field c.bytes 2 1 = c.ring % 256 ∧
    field c.bytes 3 1 = c.status % 128 + 128 * b2n c.late ∧ field c.bytes 4 4 = c.detail % 2 ^ 32 ∧
    field c.bytes 8 8 = c.sweep.toNat) ∧
  (∀ e : Event,
    (HMsg.write (.event 0 e)).2.length = 16 ∧ field e.bytes 0 2 = e.source % 65536 ∧ field e.bytes 2 1 = e.kind % 256 ∧
    field e.bytes 3 1 = e.cause % 256 ∧ field e.bytes 4 4 = e.data % 2 ^ 32 ∧ field e.bytes 8 8 = e.sweep.toNat))

/-! ### Fetch, start and resume (13 R294, R296; 14 R314; 17 R385) -/

/-- 13 R302: the order of grants. Of two rings that are ready to fetch and have waited through fewer than 64 grants, the one of
the lower class number, or of the same class and the lower ring number, goes first; a ring that has waited through 64 goes before
one that has not. A descriptor without the grant of a context does not start; one of a lower class number goes first, then the
lower ring, then the lower TAG. A grant counts against every other ready ring. 13 R294, 17 R385 and R394: DESCRIPTOR_FETCH,
DESCRIPTOR_START and DESCRIPTOR_RESUME. A fetch that has the grant puts the next descriptor of the ring in a slot of its own and
reserves a CQ slot; a start or a resume that has the grant gives a descriptor the free context that serves it, with the sector
epochs of that instant, and one whose work has ended while it was parked then completes as that work ended; a fetched descriptor
whose header is bad is refused with FIELD, one reserved to the keeper on a worker with ROLE. 13 R296 and R297: a descriptor may
start only when every earlier descriptor of its ring whose claim overlaps its own has completed, and an ORDERED one only when
every earlier one has. -/
def Obligations.DescriptorsStartInClaimOrder : Prop :=
  ((∀ (s : State) (n m : Fin 256) (bytes : List Byte), m ≠ n → fetchReady s m = true →
    Tab.get 0 s.host.passed n.val < 64 →
    ((Tab.get 0 s.host.passed m.val < 64 ∧ ((s.ring .sq m).cls < (s.ring .sq n).cls ∨
        ((s.ring .sq m).cls = (s.ring .sq n).cls ∧ m.val < n.val))) ∨
      (64 ≤ Tab.get 0 s.host.passed m.val ∧ (s.ring .sq m).cls ≤ 3)) →
    exec (.descriptorFetch n bytes) s = .next s) ∧
  (∀ (s : State) (n m : Fin 256) (bytes : List Byte), fetchGranted s n = true → m ≠ n → fetchReady s m = true →
    ∃ t, exec (.descriptorFetch n bytes) s = .next t ∧ Tab.get 0 t.host.passed n.val = 0 ∧
      Tab.get 0 t.host.passed m.val = Tab.get 0 s.host.passed m.val + 1) ∧
  (∀ (s : State) (id j : Nat) (sl e : Slot), s.slot id = some sl → s.slot j = some e → j ≠ id → canStart s j e = true →
    e.tag < 65536 → sl.tag < 65536 → e.ring < 256 → sl.ring < 256 → e.seq < 2 ^ 64 → sl.seq < 2 ^ 64 →
    ((s.ring .sq e.ring).cls < (s.ring .sq sl.ring).cls ∨
      ((s.ring .sq e.ring).cls = (s.ring .sq sl.ring).cls ∧
        (e.ring < sl.ring ∨ (e.ring = sl.ring ∧ (e.tag < sl.tag ∨ (e.tag = sl.tag ∧ e.seq < sl.seq)))))) →
    exec (.descriptorStart id) s = .next s)) ∧
  ((∀ (s : State) (ring : Fin 256) (bytes : List Byte), fetchGranted s ring = true → (s.ring .sq ring).abortTo = none →
    let r := s.ring .sq ring
    ∃ t sl, exec (.descriptorFetch ring bytes) s = .next t ∧ t.slot s.csq.nextSlot = some sl ∧ sl.bytes = bytes ∧
      sl.ring = ring ∧ sl.st = .waiting ∧ sl.seq = r.total ∧ (∀ j, j ≠ s.csq.nextSlot → t.slot j = s.slot j) ∧
      (t.ring .sq ring).fetched = r.after r.fetched ∧ (t.ring .cq r.cq).count = (s.ring .cq r.cq).count + 1 ∧
      { t with host := s.host, csq := s.csq } = s) ∧
  (∀ (s : State) (id c : Nat) (sl : Slot), s.slot id = some sl → canStart s id sl = true → startGranted s id sl = true →
    headerFails sl = false → roleFails s sl = false → freeCtx s = some c →
    ∃ t sl', exec (.descriptorStart id) s = .next t ∧ t.slot id = some sl' ∧ sl'.bytes = sl.bytes ∧ sl'.st = .running c ∧
      sl'.epochs = epochsNow s ∧ (t.ctx c).slot = some id ∧ { t with csq := s.csq } = s) ∧
  (∀ (s : State) (id : Nat) (sl : Slot), s.slot id = some sl → canStart s id sl = true → startGranted s id sl = true →
    headerFails sl = true →
    exec (.descriptorStart id) s = .next (done s id Status.field 0)) ∧
  (∀ (s : State) (id : Nat) (sl : Slot), s.slot id = some sl → canStart s id sl = true → startGranted s id sl = true →
    headerFails sl = false → roleFails s sl = true → exec (.descriptorStart id) s = .next (done s id Status.role 0)) ∧
  (∀ (s : State) (id c : Nat) (sl : Slot) (w : Wait), s.slot id = some sl → sl.st = .parked w → waitOver s id sl w = true →
    startGranted s id sl = true → freeCtx s = some c →
    (sl.outcome = none → ∃ t sl', exec (.descriptorResume id) s = .next t ∧ t.slot id = some sl' ∧ sl'.bytes = sl.bytes ∧
      sl'.st = .running c ∧ sl'.epochs = epochsNow s ∧ (t.ctx c).slot = some id ∧ { t with csq := s.csq } = s) ∧
    (∀ x, sl.outcome = some x → ∃ t, exec (.descriptorResume id) s = .next t ∧ t.slot id = none ∧
      exec (.descriptorResume id) s = .next (complete (launch s c id) id x.status x.detail x.sweep x.late)))) ∧
  (∀ (s : State) (id j : Nat) (sl e : Slot), s.slot id = some sl → s.slot j = some e → e.ring = sl.ring → e.seq < sl.seq →
    (claimsOverlap e sl = true ∨ bitOf sl.flags 0 = true) → exec (.descriptorStart id) s = .next s)

/-! ### Microwords and traps (17 R387 to R397) -/

/-- 17 R384, R389, R390 and R397: MICROWORD_ISSUE. A context whose turn it is not issues nothing. A word of odd parity, one with a
reserved ALU_OP or BUS_OP and one without a next address are machine checks at the word's address. Any other word with no bus
operation, a read or a write to the host takes the context to the next address through the match registers, or, at a WAIT, keeps
it there until COND holds; PARK parks the routine, DONE ends it, and both leave the context; other contexts stay. A write to a
unit goes to that register, one to DDR5 to memory. 17 R391 to R395: MICRO_TRAP. A FAULT trap that a context owes its routine saves
the routine's frame, the count of its items and the epochs owed with it, and goes to the trap routine (its address: a constant of
the part); without one that is owed, in an atomic sequence or under three frames, nothing happens. A return restores the frame; an
ABORT trap completes an aborted routine ABORTED; an URGENT trap puts the preempting routine in the victim's context. -/
def Obligations.MicrowordsAndTraps : Prop :=
  (∀ (s : State) (c : Fin 8) (busDone busError : Bool) (busData : Word),
    let s0 := enterCtx7 s c
    let x := s0.ctx c
    let w := fetchMicro s0 x.pc.toNat
    let seq := mwBits w 19 16
    let bus := mwBits w 67 64
    let s' := { s0 with csq.turn7 := c.val == 7, csq.turn := if c.val = 7 then s0.csq.turn else c.val }
    let lc0 : BitVec 24 := (x.lc[mwBits w 26 25]?).getD 0
    let cond := mwCond s0 x (mwBits w 24 20) busDone busError
    let next := nextMicro x w cond (if seq = 6 then lc0 - 1 else lc0).toNat
    (mayIssue s c = false → exec (.microwordIssue c busDone busError busData) s = .next s) ∧
    (mayIssue s c = true → parityOk w = false →
      exec (.microwordIssue c busDone busError busData) s = .next (machineCheck s' x.pc.toNat 40)) ∧
    (mayIssue s c = true → parityOk w = true → (11 ≤ mwBits w 35 32 ∨ 8 ≤ bus ∨ next = none) →
      ∃ f, exec (.microwordIssue c busDone busError busData) s = .next (machineCheck { s' with free := f } x.pc.toNat 41)) ∧
    (mayIssue s c = true → parityOk w = true → mwBits w 35 32 < 11 → bus < 8 → next ≠ none → x.waits = true → cond = false →
      ∃ f, exec (.microwordIssue c busDone busError busData) s = .next { s' with free := f }) ∧
    (mayIssue s c = true → parityOk w = true → mwBits w 35 32 < 11 → bus = 0 → next ≠ none → x.waits = true → cond = true →
      ∃ t, exec (.microwordIssue c busDone busError busData) s = .next t ∧ (t.ctx c).waits = false ∧
        (t.ctx c).pc = BitVec.ofNat 15 (matched s0 (x.pc.toNat + 1)) ∧ (∀ d, d ≠ c.val → t.ctx d = s.ctx d)) ∧
    (∀ a stack id sl, mayIssue s c = true → parityOk w = true → mwBits w 35 32 < 11 → bus ∈ [0, 1, 3, 4, 5] →
      next = some (a, stack) → x.waits = false → x.slot = some id → s.slot id = some sl → sl.st = .running c →
      (seq = 9 → ∃ t sl', exec (.microwordIssue c busDone busError busData) s = .next t ∧ t.slot id = some sl' ∧
        sl'.st = .parked .micro ∧ sl'.pc = x.pc ∧ (t.ctx c).slot = none) ∧
      (seq = 10 → ∃ t sl', exec (.microwordIssue c busDone busError busData) s = .next t ∧ t.slot id = some sl' ∧
        sl'.st = .ended ∧ (t.ctx c).slot = none)) ∧
    (∀ a stack, mayIssue s c = true → parityOk w = true → mwBits w 35 32 < 11 → bus ∈ [0, 1, 3, 4, 5] → next = some (a, stack) →
      x.waits = false → seq ≠ 9 → seq ≠ 10 →
      ∃ t, exec (.microwordIssue c busDone busError busData) s = .next t ∧
        (t.ctx c).pc = BitVec.ofNat 15 (matched s0 a) ∧ (t.ctx c).stack = stack ∧
        (t.ctx c).waits = (seq == 8 && !cond) ∧ (∀ d, d ≠ c.val → t.ctx d = s.ctx d))) ∧
  (∀ (s : State) (c : Nat) (x : Ctx) (w : BitVec 132) (busDone : Bool) (busData : Word), mwBits w 28 28 = 0 →
    let reg (i : Nat) : Word := (x.mx[i % 16]?).getD 0
    let data := (x.mx[mwBits w 47 44]?).getD 0
    let addr := ((reg (mwBits w 43 40)).toNat + (reg (mwBits w 43 40 + 1)).toNat * 2 ^ 32 + mwBits w 63 48) % 2 ^ 64
    (mwBits w 67 64 = 2 → mwBus s c x w busDone busData =
      bar0Write { s with csq.posts := s.csq.posts ++ [(2, mwBits w 99 68, data)] } .pcie (mwBits w 99 68) 4 data.toNat) ∧
    (mwBits w 67 64 = 6 → s.memUp = true → addr + 4 ≤ s.mem.capacity * 2 ^ 30 →
      mwBus s c x w busDone busData = raiseOwed (rmwWrite s addr (leBytes 4 data.toNat)).1)) ∧
  ((∀ (s : State) (c : Fin 8) (d : BitVec 10),
    let owed := (s.ctx c).due.find? fun e => some e.1 == ctxOwner s c && e.2.1 == d.toNat
    ((owed = none ∨ (s.ctx c).atomic = true ∨ 3 ≤ (s.ctx c).frames.length) → exec (.microTrap c (.fault d)) s = .next s) ∧
    ∀ (id : Nat) (sl : Slot) (e : Nat × Nat × List Nat), owed = some e → (s.ctx c).slot = some id → s.slot id = some sl →
      (s.ctx c).atomic = false → (s.ctx c).frames.length < 3 →
    ∃ t f, exec (.microTrap c (.fault d)) s = .next t ∧ (t.ctx c).slot = none ∧
      (t.ctx c).frames = (s.ctx c).frames ++ [f] ∧ f.slot = some id ∧ f.pc = (s.ctx c).pc ∧ f.stack = (s.ctx c).stack ∧
      f.lc = (s.ctx c).lc ∧ f.mx = (s.ctx c).mx ∧ f.progress = BitVec.ofNat 32 sl.progress ∧ f.epochs = e.2.2 ∧
      (t.ctx c).pc = BitVec.ofNat 15 (matched s Config.trapEntry.toNat) ∧ t.slot id = some sl) ∧
  (∀ (s : State) (c : Fin 8) (id : Nat) (sl : Slot) (f : TrapFrame), (s.ctx c).slot = none →
    (s.ctx c).frames.getLast? = some f → f.slot = some id → s.slot id = some sl → f.aborted = false → sl.aborted = false →
    (f.test && canDisturb sl && epochChanged s sl f.epochs) = false →
    ∃ t, exec (.microTrap c .ret) s = .next t ∧ (t.ctx c).slot = some id ∧ (t.ctx c).pc = f.pc ∧ (t.ctx c).stack = f.stack ∧
      (t.ctx c).lc = f.lc ∧ (t.ctx c).mx = f.mx ∧ (t.ctx c).frames = (s.ctx c).frames.dropLast) ∧
  (∀ (s : State) (c : Fin 8) (id : Nat) (sl : Slot), (s.ctx c).slot = some id → s.slot id = some sl →
    sl.aborted = true → (s.ctx c).atomic = false → (s.ctx c).frames.length < 3 →
    exec (.microTrap c .abort) s = .next (done (leaveItems s id sl sl.progress) id Status.aborted sl.progress)) ∧
  (∀ (s : State) (c : Fin 8) (id : Nat) (sl : Slot), s.slot id = some sl → canStart s id sl = true →
    classOfSlot s id = 0 → headerFails sl = false → roleFails s sl = false → freeCtx s = none →
    urgentVictim s = some c.val → (s.ctx c).atomic = false →
    ∃ t sl', exec (.microTrap c (.urgent id)) s = .next t ∧ (t.ctx c).slot = some id ∧
      (t.ctx c).frames.length = (s.ctx c).frames.length + 1 ∧ t.slot id = some sl' ∧ sl'.st = .running c.val))

/-! ### The host's registers, rings and windows (13, 15 R356) -/

/-- 13 R292: SQ_PRODUCER_DOORBELL and the consumer doorbells of CQ, EQ and STR rings. A value that keeps the index rules becomes the
ring's index and changes no other ring; any other is ignored and raises event 0x0484 with the doorbell's BAR2 offset. 13 R301: a 1
at the abort doorbell of a ring whose fetched descriptors have not started completes them all ABORTED; the ring stays enabled, and
no descriptor of the ring is held any more. A 1 at a disabled ring raises event 0x0484. -/
def Obligations.DoorbellsAndAborts : Prop :=
  ((∀ (s : State) (n : Fin 256) (v : BitVec 64), let r := s.ring .sq n
    (r.enable = true → v.toNat < r.size → r.dist r.cons r.prod ≤ r.dist r.cons v.toNat →
      ∃ t, exec (.sqProducerDoorbell n v) s = .next t ∧ (t.ring .sq n).prod = v.toNat ∧ (t.ring .sq n).cons = r.cons ∧
        (t.ring .sq n).fetched = r.fetched ∧ ∀ k m, (k ≠ .sq ∨ m ≠ n.val) → t.ring k m = s.ring k m) ∧
    ((r.enable = false ∨ r.size ≤ v.toNat ∨ r.dist r.cons v.toNat < r.dist r.cons r.prod) →
      exec (.sqProducerDoorbell n v) s = .next (notice s 0x0484 (8 * n)))) ∧
  (∀ (s : State) (n : Fin 256) (v : BitVec 64), let r := s.ring .cq n
    (r.enable = true → v.toNat < r.size → r.dist r.cons v.toNat ≤ r.dist r.cons r.prod →
      exec (.cqConsumerDoorbell n v) s = .next (s.setRing .cq n { r with cons := v.toNat })) ∧
    ((r.enable = false ∨ r.size ≤ v.toNat ∨ r.dist r.cons r.prod < r.dist r.cons v.toNat) →
      exec (.cqConsumerDoorbell n v) s = .next (notice s 0x0484 (0x1000 + 8 * n)))) ∧
  (∀ (s : State) (n : Fin 64) (v : BitVec 64), let r := s.ring .eq n
    (r.enable = true → v.toNat < r.size → r.dist r.cons v.toNat ≤ r.dist r.cons r.prod →
      exec (.eqConsumerDoorbell n v) s = .next (s.setRing .eq n { r with cons := v.toNat })) ∧
    ((r.enable = false ∨ r.size ≤ v.toNat ∨ r.dist r.cons r.prod < r.dist r.cons v.toNat) →
      exec (.eqConsumerDoorbell n v) s = .next (notice s 0x0484 (0x2000 + 8 * n)))) ∧
  (∀ (s : State) (n : Fin 32) (v : BitVec 64), let r := s.ring .str n
    (r.enable = true → v.toNat < r.size → r.dist r.cons v.toNat ≤ r.dist r.cons r.prod →
      exec (.strConsumerDoorbell n v) s = .next (s.setRing .str n { r with cons := v.toNat })) ∧
    ((r.enable = false ∨ r.size ≤ v.toNat ∨ r.dist r.cons r.prod < r.dist r.cons v.toNat) →
      exec (.strConsumerDoorbell n v) s = .next (notice s 0x0484 (0x3000 + 8 * n))))) ∧
  (∀ (s : State) (n : Fin 256) (v : BitVec 64),
    ((s.ring .sq n).enable = false → exec (.sqAbortDoorbell n v) s = .next (notice s 0x0484 (0x4000 + 8 * n))) ∧
    ((s.ring .sq n).enable = true → v.toNat < 65536 → bitOf v.toNat 0 = true →
      (∀ id sl, (id, some sl) ∈ s.csq.slots → sl.ring = n → s.slot id = some sl ∧ sl.st = .waiting) →
      ∃ t, exec (.sqAbortDoorbell n v) s = .next t ∧ (t.ring .sq n).enable = true ∧
        (∀ id sl, s.slot id = some sl → sl.ring = n → t.slot id = none) ∧
        (∀ id sl, s.slot id = some sl → sl.ring ≠ n → t.slot id = some sl) ∧
        (∀ c, t.ctx c = s.ctx c) ∧
        (s.Linked → ∀ a x, HMsg.completion a x ∈ t.host.out → HMsg.completion a x ∈ s.host.out ∨
          (x.status = Status.aborted ∧ x.ring = n))))

/-- 13 R293: RING_CONFIG_WRITE. BASE, SHADOW and a CTRL that does not enable it set a disabled ring; BASE, SHADOW, an enabling
CTRL and a disabling one outside IDLE are refused at an enabled ring with event 0x0486 and the register's BAR0 offset, as is an
enable with a size out of range or an unaligned base; an accepted enable starts the indices at 0, and one that disables an idle
ring disables it. Nothing is mapped above the 32 bits of CTRL. 13 R289 and R307: HIF_BAR4_CFG_WRITE and MSIX_VECTOR_UNMASK. BASE
acts at once and SIZE is held for the next release of PERST_N; a BASE that is no multiple of the window in force is ignored with
event 0x0486. Unmasking a vector with a pending message sends that message once. -/
def Obligations.RingsAndHostAreSetUp : Prop :=
  (∀ (s : State) (k : RingKind) (n : Fin 256) (w : RegWrite), n.val < k.count →
    let r := s.ring k n
    let at' (o : Nat) : Nat := RegWrite.at' w (ringGroup k n + o)
    let x := setCtrl k r (RegWrite.onto w (BitVec.ofNat 64 (ringCtrl k r))).toNat
    (r.enable = true →
      exec (.ringConfigWrite k n .base w) s = .next (notice s 0x0486 (at' 0)) ∧
      exec (.ringConfigWrite k n .shadow w) s = .next (notice s 0x0486 (at' 0x10)) ∧
      (w.half ≠ .high → (x.enable = true ∨ ringIdle s k n = false) →
        exec (.ringConfigWrite k n .ctrl w) s = .next (notice s 0x0486 (at' 8))) ∧
      (w.half ≠ .high → x.enable = false → ringIdle s k n = true →
        ∃ t, exec (.ringConfigWrite k n .ctrl w) s = .next t ∧ (t.ring k n).enable = false)) ∧
    (r.enable = false →
      exec (.ringConfigWrite k n .base w) s = .next (s.setRing k n { r with base := RegWrite.onto w r.base }) ∧
      (∃ t, exec (.ringConfigWrite k n .shadow w) s = .next t ∧ (t.ring k n).shadow.toNat % 4 = 0 ∧
        (t.ring k n).shadow.toNat / 4 = (RegWrite.onto w r.shadow).toNat / 4) ∧
      (w.half ≠ .high → x.enable = true → ringOk k x = false →
        exec (.ringConfigWrite k n .ctrl w) s = .next (notice s 0x0486 (at' 8))) ∧
      (w.half ≠ .high → x.enable = false → exec (.ringConfigWrite k n .ctrl w) s = .next (s.setRing k n x)) ∧
      (w.half ≠ .high → x.enable = true → ringOk k x = true →
        exec (.ringConfigWrite k n .ctrl w) s = .next (s.setRing k n { x with prod := 0, cons := 0, fetched := 0, doors := [] }))) ∧
    (w.half = .high → exec (.ringConfigWrite k n .ctrl w) s = .next (unmapped s w.path (at' 8)))) ∧
  ((∀ (s : State) (w : RegWrite),
    let v := (RegWrite.onto w (BitVec.ofNat 64 (bar4Reg s))).toNat
    ((barSize s = 0 ∨ v / 2 ^ 26 * 2 ^ 26 % barSize s = 0) →
      exec (.hifBar4CfgWrite w) s = .next { s with host.bar4Base := v / 2 ^ 26, host.bar4Next := v % 16 }) ∧
    (barSize s ≠ 0 → v / 2 ^ 26 * 2 ^ 26 % barSize s ≠ 0 →
      exec (.hifBar4CfgWrite w) s = .next (notice s 0x0486 (RegWrite.at' w 0x10008)))) ∧
  (∀ (s : State) (n : Fin 2048), s.Linked →
    ∃ t, exec (.msixVectorUnmask n) s = .next t ∧ Tab.get false t.host.msixUnmasked n = true ∧
      Tab.get false t.host.msixPending n = false ∧
      t.host.out = s.host.out ++ (if Tab.get false s.host.msixPending n then [msiMsg s n] else [])))

/-- 13 R287, R288 and R292, 24 R502 and R506: REGISTER_WRITE and SEQ_TS_VIEW_WRITE. SEQ_TS_VIEW sets the view of the path that
writes it. A BAR0 write to a mapped register acts on that register; a write to GLB_SCRATCH stores the whole value; an unmapped or
misaligned one is discarded with event 0x0483 and its offset, as is every write to the pages of channels, sources, digitizers,
engines and calibration; a BAR2 write off every doorbell is discarded with the offset and bit 31. 15 R356: HIGH_HALF_LATCH_READ of
4 bytes of BAR0. A read of the low half of a wide register returns the low half and holds the high half for that path; the next
read of the high half on the path returns what is held, whatever the register has become, and lets it go; with nothing held for it
the live half is returned. 13 R288 and R292, 15 R356, 22 R484: other reads. One of 8 bytes of a mapped offset of BAR0 over PCI
Express returns the whole word; one of another size, of a misaligned or of an unmapped offset returns zeros and raises event
0x0483 with the offset; a read of a doorbell returns its index, of any other offset of BAR2 zeros with the event and bit 31. The
MNT port reads nothing from a page that is not ready. -/
def Obligations.RegisterAccessesAct : Prop :=
  ((∀ (s : State) (off : BitVec 32) (size : Nat) (v : BitVec 64),
    (size = 4 ∨ size = 8) → off.toNat % size = 0 → off.toNat < 0x1000000 →
    let w := writeAt .pcie off.toNat size (v.toNat % 2 ^ (8 * size))
    let above := off.toNat % 8 = 4 ∧ isNarrow (off.toNat / 8 * 8) = true
    (above → exec (.registerWrite .bar0 off size v) s = .next (notice s 0x0483 off.toNat)) ∧
    (¬ above → ∀ t, regWrite s w (off.toNat / 8 * 8) = some t → exec (.registerWrite .bar0 off size v) s = .next t) ∧
    (regWrite s w (off.toNat / 8 * 8) = none → exec (.registerWrite .bar0 off size v) s = .next (notice s 0x0483 off.toNat))) ∧
  (∀ (s : State) (v : BitVec 64), exec (.registerWrite .bar0 0x28 8 v) s = .next { s with pwr.scratch := v }) ∧
  (∀ (s : State) (off : BitVec 32) (size : Nat) (v : BitVec 64),
    ((size ≠ 4 ∧ size ≠ 8) ∨ off.toNat % size ≠ 0 ∨ 0x1000000 ≤ off.toNat) →
    exec (.registerWrite .bar0 off size v) s = .next (notice s 0x0483 off.toNat)) ∧
  (∀ (s : State) (off : BitVec 32) (size : Nat) (v : BitVec 64), 0x200000 ≤ off.toNat →
    exec (.registerWrite .bar0 off size v) s = .next (notice s 0x0483 off.toNat)) ∧
  (∀ (s : State) (off : BitVec 32) (size : Nat) (v : BitVec 64), doorAt off.toNat = none →
    exec (.registerWrite .bar2 off size v) s = .next (notice s 0x0483 (off.toNat + 2 ^ 31))) ∧
  (∀ (s : State) (n : Fin 8) (v : BitVec 64),
    exec (.seqTsViewWrite n ⟨.pcie, .full, v⟩) s = .next (s.updSec n fun x => { x with viewPcie := v.setWidth 6 }) ∧
    exec (.seqTsViewWrite n ⟨.mnt, .full, v⟩) s = .next (s.updSec n fun x => { x with viewMnt := v.setWidth 6 }))) ∧
  (∀ (s : State) (path : Path) (base : BitVec 32) (v : Nat),
    base.toNat % 8 = 0 → base.toNat < 0x1000000 → (path = .pcie ∨ pageStale s base.toNat = false) →
    (path = .pcie ∨ pageStale s (base.toNat + 4) = false) → regRead s path base.toNat = some v → isWide base.toNat = true →
    (∃ t, exec (.highHalfLatchRead path .bar0 base 4) s = .next t ∧ t.host.readData = leBytes 4 (v % 2 ^ 32) ∧
      latchOf t path = some (base.toNat, BitVec.ofNat 32 (v / 2 ^ 32))) ∧
    (∀ h, latchOf s path = some (base.toNat, h) →
      ∃ t, exec (.highHalfLatchRead path .bar0 (base + 4) 4) s = .next t ∧ t.host.readData = leBytes 4 h.toNat ∧
        latchOf t path = none) ∧
    (latchOf s path = none →
      exec (.highHalfLatchRead path .bar0 (base + 4) 4) s =
        .next { s with host.readData := leBytes 4 (v / 2 ^ 32 % 2 ^ 32), host.poisoned := false })) ∧
  ((∀ (s : State) (off : BitVec 32) (v : Nat), off.toNat % 8 = 0 → off.toNat < 0x1000000 →
    regRead s .pcie off.toNat = some v →
    exec (.highHalfLatchRead .pcie .bar0 off 8) s = .next { s with host.readData := leBytes 8 v, host.poisoned := false }) ∧
  (∀ (s : State) (off : BitVec 32) (size : Nat),
    ((size ≠ 4 ∧ size ≠ 8) ∨ off.toNat % size ≠ 0 ∨ 0x1000000 ≤ off.toNat ∨ (size = 8 ∧ regRead s .pcie off.toNat = none) ∨
      (size = 4 ∧ regRead s .pcie (off.toNat / 8 * 8) = none ∧ latchOf s .pcie = none)) →
    exec (.highHalfLatchRead .pcie .bar0 off size) s =
      .next { notice s 0x0483 off.toNat with
        host.readData := List.replicate size 0, host.poisoned := false }) ∧
  (∀ (s : State) (n : Fin 256) (size : Nat), (size = 4 ∨ size = 8) →
    exec (.highHalfLatchRead .pcie .bar2 (BitVec.ofNat 32 (8 * n)) size) s =
      .next { s with host.readData := leBytes size (s.ring .sq n).prod, host.poisoned := false } ∧
    exec (.highHalfLatchRead .pcie .bar2 (BitVec.ofNat 32 (0x1000 + 8 * n)) size) s =
      .next { s with host.readData := leBytes size (s.ring .cq n).cons, host.poisoned := false } ∧
    exec (.highHalfLatchRead .pcie .bar2 (BitVec.ofNat 32 (0x4000 + 8 * n)) size) s =
      .next { s with host.readData := leBytes size (b2n (s.ring .sq n).abortTo.isSome), host.poisoned := false }) ∧
  (∀ (s : State) (off : BitVec 32) (size : Nat), ((size ≠ 4 ∧ size ≠ 8) ∨ doorAt off.toNat = none) →
    exec (.highHalfLatchRead .pcie .bar2 off size) s =
      .next { notice s 0x0483 (off.toNat + 2 ^ 31) with
        host.readData := List.replicate size 0, host.poisoned := false }) ∧
  (∀ (s : State) (bar : Bar) (off : BitVec 32) (size : Nat), pageStale s off.toNat = true →
    exec (.highHalfLatchRead .mnt bar off size) s = .next s))

/-- 13 R289, 21 R468, R470 and R471: BAR4_READ and BAR4_WRITE inside a region, with DDR5 in service and no access waiting. A read of
good beats returns the bytes at BASE × 2^26 + offset and changes no memory; a read that meets a poisoned beat is answered as
poisoned; a write of whole lines, or where every beat is good, stores its bytes there, and every other byte reads as before. While a
memory channel is in recovery an access waits in its place. 21 R468, R469, R472 and R473: PATROL_SCRUB reads the next line, corrects
and counts its single-bit errors, poisons in place what it cannot correct, leaves every byte as it was, and after the last line of
the capacity starts over with a pass counted (an already poisoned beat counts as met again: log entry 38). A second error in a beat
makes it uncorrectable. With DDR5 out of service it waits. MEM_CFG takes MAX_RATE 0 to 2 and SCRUB_HOURS 1 to 168, and raises 0x0486
on others. -/
def Obligations.Ddr5WindowAndScrubber : Prop :=
  ((∀ (s : State) (x : BitVec 36), s.stopped = false → s.memUp = true → s.host.barWait = [] → s.mem.single = [] →
    let a := s.host.bar4Base * 2 ^ 26 + x.toNat
    (∀ n : Fin 4097, 0 < n.val → x.toNat + n.val ≤ barSize s → inRegions s a n = true → badBeats s a n = [] →
      exec (.bar4Read x n) s = .next { s with host.readData := ddrRead s a n, host.poisoned := false }) ∧
    (∀ n : Fin 4097, 0 < n.val → x.toNat + n.val ≤ barSize s → inRegions s a n = true → badBeats s a n ≠ [] →
      ∃ t, exec (.bar4Read x n) s = .next t ∧ t.host.readData = ddrRead s a n ∧ t.host.poisoned = true) ∧
    (∀ data : List Byte, data ≠ [] → x.toNat + data.length ≤ barSize s → inRegions s a data.length = true →
      ((a % 64 = 0 ∧ data.length % 64 = 0) ∨ badBeats s (a / 64 * 64) ((a + data.length + 63) / 64 * 64 - a / 64 * 64) = []) →
      ∃ t, exec (.bar4Write x data) s = .next t ∧ ddrRead t a data.length = data ∧
        ∀ b, (b < a ∨ a + data.length ≤ b) → Memory.read t.mem.cells b = Memory.read s.mem.cells b)) ∧
  (∀ (s : State) (x : BitVec 36), s.stopped = false → s.mem.st = .recovery →
    (∀ n : Fin 4097, 0 < n.val → x.toNat + n.val ≤ barSize s →
      exec (.bar4Read x n) s = .next { s with host.barWait := s.host.barWait ++ [(x.toNat, n.val, [])] }) ∧
    (∀ data : List Byte, data ≠ [] → x.toNat + data.length ≤ barSize s →
      exec (.bar4Write x data) s = .next { s with host.barWait := s.host.barWait ++ [(x.toNat, 0, data)] }))) ∧
  ((∀ (s : State) (f : ScrubFind), s.memUp = true → ∃ t, exec (.patrolScrub f) s = .next t ∧
    let u := takeUpsets s f.upsets
    let l := s.mem.scrubLine
    let m := memChanOf (64 * l)
    let n := f.corrected + (u.mem.single.filter fun b => b / 16 == l).length
    t.mem.cells = s.mem.cells ∧ (t.memChan m).corrected = (if n = 0 then (s.memChan m).corrected
      else min ((s.memChan m).corrected + n) (2 ^ 32 - 1)) ∧ t.memChan (1 - m) = s.memChan (1 - m) ∧
    (∀ b ∈ f.badBeats, b < 16 → 16 * l + b ∈ t.mem.poison) ∧ (∀ b ∈ u.mem.bad, b / 16 = l → b ∈ t.mem.poison) ∧
    (∀ b, b / 16 = l → b ∉ t.mem.bad ∧ b ∉ t.mem.single) ∧
    (∀ b, b / 16 ≠ l → (b ∈ t.mem.poison ↔ b ∈ s.mem.poison) ∧ (b ∈ t.mem.bad ↔ b ∈ u.mem.bad) ∧
      (b ∈ t.mem.single ↔ b ∈ u.mem.single)) ∧
    (l + 1 < s.mem.capacity * 2 ^ 24 → t.mem.scrubLine = l + 1 ∧ t.mem.scrubPasses = s.mem.scrubPasses) ∧
    (s.mem.capacity * 2 ^ 24 ≤ l + 1 → t.mem.scrubLine = 0 ∧ t.mem.scrubPasses = min (s.mem.scrubPasses + 1) (2 ^ 32 - 1))) ∧
  (∀ (s : State) (b : Nat) (two : Bool), b ∉ s.mem.poison → b ∉ s.mem.bad →
    let u := takeUpsets s [(b, two)]
    ((two = true ∨ b ∈ s.mem.single) → b ∈ u.mem.bad ∧ b ∉ u.mem.single) ∧
    (two = false → b ∉ s.mem.single → u = { s with mem.single := b :: s.mem.single })) ∧
  (∀ (s : State) (f : ScrubFind), s.memUp = false → exec (.patrolScrub f) s = .next s) ∧
  (∀ (s : State) (w : RegWrite),
    let v := (RegWrite.onto w (BitVec.ofNat 64 (memCfg s))).toNat
    let r := v % 4
    let h := bits v 9 2
    exec (.memCfgWrite w) s = .next (if r = 3 ∨ h = 0 ∨ 168 < h then configRefused s (RegWrite.at' w 0x70008)
      else { s with mem.maxRate := r, mem.scrubHours := h })))

/-- 13 R309 and R310: STR_BLOCK_DELIVER. The oldest staged block goes to the producer slot of a ring with a free one, then the
shadow, then the ring's message where IRQ_ALL is set or the block is the last; the other staged blocks keep their order, and
blocks that wait at their source follow them as far as staging has room. With it the last of a stream that closes, the ring is
free and the STREAM_CLOSE completes where it has a context. With no free slot, a disabled ring or no link the block waits. -/
def Obligations.StreamBlockIsDelivered : Prop :=
  ∀ (s : State) (n : Fin 32) (b : List Byte) (last : Bool) (rest : List (List Byte × Bool)),
    let r := s.ring .str n
    r.staged = (b, last) :: rest →
    ((r.full = true ∨ r.enable = false ∨ ¬ s.Linked) → exec (.strBlockDeliver n) s = .next s) ∧
    (s.Linked → r.enable = true → r.full = false →
      (∀ e p, (s.eng e).ending = none ∧ (s.outPort e p).words = []) → (∀ d, (s.dig d).owed = []) →
    (∀ id detail, r.closing = some (id, detail) → rest = [] → r.source = [] →
      (∀ sl, s.slot id = some sl → waitsCtx s sl = false) →
      ∃ t, exec (.strBlockDeliver n) s = .next t ∧ t.slot id = none ∧ (t.ring .str n).inUse = false ∧
        (t.ring .str n).closing = none ∧ (t.ring .str n).prod = r.after r.prod) ∧
    (r.closing = none → ∃ t, exec (.strBlockDeliver n) s = .next t ∧
      t.host.out = s.host.out ++ [.block (r.base.toNat + 4096 * r.prod) b] ++ shadowOf r (r.after r.prod) ++
        msiOf s r.vector (r.irqAll || last) ∧
      t.ring .str n = { r with
        prod := r.after r.prod, staged := rest ++ r.source.take (32 - rest.length),
        source := r.source.drop (32 - rest.length), bytes := addWrap 64 r.bytes 4096 } ∧
      (∀ m, m ≠ n.val → t.ring .str m = s.ring .str m)))

/-! ### Memory descriptors, staged sets and daymarks (14, 15) -/

/-- 14 R321 to R323 (13 R295; 17 R395; 21 R468): NOP completes OK. MEM_FILL writes VALUE at every 8-byte offset of its next 64-byte
blocks and MEM_COPY moves its next blocks; after the last block both complete OK with the blocks moved, before it they have that
many done, and every DDR5 byte outside the blocks reads as before. 14 R322 and 21 R468, R471: MEM_COPY out of DDR5 that meets an
uncorrectable beat copies the blocks before it, reads the block of the beat, which reports it, and completes TESTER_FAULT with the
blocks copied. While a memory channel is in recovery a copy or a fill that has begun waits. 13 R302: the first blocks wait while
another routine of the same tick goes first (log entry 80). -/
def Obligations.MemoryDescriptorsMove : Prop :=
  ((∀ (s : State) (id c : Nat) (sl : Slot), s.Serves id c sl → sl.opc = 0x00 → sl.zero 8 64 = true →
    exec (.nop id) s = .next (done s id Status.ok 0)) ∧
  (∀ (s : State) (id c blocks : Nat) (sl : Slot), s.Serves id c sl → sl.opc = 0x03 → sl.zero 32 64 = true →
    sl.coversBit 5 = true → s.memUp = true → dmaHeld s id sl = false →
    let dst := sl.op 16 8
    let len := sl.op 24 8
    let p := sl.progress
    let m := min (len / 64) (p + blocks)
    dst % 64 = 0 → len % 64 = 0 → 0 < len → len ≤ 2 ^ 37 → (regionHolding s anyType dst len).isSome = true → p ≤ len / 64 →
    ∃ u : State, exec (.memFill id blocks) s = .next (if m < len / 64 then u.updSlot id fun x => { x with progress := m }
        else done u id Status.ok (satTo 32 (len / 64))) ∧ u = { s with mem := u.mem } ∧
      (∀ i, 64 * p ≤ i → i < 64 * m → Memory.read u.mem.cells (dst + i) = BitVec.ofNat 8 (sl.op 8 8 / 256 ^ (i % 8))) ∧
      (∀ b, (b < dst + 64 * p ∨ dst + 64 * m ≤ b) → Memory.read u.mem.cells b = Memory.read s.mem.cells b)) ∧
  (∀ (s : State) (id c blocks : Nat) (sl : Slot) (data : List Byte), s.Serves id c sl → sl.opc = 0x02 → sl.zero 9 16 = true →
    sl.zero 40 64 = true → sl.coversBit 5 = true → s.memUp = true → dmaHeld s id sl = false →
    let dir := sl.op 8 1
    let len := sl.op 32 8
    let p := sl.progress
    let m := min (len / 64) (p + blocks)
    let src := sl.op 16 8 + 64 * p
    let dst := sl.op 24 8 + 64 * p
    let k := 64 * (m - p)
    let u := correctRead s src k
    let fin (t : State) : State := if m < len / 64 then t.updSlot id fun x => { x with progress := m }
      else done t id Status.ok (satTo 32 (len / 64))
    dir ≤ 2 → sl.op 16 8 % 64 = 0 → sl.op 24 8 % 64 = 0 → len % 64 = 0 → 0 < len → len ≤ 2 ^ 37 →
    (dir ≠ 0 → (regionHolding s anyType (sl.op 16 8) len).isSome = true ∧ badBeats s src k = []) →
    (dir ≠ 1 → (regionHolding s anyType (sl.op 24 8) len).isSome = true) →
    (dir = 2 → overlap (sl.op 16 8) len (sl.op 24 8) len = false) → p < len / 64 → 0 < blocks →
    (dir = 0 → exec (.memCopy id data blocks) s = .next (fin (ddrWrite s dst (hostBytes (data.drop (64 * p)) k)))) ∧
    (dir = 1 → exec (.memCopy id data blocks) s = .next (fin (emit u (.data dst (ddrRead u src k) (slotPlace u id))))) ∧
    (dir = 2 → exec (.memCopy id data blocks) s = .next (fin (ddrWrite u dst (ddrRead u src k))))) ∧
  (∀ (s : State) (a : Nat) (bs : List Byte), ddrRead (ddrWrite s a bs) a bs.length = bs ∧
    ddrWrite s a bs = { s with mem := (ddrWrite s a bs).mem } ∧
    (∀ b, (b < a ∨ a + bs.length ≤ b) → Memory.read (ddrWrite s a bs).mem.cells b = Memory.read s.mem.cells b)) ∧
  (∀ (s : State) (a n : Nat), (correctRead s a n).mem.cells = s.mem.cells ∧
    (∀ b, b ∈ (correctRead s a n).mem.single ↔ b ∈ s.mem.single ∧ ¬ (a ≤ 4 * b + 3 ∧ 4 * b < a + n)))) ∧
  ((∀ (s : State) (id c blocks : Nat) (sl : Slot) (data : List Byte) (b : Nat) (rest : List Nat), s.Serves id c sl →
    sl.opc = 0x02 → sl.zero 9 16 = true → sl.zero 40 64 = true → sl.coversBit 5 = true → s.memUp = true →
    dmaHeld s id sl = false →
    let len := sl.op 32 8
    let p := sl.progress
    let src := sl.op 16 8 + 64 * p
    let dst := sl.op 24 8 + 64 * p
    let g := (4 * b - src) / 64
    let u := correctRead s src (64 * g)
    let v := if g = 0 then s else if sl.op 8 1 = 1 then emit u (.data dst (ddrRead u src (64 * g)) (slotPlace u id))
      else ddrWrite u dst (ddrRead u src (64 * g))
    (sl.op 8 1 = 1 ∨ (sl.op 8 1 = 2 ∧ (regionHolding s anyType (sl.op 24 8) len).isSome = true ∧
      overlap (sl.op 16 8) len (sl.op 24 8) len = false)) →
    sl.op 16 8 % 64 = 0 → sl.op 24 8 % 64 = 0 → len % 64 = 0 → 0 < len → len ≤ 2 ^ 37 →
    (regionHolding s anyType (sl.op 16 8) len).isSome = true →
    badBeats s src (64 * (min (len / 64) (p + blocks) - p)) = b :: rest →
    exec (.memCopy id data blocks) s =
      .next (done (scanRead v (src + 64 * g) 64).1 id Status.testerFault (satTo 32 (p + g)))) ∧
  (∀ (s : State) (id c blocks : Nat) (sl : Slot) (data : List Byte), s.Serves id c sl → 0 < sl.progress →
    s.mem.st = .recovery →
    (sl.opc = 0x02 → exec (.memCopy id data blocks) s = .next s) ∧ (sl.opc = 0x03 → exec (.memFill id blocks) s = .next s)))

/-- 14 R324, R325, R328 and 15 R345: STAGE appends its records behind those held and owns the set for its ring; one bad record
refuses the whole with FIELD and the record's index. CHECK that passes completes OK with the records checked and changes nothing.
DISCARD of an owned set that waits for no apply drops its records and frees it. 14 R327, 15 R345, R352 and 02 R40, R41: APPLY that
passes its tests makes the set PENDING with its records unchanged, enters the scheduler and parks: behind the actions admitted in
earlier cycles, and among those of its own cycle by class, ring and TAG. The recovery check, made once its lead is 4 µs or less,
lets it pass or completes it with the failing status and the set OPEN again. 15 R351 and 14 R327: SCHEDULED_APPLY. On its tick a
checked apply puts every record into the applied image as one change and releases its set, which then holds no record and no
owner. Before its tick nothing changes. -/
def Obligations.SetsAreStagedAndApplied : Prop :=
  ((∀ (s : State) (id c : Nat) (sl : Slot) (data : List Byte), s.Serves id c sl → sl.opc = 0x08 → sl.zero 10 12 = true →
    sl.zero 24 64 = true →
    let k := sl.op 8 1
    let count := sl.op 12 4
    let recs := (chunks 16 count (hostBytes data (16 * count))).map readRec
    k ≤ 15 → sl.op 16 8 % 16 = 0 → 0 < count → (s.set k).recs.length + count ≤ 4096 →
    ((sl.op 9 1 = 1 ∧ (s.set k).st = .free) ∨ (sl.op 9 1 = 0 ∧ owns s sl k = true ∧ (s.set k).st = .opened)) →
    ((∀ r ∈ recs, recordOk r.1.target r.1.value = true ∧ r.2 = true) →
      (∀ r ∈ recs, ¬ (s.grp.keeper = true ∧ r.1.target = targetOf 0x0A 0 0x001 ∧ r.1.value = 1)) →
      exec (.stage id data) s = .next (done (s.updSet k fun x =>
        { x with st := .opened, owner := sl.ring, recs := x.recs ++ recs.map Prod.fst }) id Status.ok
        ((s.set k).recs.length + count))) ∧
    (∀ i, (recs.findIdx? fun r => !(recordOk r.1.target r.1.value && r.2)) = some i →
      exec (.stage id data) s = .next (done s id Status.field i))) ∧
  (∀ (s : State) (id c : Nat) (sl : Slot), s.Serves id c sl → sl.opc = 0x09 → sl.zero 9 64 = true → sl.op 8 1 ≤ 15 →
    (∀ t ∈ setTests s sl (sl.op 8 1) (imageFor s none none), t.1 = false) →
    exec (.check id) s = .next (done s id Status.ok (s.set (sl.op 8 1)).recs.length)) ∧
  (∀ (s : State) (id c : Nat) (sl : Slot), s.Serves id c sl → sl.opc = 0x0B → sl.zero 9 64 = true → sl.op 8 1 ≤ 15 →
    owns s sl (sl.op 8 1) = true → (s.set (sl.op 8 1)).st = .opened →
    exec (.discard id) s = .next (done (s.updSet (sl.op 8 1) fun x => { x with st := .free, owner := 0, recs := [] }) id
      Status.ok (s.set (sl.op 8 1)).recs.length))) ∧
  ((∀ (s : State) (id c : Nat) (sl : Slot), s.Serves id c sl → sl.opc = 0x0A → applyOk sl = true →
    let k := sl.op 8 1
    let p := requestPos s sl 9 16 4000
    (∀ t ∈ setTests s sl k (imageFor s (some p) none), t.1 = false) → (s.set k).st = .opened → laterApply s sl p = none →
    schedFull s = false → requestLate s sl 9 16 4000 = false →
    exec (.apply id) s = .next (park (schedule (s.updSet k fun x => { x with st := .pending })
      { kind := .apply k, slot := some id, pos := p }) id .ending)) ∧
  (∀ (s : State) (a : Action), let a' := { a with at' := s.now, key := actKey s a.slot }
    schedule s a = { s with stg.sched := (schedule s a).stg.sched } ∧
    ((∀ b ∈ s.stg.sched, b.at' = s.now → b.key ≤ a'.key) → (schedule s a).stg.sched = s.stg.sched ++ [a']) ∧
    ((∀ b ∈ s.stg.sched, b.at' = s.now ∧ a'.key < b.key) → (schedule s a).stg.sched = a' :: s.stg.sched) ∧
    ∀ b, b ∈ (schedule s a).stg.sched ↔ b = a' ∨ b ∈ s.stg.sched) ∧
  (∀ (s : State) (k : Fin 16) (a : Action), ownApply s k = some a → a.checked = false →
    (ahead s.sweep.pos a.pos * 160 ≤ 4000 * s.sweep.rate ∨ isDue s a = true) →
    (∀ st d, recoveryTests s a k = some (st, d) →
      exec (.applyRecoveryCheck k) s = .next (completeAct (reopenSet (dropAct s a) k) a st d s.sweep.pos)) ∧
    (recoveryTests s a k = none → ∃ t, exec (.applyRecoveryCheck k) s = .next t ∧
      t.stg.sched = s.stg.sched.map (fun b => if b == a then { b with checked := true } else b) ∧ t.stg.image = s.stg.image))) ∧
  (∀ (s : State) (k : Fin 16) (a : Action), findAct s (.apply k) = some a →
    (mayAct s a = false → exec (.scheduledApply k) s = .next s) ∧
    (mayAct s a = true → a.checked = true → (s.set k).group = false →
      ∃ t, exec (.scheduledApply k) s = .next t ∧ t.stg.image = imgRecs s.stg.image (s.set k).recs ∧
        (t.set k).st = .free ∧ (t.set k).recs = [] ∧ (t.set k).owner = 0 ∧
        (t.set k).applies = addWrap 32 (s.set k).applies 1))

/-- 14 R329, 15 R358, R359 and R362, 02 R39: DAYMARK enters the scheduler when it is on time and 40 µs clear of every other. Its
capture puts every counter of 15 R361 as of the end of the tick before, the tick number and its position into bank k mod 2, which
then reads WRITING; once the copy is done the bank reads VALID with SEQ k and the DAYMARK completes with the bank's number. -/
def Obligations.DaymarksCapture : Prop :=
  (∀ (s : State) (id c : Nat) (sl : Slot), s.Serves id c sl → sl.opc = 0x48 → sl.zero 8 9 = true → sl.op 9 1 ≤ 1 →
    sl.zero 10 16 = true → sl.zero 24 64 = true → (sl.op 9 1 = 0 → sl.zero 16 24 = true) → schedFull s = false →
    let p := requestPos s sl 9 16 1000
    requestLate s sl 9 16 1000 = false → dayTooClose s p = false →
    exec (.daymark id) s = .next (park (schedule s { kind := .daymark, slot := some id, pos := p }) id .ending)) ∧
  (∀ (s : State) (a : Action), dueDay s = some (a, none) → s.stg.dayBusy = none →
    let b := s.stg.dayCount % 2
    ∃ t, exec .daymarkCapture s = .next t ∧ (t.bank b).st = 1 ∧ (t.bank b).pos = a.pos ∧ (t.bank b).tick = s.tick ∧
      (∀ cs, s.stg.daySnap = some (s.now, cs) → (t.bank b).counters = cs) ∧
      ((∀ cs, s.stg.daySnap ≠ some (s.now, cs)) → (t.bank b).counters = dayCounters s) ∧ t.bank (1 - b) = s.bank (1 - b) ∧
        t.stg.dayCount = s.stg.dayCount + 1 ∧
      t.stg.dayBusy = some (b, a.slot)) ∧
  (∀ (s : State) (b id : Nat), s.stg.dayBusy = some (b, some id) → b < 2 → isGroupSlot s id = false →
    ∃ u : State, exec .daymarkBankValid s = .next (complete u id Status.ok b (s.bank b).pos) ∧ u = { s with stg := u.stg } ∧
      u.bank (1 - b) = s.bank (1 - b) ∧ (u.bank b).st = 2 ∧
      (u.bank b).seq = (s.stg.dayCount - 1) % 2 ^ 32 ∧ (u.bank b).counters = (s.bank b).counters ∧ u.stg.dayBusy = none)

/-! ### The sweep (02) -/

/-- 02 R26: a position P against the sweep S by D = (P − S) mod 2^64: 0 is the current position, 1 to 2^63 − 1 lies in the future,
2^63 to 2^64 − 1 in the past. -/
def Obligations.PositionsCompare : Prop :=
  ∀ s p : Pos,
    let d := (p.toNat + 2 ^ 64 - s.toNat) % 2 ^ 64
    (isFuture s p = true ↔ 1 ≤ d ∧ d ≤ 2 ^ 63 - 1) ∧ (isPast s p = true ↔ 2 ^ 63 ≤ d) ∧
    (d = 0 ↔ p = s)

/-- 02 R32: in TIME the sweep adds 40,960 fraction units on each TCLK tick. -/
def Obligations.TimeSweepAdds40960 : Prop :=
  ∀ s : State, s.pending = [] → s.running = true → s.sweep.source = .time → s.sweep.st = .running → s.sweep.rate = 10485760 →
    s.sweep.acc < 256 → s.sweep.limit = none → s.sweep.holdFor = none →
    ∃ t, step s = .next t ∧ t.sweep.pos = s.sweep.pos + 40960 ∧ t.sweep.acc = s.sweep.acc ∧ t.sweep.source = .time

/-- 02 R27 and R38: on a tick the sweep advances or holds, and it never reaches the next tooth's position by itself. 02 R31, R35,
R36 and R38, R29: SWEEP_TOOTH_EDGE and SWEEP_INDEX_EDGE. An edge less than 2 µs after the last accepted one is ignored, and so is
one of the polarity that TOOTH_EDGE or INDEX_EDGE does not select. A tooth takes the applied ANGLE parameters into force. One of
known slot between two marks, in a synchronised GAP sweep whose wheel did not change, sets the sweep to the tooth's position as of
its stamp, at the rate of the last interval, short of the next tooth's position. A wheel or cycle that changes drops
synchronisation (log entry 57). An index edge is kept for the next tooth. 02 R36 and R38: TOOTH_TIMEOUT and SWEEP_HELD. With no
tooth for TOOTH_TIMEOUT a synchronised sweep holds in LOST with a notice; a sweep one fraction unit below the next tooth's
position holds there. -/
def Obligations.AngleSweepFollowsTeeth : Prop :=
  (∀ x : Sweep, x.acc < 256 → x.rate < 2 ^ 60 → (∀ l, x.limit = some l → x.pos ≠ l) →
    ahead x.pos (sweepTick x).pos ≤ (x.acc + x.rate) / 256 ∧
    (∀ l, x.limit = some l → (sweepTick x).pos ≠ l) ∧
    ((x.st = .lost ∨ x.st = .noSync ∨ x.st = .held ∨ x.holdFor.isSome = true) → (sweepTick x).pos = x.pos)) ∧
  ((∀ (s : State) (f : Bool) (t : Nat), (edgeSpaced s.sweep.lastTooth t = false ∨ f ≠ decide (s.sweep.ang.toothEdge = 1) →
      exec (.sweepToothEdge f t) s = .next s) ∧
    (edgeSpaced s.sweep.lastIndex t = false ∨ f ≠ decide (s.sweep.ang.indexEdge = 1) →
      exec (.sweepIndexEdge f t) s = .next s)) ∧
  (∀ (s : State) (f : Bool) (t u p c : Nat) (iv : Nat × Nat), s.sweep.source = .angle → s.running = true →
    stampDue s t = true → edgeSelected s.sweep.ang.toothEdge f = true →
    edgeSpaced s.sweep.lastTooth t = true → s.sweep.lastTooth = some u → s.sweep.lastIv = some iv →
    let a := anglePars s
    let s' := { s with sweep.ang := a }
    a.slots = s.sweep.ang.slots → a.missing = s.sweep.ang.missing → a.revs = s.sweep.ang.revs → a.mode = 0 →
    ¬ (a.thresh * iv.1 < (t - u) * 16) → s.sweep.sinceMark = some c → s.sweep.synced = true →
    c + 1 ≤ a.slots - a.missing → s.sweep.rev < a.revs →
    p = toothPhase s' c s.sweep.rev →
    let pos := phaseFrom s' s.sweep.pos p
    let next := nextTooth s' c s.sweep.rev
    let gap := (toothPhase s' next.1 next.2 + cycleUnits s' - p) % cycleUnits s'
    let limit := pos + BitVec.ofNat 64 (if gap = 0 then cycleUnits s' else gap)
    let rate := toothRate s' (some (t - u, 1)) (some iv)
    ∃ v, exec (.sweepToothEdge f t) s = .next v ∧ v.sweep.st = .running ∧ v.sweep.slot = c ∧ v.sweep.lastTooth = some t ∧
      v.sweep.ang = a ∧ v.sweep.rate = rate ∧ v.sweep.limit = some limit ∧
      v.sweep.pos = pos + BitVec.ofNat 64 (min ((stampNow s - t) * rate / 2 ^ 24) (ahead pos limit - 1)) ∧
      v = { s with sweep := v.sweep }) ∧
  (∀ (s : State) (f : Bool) (t : Nat), s.sweep.source = .angle → s.running = true → stampDue s t = true →
    edgeSelected s.sweep.ang.toothEdge f = true → edgeSpaced s.sweep.lastTooth t = true → s.sweep.synced = true →
    ((anglePars s).slots ≠ s.sweep.ang.slots ∨ (anglePars s).missing ≠ s.sweep.ang.missing ∨
      (anglePars s).revs ≠ s.sweep.ang.revs) →
    ∃ v, exec (.sweepToothEdge f t) s = .next v ∧ v.sweep.st = .lost ∧ v.sweep.synced = false ∧ v.sweep.ang = anglePars s ∧
      v.sweep.lastTooth = some t ∧ v.sweep.pos = s.sweep.pos) ∧
  (∀ (s : State) (f : Bool) (t : Nat), s.sweep.source = .angle → s.running = true → stampDue s t = true →
    edgeSelected s.sweep.ang.indexEdge f = true → edgeSpaced s.sweep.lastIndex t = true →
    exec (.sweepIndexEdge f t) s =
      .next { s with sweep.lastIndex := some t, sweep.indexNow := true, sweep.indexInRev := true })) ∧
  ((∀ (s : State) (u : Nat), s.sweep.lastTooth = some u → s.sweep.source = .angle → s.sweep.synced = true →
    (u : Int) + stampUnits s.sweep.ang.timeout ≤ (stampNow s : Int) →
    exec .toothTimeout s = .next (notice { s with sweep := { s.sweep with
      st := .lost, synced := false, rate := 0, acc := 0, limit := none, sinceMark := none } } 0x04A1 0)) ∧
  (∀ (s : State) (l : Pos), s.sweep.limit = some l → s.sweep.source = .angle → s.sweep.st = .running → s.sweep.pos + 1 = l →
    exec .sweepHeld s = .next { s with sweep.st := .held, sweep.acc := 0 }))

/-- 02 R33, R34 and R37: POS_SYNC, HOLDOVER, SWEEP_LOST and SWEEP_HOLD_RELEASE on a worker. A frame of a higher position is a
forward jump; one of a lower position makes the sweep hold until the beacon reaches it; one out of HOLDOVER resynchronises, and
the first after a change of source is taken as it is (log entry 58). Without frames the sweep goes into HOLDOVER and, 64 µs later,
LOST, each with a notice. -/
def Obligations.WorkerFollowsBeacon : Prop :=
  (∀ (s : State) (pos : Pos) (rate : Word) (arrival : Nat), s.sweep.source = .group → s.grp.keeper = false →
    s.grp.phase.isSome = true → s.running = true → stampDue s arrival = true → s.sweep.st = .running → s.sweep.takeNext = false →
    let gone : Int := (stampNow s : Int) - ((arrival : Int) - (ownDelays s).1)
    let p := pos + BitVec.ofInt 64 (gone * rate.toNat / 2 ^ 24)
    (isPast s.sweep.pos p = false → exec (.posSync pos rate arrival) s = .next { s with sweep := { s.sweep with
      rate := rate.toNat, lastFrame := s.now, pos := p, acc := 0, jumpAt := s.now * 65536, st := .running, holdFor := none } }) ∧
    (isPast s.sweep.pos p = true → exec (.posSync pos rate arrival) s = .next { s with sweep := { s.sweep with
      rate := rate.toNat, lastFrame := s.now, st := .held, holdFor := some s.sweep.pos, beacon := p, acc := 0 } })) ∧
  (∀ (s : State) (pos : Pos) (rate : Word) (arrival : Nat), s.sweep.source = .group → s.grp.keeper = false →
    s.grp.phase.isSome = true → s.running = true → stampDue s arrival = true →
    let gone : Int := (stampNow s : Int) - ((arrival : Int) - (ownDelays s).1)
    let p := pos + BitVec.ofInt 64 (gone * rate.toNat / 2 ^ 24)
    (s.sweep.takeNext = true → exec (.posSync pos rate arrival) s = .next { s with sweep := { s.sweep with
      rate := rate.toNat, lastFrame := s.now, pos := p, acc := 0, jumpAt := s.now * 65536, st := .running, takeNext := false,
      holdFor := none } }) ∧
    (s.sweep.takeNext = false → s.sweep.st = .holdover → isPast s.sweep.pos p = false → s.stg.sched = [] →
      ∃ v, exec (.posSync pos rate arrival) s = .next v ∧ v.sweep.pos = p ∧ v.sweep.st = .running ∧
        v.sweep.rate = rate.toNat ∧ v.sweep.resync = incSat 16 s.sweep.resync)) ∧
  (∀ s : State, s.sweep.source = .group → (s.sweep.st = .running ∨ s.sweep.st = .held) →
    s.sweep.lastFrame + framesMissing ≤ s.now →
    exec .holdover s = .next (notice { s with sweep.st := .holdover, sweep.holdoverAt := s.now } 0x04A0 0)) ∧
  (∀ s : State, s.sweep.source = .group → s.sweep.st = .holdover → s.sweep.holdoverAt + 64 * usTicks ≤ s.now →
    exec .sweepLost s = .next (notice { s with sweep := { s.sweep with st := .lost, rate := 0, acc := 0, holdFor := none } }
      0x04A1 0)) ∧
  (∀ (s : State) (p : Pos), s.sweep.holdFor = some p → isFuture s.sweep.beacon p = false →
    ∃ t, exec .sweepHoldRelease s = .next t ∧ t.sweep.pos = s.sweep.beacon ∧ t.sweep.holdFor = none ∧
      (s.sweep.st = .held → t.sweep.st = .running) ∧ t = { s with sweep := t.sweep })

/-! ### Channels and time-stampers (03, 04, 07) -/

/-- 03 R46 and R47: the channel page shows each level and each load current with the code it is held as, the staged value times
its step to the nearest code with ties to the even code, and the effective value of that code to the nearest microvolt or
nanoampere. -/
def Obligations.LevelsAreHeldAsCodes : Prop :=
  ∀ (s : State) (path : Path) (n : Fin 512), pageStale s (0x200000 + 0x1000 * n) = false →
    (∀ p ∈ [(2, 0x10), (3, 0x18), (4, 0x20), (5, 0x28), (6, 0x30), (0x0A, 0x38)],
      let v := s.setting 1 n p.1
      (-1500000 : Int) ≤ v → v ≤ 7000000 → ∃ (code : Nat) (e : Int), code ≤ 65535 ∧ NearestEven ((v + 1500000) * 7710) 1000000 code ∧
        NearestEven ((code : Int) * 1000000 - 1500000 * 7710) 7710 e ∧
        regRead s path (0x200000 + 0x1000 * n + p.2) = some (fromSigned 32 e + code * 2 ^ 32)) ∧
    (∀ p ∈ [(8, 0x40), (9, 0x48)],
      let i := s.setting 1 n p.1
      0 ≤ i → i ≤ 24000000 → ∃ (code : Nat) (e : Int), code ≤ 65535 ∧ NearestEven (i * 65535) 24000000 code ∧
        NearestEven ((code : Int) * 24000000) 65535 e ∧
        regRead s path (0x200000 + 0x1000 * n + p.2) = some (fromSigned 32 e + code * 2 ^ 32))

/-- 04 R82, R83, R85 and R87: DRIVER_EDGE. The pending edge that falls due first acts. One that leaves the driver as it is changes
neither driver nor EDGE_SLIPS. One that changes it within 512 steps of the last acting edge, also one already put off, is put off
to 512 steps after it and counts one slip; otherwise the driver takes its state, and every edge of an older period is cancelled
and counts one slip. A falling one takes the DESKEW_FALL of its period. No edge acts while the sweep holds short of the start of
its period 0 or wait position, and none acts on a channel that is neither IDLE nor ACTIVE. 03 R49, R55, R56 and R63: what drives
the pin. A driver at a level gives a current of the sign of its difference from the pin, never more than 150 mA, and below 40 mA
by an output impedance of 48 to 52 ohms. The load sinks IOH from VCOM + 250 mV up, sources IOL from VCOM − 250 mV down, and is
linear between. With the driver off the pin sees TERM in IDLE and ACTIVE and nothing in the other states, during a self-check and
while a rail holds every pin high-impedance. -/
def Obligations.DriversAct : Prop :=
  (∀ (s : State) (ch : Fin 512), (s.chan ch).edges ≠ [] → repredict s (ch.val / 64) = none → exec (.driverEdge ch) s = .next s) ∧
  (∀ (s' s : State) (ch : Fin 512) (e : PinEdge), (s'.chan ch).edges ≠ [] → repredict s' (ch.val / 64) = some s →
    nextEdge s ch = some e →
    let c := s.chan ch
    let cur := drvAt s ch e.at'
    let next := edgeResult e.format e.code e.kind cur
    let at' := if e.delayed = false ∧ edgeFalls s ch e next e.at' = true then e.at' + e.fall else e.at'
    let old := (c.edges.filter fun f => f.period < e.period).length
    (stepDue s at' = false → exec (.driverEdge ch) s' = .next s) ∧
    (stepDue s at' = true → unplaced s ch at' = false → c.st ≠ .idle → c.st ≠ .active → ∃ t, exec (.driverEdge ch) s' = .next t ∧
      (t.chan ch).drv = c.drv ∧ (t.chan ch).slips = c.slips ∧ (t.chan ch).edges = c.edges.erase e) ∧
    (stepDue s at' = true → unplaced s ch at' = false → (c.st = .idle ∨ c.st = .active) →
    (next = cur → ∃ t, exec (.driverEdge ch) s' = .next t ∧ (t.chan ch).drv = c.drv ∧ (t.chan ch).slips = c.slips ∧
      (t.chan ch).edges = c.edges.erase e) ∧
    (next ≠ cur → (∀ l, c.lastEdge = some l → l.1 + 512 ≤ at' ∨ (l.2 = e.period ∧ l.1 = at')) →
      ∃ t, exec (.driverEdge ch) s' = .next t ∧ (t.chan ch).drv = next ∧ (t.chan ch).lastEdge = some (at', e.period) ∧
        (∀ f ∈ (t.chan ch).edges, e.period ≤ f.period) ∧
        (t.chan ch).slips = if old = 0 then c.slips else min 65535 (c.slips + old)) ∧
    (∀ l, next ≠ cur → c.lastEdge = some l → at' < l.1 + 512 → ¬ (l.2 = e.period ∧ l.1 = at') →
      ∃ t, exec (.driverEdge ch) s' = .next t ∧ (t.chan ch).drv = c.drv ∧ (t.chan ch).slips = min 65535 (c.slips + 1) ∧
        { e with at' := l.1 + 512, delayed := true } ∈ (t.chan ch).edges))) ∧
  ((∀ (n : Nat) (level pin : Int), let i := driverCurrent n level pin
    i.natAbs ≤ 150000000 ∧ (pin ≤ level → 0 ≤ i) ∧ (level ≤ pin → i ≤ 0) ∧
    (i.natAbs < 40000000 → 48000 * i.natAbs ≤ (level - pin).natAbs * 1000000 ∧
      (level - pin).natAbs * 1000000 < 52000 * (i.natAbs + 1))) ∧
  (∀ (s : State) (n : Nat) (pin : Int),
    let ioh := loadNa (loadCode (s.setting 1 n 8))
    let iol := loadNa (loadCode (s.setting 1 n 9))
    let vcom := levelUv (levelCode (s.setting 1 n 0x00A))
    (vcom + 250000 ≤ pin → loadSink s n pin = ioh) ∧ (pin ≤ vcom - 250000 → loadSink s n pin = -iol) ∧
    (vcom - 250000 < pin → pin < vcom + 250000 →
      NearestEven ((ioh + iol) * (pin - vcom + 250000)) 500000 (loadSink s n pin + iol))) ∧
  (∀ (s : State) (n : Nat) (t pin : Int),
    (∀ c, drivenCode s n t = some c → pinCurrent s n t pin = driverCurrent n (levelUv c) pin) ∧
    (drivenCode s n t = none → ((s.chan n).st = .idle ∨ (s.chan n).st = .active) → (s.chan n).checking = false →
      pinsDriven s = true →
      (s.setting 1 n 0x00B = 0 → pinCurrent s n t pin = 0) ∧
      (s.setting 1 n 0x00B = 1 → pinCurrent s n t pin = driverCurrent n (levelUv (levelCode (s.setting 1 n 4))) pin) ∧
      (s.setting 1 n 0x00B = 2 → pinCurrent s n t pin = -loadSink s n pin)) ∧
    (drivenCode s n t = none → (s.chan n).st ≠ .idle → (s.chan n).st ≠ .active → pinCurrent s n t pin = 0) ∧
    (((s.chan n).checking = true ∨ pinsDriven s = false) → drivenCode s n t = none ∧ pinCurrent s n t pin = 0)))

/-- 03 R54 and R60, 04 R84, 06 R121: COMPARE_STROBE and COMPARE_WINDOW_CLOSE. A strobe compares the classification at C0 with its
code and a fail sets a WINDOW_LATCH that no later tick has cleared; CP captures the classification; a window opens at C0, and
truncates one still open before its C1. In a wait nothing is compared. At C1 a window that was evaluated without a violation
passes, one never evaluated is decided as a strobe, one in which BETWEEN has lasted 1.25 ns fails CV there, and one that has
failed gives no second result. 03 R57 to R59: BLANK_TIMER_EXPIRY and EDGE_BLANKING_END. The blanking ends; an open window of a
channel that was blanked is evaluated at this first unblanked instant, and a violation of CL, CH or CM fails its period. -/
def Obligations.ComparesDecideOutsideBlanking : Prop :=
  ((∀ (s : State) (ch : Fin 512) (k : Compare), nextCompare (s.chan ch) = some k → compareDue s ch k k.c0 = true →
    let cls := classAt (s.chan ch) k.c0
    let sec := s.sec (ch.val / 64)
    (inWait s ch k.c0 = true → ∃ t, exec (.compareStrobe ch) s = .next t ∧ (t.sec (ch.val / 64)).results = sec.results ∧
      (∀ j ∈ (t.chan ch).compares, j.period ≠ k.period)) ∧
    (inWait s ch k.c0 = false → k.code = 10 → ∃ t v, exec (.compareStrobe ch) s = .next t ∧
      (t.sec (ch.val / 64)).results = sec.results ++ [⟨k.period, ch, false, some cls, v, k.c0⟩] ∧
      (∀ j ∈ (t.chan ch).compares, j.period ≠ k.period)) ∧
    (inWait s ch k.c0 = false → k.code ≠ 10 → (k.window = false ∨ k.c1 ≤ k.c0) →
      ∃ t v, exec (.compareStrobe ch) s = .next t ∧
      (t.sec (ch.val / 64)).results = sec.results ++ [⟨k.period, ch, violates k.code cls, none, v, k.c0⟩] ∧
      (∀ j ∈ (t.chan ch).compares, j.period ≠ k.period) ∧
      (violates k.code cls = true → (s.chan ch).st = .active → s.setting 1 ch 0x00D = 0 →
        (s.chan ch).clearedAt ≤ (k.c0 / 256).toNat → (t.chan ch).latch = true)) ∧
    (inWait s ch k.c0 = false → k.code ≠ 10 → k.window = true → k.c0 < k.c1 →
      ∃ t, exec (.compareStrobe ch) s = .next t ∧
        (openWindow (s.chan ch) = none →
          (∃ j ∈ (t.chan ch).compares, j.period = k.period ∧ j.opened = true) ∧ (t.chan ch).truncs = (s.chan ch).truncs) ∧
        (∀ j, openWindow (s.chan ch) = some j →
          (t.chan ch).truncs = if j.c1 ≤ k.c0 then (s.chan ch).truncs else incSat 16 (s.chan ch).truncs))) ∧
  (∀ (s : State) (ch : Fin 512) (k : Compare), openWindow (s.chan ch) = some k → compareDue s ch k (k.c1 - 1) = true →
    opensBefore s ch k.c1 = false →
    let sec := s.sec (ch.val / 64)
    (k.failed = false → runFails k (runStop s ch k k.c1) = none → ∃ t v, exec (.compareWindowClose ch) s = .next t ∧
      (t.sec (ch.val / 64)).results = sec.results ++
        [⟨k.period, ch, !k.seen && !inWait s ch k.c1 && violates k.code (classAt (s.chan ch) k.c1), none, v, k.c1⟩] ∧
      (∀ j ∈ (t.chan ch).compares, j.period ≠ k.period)) ∧
    (∀ u, k.failed = false → runFails k (runStop s ch k k.c1) = some u →
      ∃ t v, exec (.compareWindowClose ch) s = .next t ∧
      (t.sec (ch.val / 64)).results = sec.results ++ [⟨k.period, ch, true, none, v, u⟩] ∧
      (∀ j ∈ (t.chan ch).compares, j.period ≠ k.period)) ∧
    (k.failed = true → ∃ t, exec (.compareWindowClose ch) s = .next t ∧ (t.sec (ch.val / 64)).results = sec.results ∧
      (∀ j ∈ (t.chan ch).compares, j.period ≠ k.period)))) ∧
  ((∀ (s : State) (lg : Fin 64) (e : Int), (s.lg lg).blankEnd = some e → stepDue s e = true →
    (∀ j : Fin 8, opensBefore s (8 * lg.val + j.val) e = false) →
    ∃ t, exec (.blankTimerExpiry lg) s = .next t ∧ (t.lg lg).blankEnd = none ∧ (∀ m, m ≠ lg.val → t.lg m = s.lg m) ∧
      ∀ (j : Fin 8) (k : Compare), let n := 8 * lg.val + j.val
        s.setting 1 n 0x00C = 1 → openWindow (s.chan n) = some k → k.failed = false → k.code ≠ 7 → k.c0 ≤ e →
        e < windowEnd (s.chan n) k →
        inWait s n e = false → violates k.code (classAt (s.chan n) e) = true →
        ∃ r ∈ (t.sec (n / 64)).results, r.ch = n ∧ r.period = k.period ∧ r.fail = true) ∧
  (∀ (s : State) (ch : Fin 512) (p : Int × Int), (s.chan ch).blanksDue = [p] → stepDue s p.2 = true →
    opensBefore s ch p.2 = false →
    ∃ t, exec (.edgeBlankingEnd ch) s = .next t ∧ (t.chan ch).blanksDue = [] ∧
      ∀ k : Compare, s.setting 1 ch 0x00C = 2 → openWindow (s.chan ch) = some k → k.failed = false → k.code ≠ 7 →
        k.between = none → k.c0 ≤ p.2 → p.2 < windowEnd (s.chan ch) k → inWait s ch p.2 = false →
        violates k.code (classAt (s.chan ch) p.2) = true →
        ∃ r ∈ (t.sec (ch.val / 64)).results, r.ch = ch.val ∧ r.period = k.period ∧ r.fail = true))

/-- 03 R53 and R59, 07 R139 to R142: COMPARATOR_CROSSING. A crossing sets or clears its comparator bit; it stops there while the
channel is blanked, in HOLD or ISOLATED. Inside the hold-off it is only counted. Otherwise it is accepted and becomes the
reference; inside the 4.0 ns dead time it counts as DEAD_MISSED and is not queued, and outside it is resolved and, in ALL or
WINDOW mode with its type admitted, enters the 64 ns alignment with the stamp of 07 R145. 07 R139 steps 7 to 9, R157, R158, R159
and R160: STAMP_ALIGNMENT_DONE, STAMP_MERGE and STAMP_BLOCK_FLUSH. An aligned stamp enters its channel's queue behind the records
that are not later and counts in STAMPS, is lost at 120 entries, or counts as outside the window; one that came before its stream
opened goes nowhere, and with ACCEPT_MODE OFF none is kept. The merger moves the next record of the round robin to its DDR5 area,
where the 8 bytes at the channel's offset hold it and all other bytes read as before. A host block is staged once FLUSH has
passed. -/
def Obligations.CrossingsReachStreams : Prop :=
  (∀ (s : State) (ch : Fin 512) (x : Cross) (t : Nat) (code : BitVec 12),
    let c := s.chan ch
    let near : Bool := match holdRef s ch x with
      | some r => decide ((tickOfStamp s t).toNat - r < s.settingN 1 ch 0x203)
      | none => false
    (crossMoves c x = false → exec (.comparatorCrossing ch x t code) s = .next s) ∧
    (crossMoves c x = true → (blankedAt s ch (stepOfStamp s t) = true ∨ c.st = .hold ∨ c.st = .isolated) →
      exec (.comparatorCrossing ch x t code) s = .next (takeCross s ch x (stepOfStamp s t)) ∧
        ((takeCross s ch x (stepOfStamp s t)).chan ch).vol = (crossBits c x).vol ∧
        ((takeCross s ch x (stepOfStamp s t)).chan ch).voh = (crossBits c x).voh) ∧
    (crossMoves c x = true → blankedAt s ch (stepOfStamp s t) = false → c.st ≠ .hold → c.st ≠ .isolated → c.checking = false →
      ∃ u, exec (.comparatorCrossing ch x t code) s = .next u ∧ (u.chan ch).vol = (crossBits c x).vol ∧
        (u.chan ch).voh = (crossBits c x).voh ∧
        (near = true → (u.chan ch).holdSuppressed = incSat 32 c.holdSuppressed ∧ (u.chan ch).resolved = c.resolved ∧
          (u.chan ch).aligning = c.aligning) ∧
        (near = false → (∀ r, c.resolved = some r → r + 419431 ≤ t) → (u.chan ch).resolved = some t ∧
          (s.setting 1 ch 0x201 ≠ 0 → bitOf (s.settingN 1 ch 0x202) (crossType x) = true →
            (u.chan ch).aligning = c.aligning ++
              [(t + 6710887, stampRec (crossType x) (stampTime s ch (tickOfStamp s t + 2).toNat code.toNat))])) ∧
        (near = false → ∀ r, c.resolved = some r → t < r + 419431 → (u.chan ch).resolved = c.resolved ∧
          (u.chan ch).deadMissed = incSat 32 c.deadMissed ∧ (u.chan ch).aligning = c.aligning))) ∧
  ((∀ (s : State) (ch : Fin 512) (due : Nat) (r : Stamp) (rest : List (Nat × Stamp)), (s.chan ch).aligning = (due, r) :: rest →
    stampDue s due = true → r.type ≤ 3 →
    let off := s.setting 1 ch 0x201 = 0
    let out := s.setting 1 ch 0x201 = 2 ∧ windowPass s ch (r.tick * 65536 + r.fine) = false
    ∃ t, exec (.stampAlignmentDone ch) s = .next t ∧ (t.chan ch).aligning = rest ∧
      (off → (t.chan ch).queue = (s.chan ch).queue ∧ (t.chan ch).stamps = (s.chan ch).stamps) ∧
      (out → (t.chan ch).outsideWindow = incSat 32 (s.chan ch).outsideWindow ∧ (t.chan ch).queue = (s.chan ch).queue) ∧
      (¬ off → ¬ out → beforeStream s ch (due - 6710887) = true → (t.chan ch).queue = (s.chan ch).queue ∧
        (t.chan ch).stamps = ((s.chan ch).stamps + 1) % 2 ^ 48) ∧
      (¬ off → ¬ out → beforeStream s ch (due - 6710887) = false → (s.chan ch).queue.length < 120 →
        (t.chan ch).stamps = ((s.chan ch).stamps + 1) % 2 ^ 48 ∧
        ((∀ q ∈ (s.chan ch).queue, recBefore r q = false) → (t.chan ch).queue = (s.chan ch).queue ++ [r])) ∧
      (¬ off → ¬ out → 120 ≤ (s.chan ch).queue.length → (t.chan ch).queue = (s.chan ch).queue)) ∧
  (∀ (s : State) (ch : Fin 512) (k : Fin 16) (r : Stamp) (rest : List Stamp), streamOf s ch = some k.val →
    (s.chan ch).queue = r :: rest → mergeable s ch = true → s.mergeNext ≤ 5 * s.now + 4 →
    (∀ n, n < 512 → n ≠ ch.val → (s.chan n).queue = []) → s.memUp = true →
    (s.memChan 0).owed = false → (s.memChan 1).owed = false →
    let x := s.stream k
    let c := s.chan ch
    let a := x.base + (ch.val - x.first) * x.size + c.wrOff
    x.dest = 0 → c.lostCount = 0 → c.epochSent = some (r.tick / 2 ^ 45) → c.wrOff + 16 ≤ x.size →
    badBeats s (a / 64 * 64) ((a + 71) / 64 * 64 - a / 64 * 64) = [] →
    ∃ t, exec .stampMerge s = .next t ∧ (t.chan ch).queue = rest ∧ (t.chan ch).wrOff = c.wrOff + 8 ∧
      ddrRead t a 8 = leBytes 8 (stampWord r) ∧
      (∀ b, (b < a ∨ a + 8 ≤ b) → Memory.read t.mem.cells b = Memory.read s.mem.cells b)) ∧
  (∀ (s : State) (k : Fin 16) (ch : Fin 512) (r : Stamp) (rest : List Stamp), (s.stream k).isOpen = true →
    (s.stream k).dest = 1 → streamOf s ch = some k.val → (s.chan ch).block = r :: rest →
    (s.stream k).flush * usTicks ≤ s.now - (s.chan ch).blockAt → stageRoom s (s.stream k).str = true →
    let bytes := stampBlock ch (blockWords (r.tick / 2 ^ 45) (r :: rest)) r.tick (s.stream k).blockSeq
    let q := s.ring .str (s.stream k).str
    let blocks := q.staged ++ q.source ++ [(bytes ++ zeros (4096 - bytes.length), false)]
    ∃ t, exec (.stampBlockFlush k ch) s = .next t ∧ (t.chan ch).block = [] ∧
      (t.ring .str (s.stream k).str).staged = blocks.take 32 ∧ (t.ring .str (s.stream k).str).source = blocks.drop 32))

/-- 07 R151 to R154: WINDOW_GENERATOR_START, WIN_OPEN and WIN_CLOSE. The earliest start event at S gives the window of 07 R152,
unless a window is due or open past S: then it counts in IGNORED_STARTS; one at or after the W_C of a window that is not closed
yet waits. A sweep start gives the window of the instant at which the sweep reached its position. At W_O the window opens and each
follower in service queues WIN_OPEN. At W_C it closes; the COUNT-th closing ends the arming. 07 R155, R156 and R158, 02 R39:
TIM_ARM and STAMP_STREAM. ARM of a free generator arms it with the converted offsets and parks; from the sweep its first start
enters the scheduler, and a start that comes too soon is refused LATE; ARM of an armed one is CONSISTENCY. DISARM ends an arming
and completes OK with 1, or 0 without one. STAMP_STREAM opens its stream with the queues and registers of its channels empty,
takes its rate of DDR5 or of the host link, and binds its STR ring. -/
def Obligations.StampersOpenWindows : Prop :=
  ((∀ (s : State) (sec : Fin 8) (g : Fin 4) (t : Nat), (s.wg sec g).armed.isSome = true → (s.wg sec g).src ≠ 1 →
    t ∈ (s.wg sec g).due → (∀ d ∈ (s.wg sec g).due, t ≤ d) →
    let x := s.wg sec g
    (x.win = none → ∃ u, exec (.windowGeneratorStart sec g t) s = .next u ∧
      (u.wg sec g).win = some (256 * ((t + 256 * x.opens) / 256), 256 * ((t + 256 * x.closes) / 256)) ∧
      (u.wg sec g).isOpen = false) ∧
    (∀ w, x.win = some w → t < w.2 → ∃ u, exec (.windowGeneratorStart sec g t) s = .next u ∧ (u.wg sec g).win = x.win ∧
      (u.sec sec).ignoredStarts = (s.sec sec).ignoredStarts + 1) ∧
    (∀ w, x.win = some w → w.2 ≤ t → exec (.windowGeneratorStart sec g t) s = .next s)) ∧
  (∀ (s : State) (sec : Fin 8) (g : Fin 4) (t : Nat) (a : Action), (s.wg sec g).armed.isSome = true → (s.wg sec g).src = 1 →
    findAct s (.window sec g) = some a → mayAct s a = true → (s.wg sec g).win = none →
    let x := s.wg sec g
    let at' := stampOfPos s a.pos
    ∃ u, exec (.windowGeneratorStart sec g t) s = .next u ∧
      (u.wg sec g).win = some (256 * ((at' + 256 * x.opens) / 256), 256 * ((at' + 256 * x.closes) / 256)) ∧
      (u.wg sec g).starts = x.starts + 1) ∧
  (∀ (s : State) (sec : Fin 8) (g : Fin 4) (o c : Nat), (s.wg sec g).armed.isSome = true → (s.wg sec g).win = some (o, c) →
    (s.wg sec g).isOpen = false → stampDue s o = true →
    let w : Stamp := ⟨4, o / 65536, o % 65536 / 256 * 256 + g.val⟩
    ∃ u, exec (.winOpen sec g) s = .next u ∧ (u.wg sec g).isOpen = true ∧
      ∀ ch ∈ followers s sec g,
        ((s.chan ch).st ≠ .hold → (s.chan ch).st ≠ .isolated → (s.chan ch).queue.length < 128 →
          (∀ q ∈ (s.chan ch).queue, recBefore w q = false) → (u.chan ch).queue = (s.chan ch).queue ++ [w]) ∧
        (((s.chan ch).st = .hold ∨ (s.chan ch).st = .isolated) → (u.chan ch).queue = (s.chan ch).queue)) ∧
  (∀ (s : State) (sec : Fin 8) (g : Fin 4) (o c id : Nat), (s.wg sec g).armed = some id → (s.wg sec g).win = some (o, c) →
    (s.wg sec g).isOpen = true → stampDue s c = true →
    let x := s.wg sec g
    let last := x.count ≠ 0xFFFFFFFF ∧ x.count ≤ x.done + 1
    ∃ u, exec (.winClose sec g) s = .next u ∧ (u.wg sec g).win = none ∧ (u.wg sec g).isOpen = false ∧
      (u.wg sec g).done = x.done + 1 ∧ (last → (u.wg sec g).armed = none) ∧ (¬ last → (u.wg sec g).armed = some id))) ∧
  ((∀ (s : State) (id c : Nat) (sl : Slot), s.Serves id c sl → sl.opc = 0x20 → sl.op 8 1 = 0 → timArmOk sl = true →
    sl.covers0 sl.secMask = true →
    let n := lowestBit 8 sl.secMask
    let g := sl.op 9 1
    let p : Pos := BitVec.ofNat 64 (sl.op 32 8)
    ((s.wg n g).armed = none → inRecovery s (domSec n) = false →
      (sl.op 10 1 = 1 → isLate s p 1000 = false ∧ schedFull s = false) →
      ∃ t, exec (.timArmArm id) s = .next t ∧ parkedFor t id .ending = true ∧ (t.wg n g).armed = some id ∧
        (t.wg n g).src = sl.op 10 1 ∧ (t.wg n g).sel = sl.op 11 1 ∧ (t.wg n g).count = sl.op 12 4 ∧
        (t.wg n g).opens = (stepsOf (sl.op 16 8)).toNat ∧ (t.wg n g).closes = (stepsOf (sl.op 24 8)).toNat ∧
        (t.wg n g).done = 0 ∧ (t.wg n g).win = none ∧
        (sl.op 10 1 = 1 → ∃ a ∈ t.stg.sched, a.kind = .window n g ∧ a.slot = some id ∧ a.pos = p) ∧
        (sl.op 10 1 ≠ 1 → t.stg.sched = s.stg.sched)) ∧
    ((s.wg n g).armed = none → inRecovery s (domSec n) = false → sl.op 10 1 = 1 → isLate s p 1000 = true →
      schedFull s = false → exec (.timArmArm id) s = .next (done s id Status.late 0)) ∧
    ((s.wg n g).armed.isSome = true → exec (.timArmArm id) s = .next (done s id Status.consistency 0))) ∧
  (∀ (s : State) (id c : Nat) (sl : Slot), s.Serves id c sl → sl.opc = 0x20 → sl.op 8 1 = 1 → sl.op 9 1 ≤ 3 →
    sl.zero 10 64 = true → popcount 8 sl.secMask = 1 → sl.covers0 sl.secMask = true →
    let n := lowestBit 8 sl.secMask
    let g := sl.op 9 1
    ((s.wg n g).armed = none → exec (.timArmDisarm id) s = .next (done s id Status.ok 0)) ∧
    ((s.wg n g).armed.isSome = true → ∃ u, exec (.timArmDisarm id) s = .next (done u id Status.ok 1) ∧
      (u.wg n g).armed = none ∧ (u.wg n g).isOpen = false)) ∧
  (∀ (s : State) (id c : Nat) (sl : Slot), s.Serves id c sl → sl.opc = 0x21 → stampStreamOk sl = true →
    let dest := sl.op 8 1
    let k := sl.op 10 1
    let str := sl.op 11 1
    let chans := streamChans (sl.op 12 2) (sl.op 14 2)
    let rate := 8 * sl.op 16 4
    let size := sl.op 32 8
    (dest = 0 → size ≠ 0 ∧ (regionHolding s [4] (sl.op 24 8) (sl.op 14 2 * size)).isSome = true ∧ s.memUp = true ∧
      fitsStamp s rate = true ∧ (∀ d ∈ chanDies chans, fitsUp s d rate = true)) →
    (dest = 1 → strFree s str = true ∧ fitsHost s rate = true) →
    (∀ n ∈ chans, sl.covers0 (2 ^ (n / 64)) = true) → (s.stream k).isOpen = false → (∀ n ∈ chans, streamOf s n = none) →
    ∃ u, exec (.stampStream id) s = .next (done u id Status.ok 0) ∧ (u.stream k).isOpen = true ∧
      (u.stream k).dest = dest ∧ (u.stream k).first = sl.op 12 2 ∧ (u.stream k).count = sl.op 14 2 ∧
      (u.stream k).base = sl.op 24 8 ∧ (u.stream k).size = size ∧
      (dest = 0 → u.mem.stamp = s.mem.stamp + rate) ∧
      (dest = 1 → u.mem.host = s.mem.host + rate ∧ (u.ring .str str).inUse = true) ∧
      (∀ n ∈ chans, (u.chan n).queue = [] ∧ (u.chan n).wrOff = 0 ∧ (u.chan n).epochSent = none ∧ (u.chan n).lostCount = 0)))

/-! ### Patterns and sequencers (05, 06) -/

/-- 05 R92 to R96: SEG_LOAD. A load takes `vectors` vectors at a time from host memory or DDR5: a resident one puts its words in the
store as they are read, a streamed one leaves the store alone, and after the last the segment enters the directory as its words
give it; a segment that fails test 7 refuses the load with FIELD and the offset, the directory as before. An uncorrectable beat of
its vectors in DDR5 ends it TESTER_FAULT with the vector's number. An entry in use is SEGMENT_ACTIVE; FREE empties the entry. 06
R129: SITE_MAP. It reads its entries once and takes `channels` channels at a time; a channel whose site changes must lie in an IDLE
sector, at the completion as well, else CONSISTENCY. At its completion each of its channels has the site of its entry, and no other
channel has changed. 05 R100, 06 R109, R125,
R127 and R128: BURST and BURST_CTL. A BURST waits while a named sector is not IDLE; admitted, it arms each named sector as its own
and enters the scheduler. STOP is CONSISTENCY on an IDLE or HELD sector; on a running one it waits for the burst's end with the stop
requested, and a waiting one drains. JUMP makes its target the pending jump; one that it replaces is complete. -/
def Obligations.SegmentsAndBursts : Prop :=
  (∀ (s : State) (id c : Nat) (sl : Slot) (data : List Byte) (vectors : Nat), s.Serves id c sl → sl.opc = 0x10 →
    segLoadOk sl = true →
    let n := lowestBit 8 sl.secMask
    let seg := sl.op 8 2
    let count := sl.op 12 4
    let base := sl.op 24 4
    let p := sl.progress
    let m := min count (p + vectors)
    let kind := sl.op 10 1
    let src := sl.op 16 8 + 36 * p
    let size := 36 * (m - p)
    sl.covers0 (2 ^ n) = true → dmaHeld s id sl = false →
    (p = 0 → sl.op 10 1 = 2 → segActive s n seg = false → exec (.segLoad id data vectors) s =
      .next (done (s.updSec n fun x => { x with dir := Tab.set none x.dir seg none }) id Status.ok 0)) ∧
    (kind ≤ 1 → 0 < count → (kind = 0 → base + count ≤ 233016) →
      (sl.op 11 1 = 1 → s.memUp = true ∧
        (regionHolding s (if kind = 1 then [1] else [1, 6]) (sl.op 16 8) (36 * count)).isSome = true) →
      (p = 0 → segActive s n seg = true → exec (.segLoad id data vectors) s = .next (done s id Status.segmentActive 0)) ∧
      (segActive s n seg = false → (kind = 0 → storeOverlaps s n seg base count = false) →
        (∀ b bs, sl.op 11 1 = 1 → badBeats s src size = b :: bs →
          let k := p + (4 * b - src) / 36
          exec (.segLoad id data vectors) s =
            .next (done (leaveItems (scanRead (correctRead s src (36 * (k - p))) (4 * b / 64 * 64) 64).1 id sl k) id
              Status.testerFault k)) ∧
        ((sl.op 11 1 = 1 → badBeats s src size = []) →
          let bytes := if sl.op 11 1 = 1 then ddrRead s src size else hostBytes (data.drop (36 * p)) size
          let ws := (chunks 36 (m - p) bytes).map vWord
          let g := scanSegment (kind + 1) (if kind = 1 then sl.op 16 8 else base)
            ((chunks 36 count (sl.held ++ bytes)).map vWord)
          let stored (t : State) : Prop := (kind = 1 → (t.sec n).store = (s.sec n).store) ∧
            (kind = 0 → (∀ k, k < m - p → Tab.get 0 (t.sec n).store (base + p + k) = ws.getD k 0) ∧
              ∀ k, (k < base + p ∨ base + m ≤ k) → Tab.get 0 (t.sec n).store k = Tab.get 0 (s.sec n).store k)
          (m < count → ∃ t, exec (.segLoad id data vectors) s = .next t ∧ (t.sec n).dir = (s.sec n).dir ∧
            t.slot id = some { sl with held := sl.held ++ bytes, progress := m } ∧ stored t ∧ (∀ j, j ≠ n → t.sec j = s.sec j)) ∧
          (m = count → g.2 = none → ∃ u : State, exec (.segLoad id data vectors) s = .next (done u id Status.ok count) ∧
            segOf u n seg = some g.1 ∧ stored u ∧ (∀ j, j ≠ n → u.sec j = s.sec j) ∧
            (∀ h, h ≠ seg → segOf u n h = segOf s n h)) ∧
          (∀ k, m = count → g.2 = some k → ∃ u : State, exec (.segLoad id data vectors) s = .next (done u id Status.field k) ∧
            (u.sec n).dir = (s.sec n).dir ∧ (∀ j, j ≠ n → u.sec j = s.sec j)))))) ∧
  (∀ (s : State) (id c : Nat) (sl : Slot) (data : List Byte) (channels : Nat), s.Serves id c sl → sl.opc = 0x13 →
    let first := sl.op 8 2
    let count := sl.op 10 2
    let read := hostBytes data (2 * count)
    (sl.progress = 0 → sl.zero 12 16 = true → sl.zero 24 64 = true → sl.op 16 8 % 8 = 0 → 0 < count → first + count ≤ 512 →
      (∀ i, i < count → field read (2 * i) 2 ≤ 255 ∨ field read (2 * i) 2 = 0xFFFF) →
      (∀ i, i < count → sl.covers0 (2 ^ ((first + i) / 64)) = true ∧
        ((s.chan (first + i)).site = siteEntry (field read (2 * i) 2) ∨ (s.sec ((first + i) / 64)).st = .idle)) →
      (channels < count → ∃ t, exec (.siteMap id data channels) s = .next t ∧ (∀ n, t.chan n = s.chan n) ∧
        t.slot id = some { sl with held := read, progress := channels }) ∧
      (count ≤ channels → ∃ u : State, exec (.siteMap id data channels) s = .next (done u id Status.ok count) ∧
        (∀ i, i < count → (u.chan (first + i)).site = siteEntry (field read (2 * i) 2)) ∧
        (∀ n, (n < first ∨ first + count ≤ n) → u.chan n = s.chan n))) ∧
    (0 < sl.progress → first + count ≤ 512 → count ≤ sl.progress + channels →
      let free (i : Nat) : Prop := (s.chan (first + i)).site = siteEntry (field sl.held (2 * i) 2) ∨
        (s.sec ((first + i) / 64)).st = .idle
      ((∀ i, i < count → free i) → ∃ u : State, exec (.siteMap id data channels) s = .next (done u id Status.ok count) ∧
        (∀ i, i < count → (u.chan (first + i)).site = siteEntry (field sl.held (2 * i) 2)) ∧
        (∀ n, (n < first ∨ first + count ≤ n) → u.chan n = s.chan n)) ∧
      ((∃ i, i < count ∧ ¬ free i) → exec (.siteMap id data channels) s = .next (done s id Status.consistency 0))) ∧
    (0 < sl.progress → sl.progress + channels < count → exec (.siteMap id data channels) s =
      .next (s.updSlot id fun x => { x with progress := sl.progress + channels }))) ∧
  ((∀ (s : State) (id c : Nat) (sl : Slot), s.Serves id c sl → sl.opc = 0x11 →
    let secs := maskList 8 sl.secMask
    let p := requestPos s sl 13 24 (burstLead s sl)
    ((secs.any fun n => (s.sec n).st != .idle) = true → exec (.burst id) s = .next (park s id .sectors)) ∧
    ((∀ n ∈ secs, (s.sec n).st = .idle) → schedFull s = false → (∀ t ∈ burstTests s sl p, t.1 = false) →
      ∃ t b, exec (.burst id) s = .next t ∧ parkedFor t id .ending = true ∧ t.stg.sched.length = s.stg.sched.length + 1 ∧
        t.burst id = some b ∧ b.slot = id ∧ b.mask = sl.secMask ∧ b.stop = false ∧ b.jump = none ∧
        ∀ n ∈ secs, (t.sec n).st = .armed ∧ (t.sec n).own = some id ∧ (t.sec n).seg = sl.op 8 2 ∧
          (t.sec n).off = 0 ∧ (t.sec n).vecNum = 0)) ∧
  (∀ (s : State) (id c : Nat) (sl : Slot) (b : Burst), s.Serves id c sl → sl.opc = 0x12 → sl.op 8 1 = 0 →
    burstCtlOk sl = true → sl.op 10 2 = 0 → sl.covers0 sl.secMask = true →
    let n := lowestBit 8 sl.secMask
    (((s.sec n).st = .idle ∨ (s.sec n).st = .held) → exec (.burstCtlStop id) s = .next (done s id Status.consistency 0)) ∧
    (s.Alone n b → b.jump = none → ((s.sec n).st = .running ∨ (s.sec n).st = .padding) →
      ∃ t, exec (.burstCtlStop id) s = .next t ∧ parkedFor t id .ending = true ∧ (t.sec n).st = (s.sec n).st ∧
        t.burst b.slot = some { b with stops := b.stops ++ [id], stop := true }) ∧
    (s.Alone n b → b.jump = none → (s.sec n).st = .waiting →
      ∃ t, exec (.burstCtlStop id) s = .next t ∧ parkedFor t id .ending = true ∧ (t.sec n).st = .draining ∧
        t.burst b.slot = some { b with stops := b.stops ++ [id], ending := worseEnd b.ending .aborted })) ∧
  (∀ (s : State) (id c : Nat) (sl : Slot) (b : Burst), s.Serves id c sl → sl.opc = 0x12 → sl.op 8 1 = 1 →
    burstCtlOk sl = true → sl.op 10 2 ≤ 1023 → sl.covers0 sl.secMask = true →
    let n := lowestBit 8 sl.secMask
    let jump : Jump := ⟨sl.op 10 2, 0, some id, s.now, descKey s id⟩
    s.Alone n b → takesJump s n = true →
    (jumpOk s n (sl.op 10 2) = false → exec (.burstCtlJump id) s = .next (done s id Status.consistency 0)) ∧
    (jumpOk s n (sl.op 10 2) = true → b.jump = none →
      ∃ t b', exec (.burstCtlJump id) s = .next t ∧ parkedFor t id .ending = true ∧ t.burst b.slot = some b' ∧
        b'.jump = some jump ∧ (t.sec n).st = (s.sec n).st) ∧
    (∀ j k, jumpOk s n (sl.op 10 2) = true → b.jump = some j → j.slot = some k → k ≠ id →
      (∀ x, s.slot k = some x → waitsCtx s x = false) → b.laterJump s.now (descKey s id) = false →
      ∃ t b', exec (.burstCtlJump id) s = .next t ∧ parkedFor t id .ending = true ∧ t.slot k = none ∧
        t.burst b.slot = some b' ∧ b'.jump = some jump)))

/-- 06 R109, R121, 05 R102 and 02 R39: BURST_START and WAIT_POSITION_REACHED of a sector that runs alone. At the start position
period 0 begins on the start's edge step, at a wait position the next period on that of P; what was issued ahead of it moves with
it. The sector runs, or pads where it has come to lack a word, and an ending met ahead of the position acts. At a start each IDLE
channel that the margin plan does not exclude becomes ACTIVE (03 R64). 05 R97, R99 to R105, 06 R110, R113, R126 and R128:
VECTOR_ISSUE_POINT of a sector that runs alone. It issues the word at hand as its next vector number, its period as long as its
timing set says, from a segment that it enters or from the target of a jump that qualifies, whose BURST_CTL completes at the start
of that word's period; a stop request drains it ABORTED instead. With the word missing it pads with the keep-alive vector where
PAD is chosen and it holds one, and otherwise drains UNDERRUN; a rejected word drains it TESTER_FAULT and is no underrun. 04 R76,
R77, R80, R85 and R86, 03 R50, R54 and R61: VECTOR_PERIOD_START. From 4 ns before its start an issued period stands at the edge
logic, by the image with every apply of its tick: an ACTIVE channel with a D1 code and NRZ format gets its D1 edge at the
programmed step plus drive deskew, one with a CL, CH, CM or CV code a compare at C0 plus compare deskew, and blanking between B0
and B1. At its start, once a due apply has acted, a period of a sector that runs alone lasts PERIOD edge steps, the periods behind
it follow without a gap, and NEXT_PERIOD clears what was latched before its tick. -/
def Obligations.BurstsIssueVectors : Prop :=
  ((∀ (s : State) (n : Fin 8) (b : Burst) (a : Action), s.Alone n b → findAct s (.burst b.slot) = some a →
    (s.sec n).st = .armed → mayAct s a = true →
    let x := s.sec n
    ∃ t, exec (.burstStart n) s = .next t ∧ (t.sec n).seg = x.seg ∧ (t.sec n).off = x.off ∧
      findAct t (.burst b.slot) = none ∧
      (x.base = none → (t.sec n).nextStart = actStep s a) ∧
      (∀ p, x.base = some p → (t.sec n).nextStart = x.nextStart + (actStep s a - p) ∧
        ((∀ j ∈ x.ahead, p ≤ j.start) → (t.sec n).ahead = x.ahead.map fun j => { j with start := j.start + (actStep s a - p) })) ∧
      (b.pendEnd = none → (t.sec n).st = if x.missing then .padding else .running) ∧
      (∀ e ns, b.pendEnd = some (e, ns) → (t.sec n).st = .draining ∧ ∃ b', t.burst b.slot = some b' ∧
        b'.ending = worseEnd b.ending e) ∧
      (∀ c : Fin 64, (s.chan (64 * n.val + c.val)).st = .idle → excludedChan s (64 * n.val + c.val) = false →
        (t.chan (64 * n.val + c.val)).st = .active) ∧
      (∀ c : Fin 64, (s.chan (64 * n.val + c.val)).st ≠ .idle →
        (t.chan (64 * n.val + c.val)).st = (s.chan (64 * n.val + c.val)).st)) ∧
  (∀ (s : State) (n : Fin 8) (b : Burst) (p : Pos), s.Alone n b → (s.sec n).st = .waiting → b.waitPos = some p →
    isFuture s.sweep.pos p = false →
    let x := s.sec n
    ∃ t, exec (.waitPositionReached n) s = .next t ∧ (t.sec n).waitTo = some (startStep s p) ∧
      (x.base = none → (t.sec n).nextStart = startStep s p) ∧
      (∀ q, x.base = some q → (t.sec n).nextStart = x.nextStart + (startStep s p - q)) ∧
      (b.pendEnd = none → (t.sec n).st = (if x.missing then .padding else .running) ∧
        t.burst b.slot = some { b with waitPos := none }) ∧
      (∀ e ns, b.pendEnd = some (e, ns) → (t.sec n).st = .draining))) ∧
  (∀ (s : State) (n : Fin 8) (b : Burst), s.Alone n b → ((s.sec n).st = .running ∨ (s.sec n).st = .padding) →
    (s.sec n).issued = none → (s.sec n).waitEnd = none → b.pendEnd = none →
    stepDue s ((s.sec n).nextStart - 39321) = true →
    let x := s.sec n
    let go := b.stop = false ∧ x.ending = false ∧ b.jump = none ∧ x.goTo = none ∧ x.missing = false
    (b.stop = true → ∃ t, exec (.vectorIssuePoint n) s = .next t ∧ (t.sec n).st = .draining ∧
      t.burst b.slot = some { b with ending := worseEnd b.ending .aborted }) ∧
    (b.stop = false → b.jump = none → x.ending = true → ∃ t, exec (.vectorIssuePoint n) s = .next t ∧
      (t.sec n).st = .draining ∧ t.burst b.slot = some b) ∧
    (∀ w, go → wordAt s n = some w → ∃ t i, exec (.vectorIssuePoint n) s = .next t ∧
      (t.sec n).issued = some i ∧ i.num = some x.vecNum ∧ i.word = w ∧ i.seg = x.seg ∧ i.off = x.off ∧ i.start = x.nextStart ∧
      (t.sec n).ahead = x.ahead ++ [i] ∧ (t.sec n).vecNum = (x.vecNum + 1) % 2 ^ 48 ∧ (t.sec n).st = .running ∧
      (t.sec n).nextStart = x.nextStart + periodSteps s n (vTset w)) ∧
    (∀ g e, b.stop = false → x.ending = false → b.jump = none → x.missing = false → x.goTo = some g → segOf s n g = some e →
      e.kind = 1 → ∃ t i, exec (.vectorIssuePoint n) s = .next t ∧ (t.sec n).issued = some i ∧
        i.word = Tab.get 0 x.store e.base ∧ i.seg = g ∧ i.off = 0 ∧ (t.sec n).seg = g ∧ (t.sec n).calls = x.calls ∧
        (t.sec n).loops = x.loops ∧ (t.sec n).keepAlive = none) ∧
    (∀ j e, b.stop = false → b.jump = some j → 64 ≤ j.issued → x.boundary = true → segOf s n j.target = some e → e.kind = 1 →
      ∃ t i b', exec (.vectorIssuePoint n) s = .next t ∧ (t.sec n).issued = some i ∧ i.word = Tab.get 0 x.store e.base ∧
        i.seg = j.target ∧ i.off = 0 ∧ (t.sec n).calls = [] ∧ (t.sec n).loops = [] ∧ t.burst b.slot = some b' ∧
        b'.jump = none ∧ b'.landing = j.slot.map fun k => (k, x.vecNum)) ∧
    (∀ w, go → wordAt s n = none → cannotRefill s n = false → b.pad = true → x.keepAlive = some w →
      ∃ t, exec (.vectorIssuePoint n) s = .next t ∧ (t.sec n).st = .padding ∧
        (t.sec n).underruns = incSat 16 x.underruns ∧ (t.sec n).stallVectors = incSat 32 x.stallVectors ∧
        (t.sec n).vecNum = x.vecNum ∧ (t.sec n).nextStart = x.nextStart + periodSteps s n (vTset w)) ∧
    (go → wordAt s n = none → cannotRefill s n = false → (b.pad = false ∨ x.keepAlive = none) →
      ∃ t b', exec (.vectorIssuePoint n) s = .next t ∧ (t.sec n).st = .draining ∧
        (t.sec n).underruns = incSat 16 x.underruns ∧ t.burst b.slot = some b' ∧ b'.ending = worseEnd b.ending .underrun) ∧
    (go → wordAt s n = none → x.bufBad = true →
      ∃ t b', exec (.vectorIssuePoint n) s = .next t ∧ (t.sec n).st = .draining ∧ (t.sec n).underruns = x.underruns ∧
        t.burst b.slot = some b' ∧ b'.ending = worseEnd b.ending .fault)) ∧
  ((∀ (s : State) (n : Fin 8), ((s.sec n).st = .held ∨ repredict s n = none) → exec (.vectorPeriodStart n) s = .next s) ∧
  (∀ (s' s : State) (n : Fin 8) (i : Issued), (s'.sec n).st ≠ .held → repredict s' n = some s →
    (s.sec n).ahead.find? (fun j => !j.placed) = some i → stepDue s (i.start - 1639) = true → (∀ j,
      (s.sec n).ahead.head? = some j → stepDue s j.start = false) →
    let tset := vTset i.word
    let v := startImage s i.start
    ∃ t, exec (.vectorPeriodStart n) s' = .next t ∧ { i with placed := true, image := v.stg.image } ∈ (t.sec n).ahead ∧
      ∀ c : Fin 64,
        let ch := 64 * n.val + c.val
        let code := pinCode i.word c
        (s.chan ch).st = .active →
        (v.settingN 4 (64 * n.val + tset) (0x400 + 16 * c.val) = 0 → code = 1 → ∃ e ∈ (t.chan ch).edges, e.kind = .d1 ∧
          e.code = 1 ∧ e.at' = i.start + edgeOf v ch tset 2 + driveDeskew v ch ∧ e.fall = fallDeskew v ch) ∧
        (∀ num, i.num = some num → 4 ≤ code → code ≤ 7 → ∃ k ∈ (t.chan ch).compares, k.period = num ∧ k.code = code ∧
          k.c0 = i.start + edgeOf v ch tset 5 + compareDeskew v ch ∧ k.window = decide (v.setting 1 ch 0x010 = 1)) ∧
        (edgeOf v ch tset 7 < edgeOf v ch tset 8 → (i.start + edgeOf v ch tset 7 + compareDeskew v ch,
          i.start + edgeOf v ch tset 8 + compareDeskew v ch) ∈ (t.chan ch).blanksDue)) ∧
  (∀ (s : State) (n : Fin 8) (b : Burst) (i : Issued) (rest : List Issued), s.Alone n b → starts (s.sec n).st = true →
    (s.sec n).ahead = i :: rest → i.placed = true → stepDue s i.start = true → applyDue s = false → (s.sec n).waitEnd = none →
    let stop := i.start + periodSteps s n (vTset i.word)
    ∃ t, exec (.vectorPeriodStart n) s = .next t ∧ (t.sec n).periodEnd = stop ∧ (t.sec n).ahead.length = rest.length ∧
      (rest = [] → (t.sec n).nextStart = stop) ∧ (∀ j, (t.sec n).ahead.head? = some j → j.start = stop) ∧
      (∀ k v, b.landing = some (k, v) → i.num = some v → (∀ x, s.slot k = some x → waitsCtx s x = false) → t.slot k = none) ∧
      ∀ c : Fin 64,
        let ch := 64 * n.val + c.val
        s.setting 1 ch 0x00E = 1 → (∀ x, Tab.get 0 (s.chan ch).setAt x < (i.start / 256).toNat) →
          (t.chan ch).latch = false ∧ (t.chan ch).flags = 0))

/-- 06 R110 to R116, R122, R126 and 05 R101: the control opcodes NOP, RPT, LOOP_BEGIN, LOOP_END, CALL, RET, JMP, MARK, STALL_SAFE
and HALT. Past the last vector of a segment at call depth 0 the next slot enters FOLLOW once, or the burst ends; CALL and JMP
enter their segment with the next slot. Where a whole record of the sector is given, no other field of it changes. -/
def Obligations.ControlOpcodesAct : Prop :=
  ∀ (s : State) (n : Fin 8) (i : Issued),
    let x := s.sec n
    let follow := if x.followed then none else followOf s n
    (s.Acts n 0x00 i → lastVector s n i.off = false → ∃ t, exec (.seqNop n) s = .next t ∧
      t.sec n = { x with issued := none, off := i.off + 1 }) ∧
    (s.Acts n 0x00 i → lastVector s n i.off = true → x.calls = [] → ∃ t, exec (.seqNop n) s = .next t ∧
      t.sec n = { x with issued := none, boundary := true, goTo := follow, ending := follow.isNone }) ∧
    (s.Acts n 0x01 i → x.rpt = 0 → 1 < vOperand i.word →
      ∃ t, exec (.rpt n) s = .next t ∧ t.sec n = { x with issued := none, rpt := vOperand i.word - 1 }) ∧
    (s.Acts n 0x01 i → 1 < x.rpt → ∃ t, exec (.rpt n) s = .next t ∧ t.sec n = { x with issued := none, rpt := x.rpt - 1 }) ∧
    (s.Acts n 0x01 i → lastVector s n i.off = false → (x.rpt = 1 ∨ (x.rpt = 0 ∧ vOperand i.word = 1)) →
      ∃ t, exec (.rpt n) s = .next t ∧ t.sec n = { x with issued := none, rpt := 0, off := i.off + 1 }) ∧
    (s.Acts n 0x02 i → loopOpen x i = false → lastVector s n i.off = false → ∃ t, exec (.loopBegin n) s = .next t ∧
      t.sec n = { x with issued := none, off := i.off + 1,
                         loops := ⟨i.seg, i.off, loopCount s n (vOperand i.word), 1, false, 0⟩ :: x.loops }) ∧
    (∀ l rest, s.Acts n 0x03 i → x.loops = l :: rest → l.iter < l.count → ∃ t, exec (.loopEnd n) s = .next t ∧
      t.sec n = { x with issued := none, off := l.start, loops := { l with iter := l.iter + 1 } :: rest }) ∧
    (∀ l rest, s.Acts n 0x03 i → x.loops = l :: rest → l.count ≤ l.iter → lastVector s n i.off = false →
      ∃ t, exec (.loopEnd n) s = .next t ∧ t.sec n = { x with issued := none, off := i.off + 1, loops := rest }) ∧
    (s.Acts n 0x04 i → x.calls.length < 8 → ∃ t, exec (.seqCall n) s = .next t ∧
      t.sec n = { x with issued := none, goTo := some (vOperand i.word),
                         calls := ⟨i.seg, i.off + 1, x.loops.length⟩ :: x.calls }) ∧
    (∀ fr rest g, s.Acts n 0x05 i → x.calls = fr :: rest → segOf s n fr.seg = some g → fr.off < g.len →
      ∃ t, exec (.seqRet n) s = .next t ∧ (t.sec n).seg = fr.seg ∧ (t.sec n).off = fr.off ∧ (t.sec n).calls = rest ∧
        (t.sec n).loops = x.loops.drop (x.loops.length - fr.loopDepth) ∧ (t.sec n).keepAlive = none) ∧
    (s.Acts n 0x05 i → x.calls = [] → ∃ t, exec (.seqRet n) s = .next t ∧
      t.sec n = { x with issued := none, ending := true, boundary := lastVector s n i.off }) ∧
    (s.Acts n 0x06 i → ∃ t, exec (.seqJmp n) s = .next t ∧
      t.sec n = { x with issued := none, goTo := some (vOperand i.word),
                         boundary := lastVector s n i.off && x.calls.isEmpty }) ∧
    (s.Acts n 0x0A i → lastVector s n i.off = false → ∃ t, exec (.mark n) s = .next t ∧
      t.sec n = { x with issued := none, off := i.off + 1 }) ∧
    (s.Acts n 0x0B i → lastVector s n i.off = false → ∃ t, exec (.stallSafe n) s = .next t ∧
      t.sec n = { x with issued := none, off := i.off + 1,
                         keepAlive := if segStreamed s n i.seg then some i.word else x.keepAlive }) ∧
    (s.Acts n 0x0C i → ∃ t, exec (.halt n) s = .next t ∧
      t.sec n = { x with issued := none, ending := true, boundary := lastVector s n i.off && x.calls.isEmpty })

/-- 06 R117 to R119: MATCH and MATCH_END. MATCH opens a match loop in which the active sites with a channel in the sector take part.
MATCH_END takes the results that have arrived 96 ns before its period, and goes on behind the loop at its count, or once every site
has matched, and back to MATCH otherwise; it waits for a compare that is decided in time. A site left when an ended loop's results
are all in is MATCH_TIMEOUT and masked. 06 R120 and R121: WAIT_SWEEP of a sector that runs alone. At the issue point of the vector
behind it that vector comes to be issued for the wait position. At the end of its period, where that lies before P, the sector waits
for P; otherwise it goes on at once and counts in WAIT_LATE. -/
def Obligations.MatchLoopsAndWaits : Prop :=
  ((∀ (s : State) (n : Fin 8) (i : Issued), s.Acts n 0x07 i → loopOpen (s.sec n) i = false → lastVector s n i.off = false →
    let x := s.sec n
    let id := x.own.getD 0
    let sites := (sitesOf s id).filter fun j => siteActive s j id && siteIn s j n
    ∃ t, exec (.matchOpen n) s = .next t ∧ (t.sec n).off = i.off + 1 ∧
      (t.sec n).loops = ⟨i.seg, i.off, loopCount s n (vOperand i.word), 1, true, x.nextMatch⟩ :: x.loops ∧
      (t.sec n).matches' = x.matches' ++ [{ mid := x.nextMatch, waits := sites }]) ∧
  (∀ (s : State) (n : Fin 8) (b : Burst) (i : Issued) (l : Loop) (rest : List Loop), s.Acts n 0x08 i → burstOf s n = some b →
    (s.sec n).loops = l :: rest →
    (matchPending s n l.mid (i.start - 39321) = true → exec (.matchEnd n) s = .next s) ∧
    (matchPending s n l.mid (i.start - 39321) = false →
      let u := absorb (s.updSec n fun x => { x with issued := none, matches' := x.matches'.map fun m =>
        if m.mid == l.mid then { m with full := l.iter } else m }) n b fun r => r.at' + 19661 ≤ i.start - 39321
      (l.count ≤ l.iter → lastVector s n i.off = false → ∃ t, exec (.matchEnd n) s = .next t ∧ (t.sec n).loops = rest ∧
        (t.sec n).off = i.off + 1) ∧
      (l.iter < l.count → (∃ m ∈ (u.sec n).matches', m.mid = l.mid ∧ m.waits ≠ []) →
        ∃ t, exec (.matchEnd n) s = .next t ∧ (t.sec n).loops = { l with iter := l.iter + 1 } :: rest ∧
          (t.sec n).off = l.start) ∧
      (l.iter < l.count → (∀ m ∈ (u.sec n).matches', m.mid ≠ l.mid ∨ m.waits = []) → lastVector s n i.off = false →
        ∃ t, exec (.matchEnd n) s = .next t ∧ (t.sec n).loops = rest ∧ (t.sec n).off = i.off + 1))) ∧
  (∀ (s : State) (n i v : Nat) (m : MatchRun), m.exit = some v → i ∈ m.waits →
    siteActive s i ((s.sec n).own.getD 0) = true → siteMatch s n m i = none → matchOwes s n m.mid = false →
    ((settleMatch s n m).site i).verdict = 3 ∧ ((settleMatch s n m).site i).masked = true)) ∧
  (∀ (s : State) (n : Fin 8) (b : Burst) (i : Issued) (p : Pos), s.Alone n b →
    ((s.sec n).st = .running ∨ (s.sec n).st = .padding) → (s.sec n).issued = some i → vOpc i.word = 9 →
    (s.sec n).waitEnd = none → (s.sec n).wait = some p → bits (vOperand i.word) 19 18 = 0 → lastVector s n i.off = false →
    let x := s.sec n
    let step := x.nextStart
    (stepDue s (step - 39321) = false → exec (.waitSweep n) s = .next s) ∧
    (stepDue s (step - 39321) = true → stepDue s step = false →
      exec (.waitSweep n) s = .next ((s.updSec n fun y => { y with
        issued := none, wait := none, waitEnd := some (step, p, false), off := i.off + 1 }).updBurst b.slot fun y =>
          { y with waitPos := some (laterPos s (posAtStep s step) p) }))) ∧
  (∀ (s : State) (n : Fin 8) (b : Burst) (step : Int) (p : Pos), s.Alone n b →
    ((s.sec n).st = .running ∨ (s.sec n).st = .padding) → (s.sec n).issued = none → (s.sec n).waitEnd = some (step, p, false) →
    (stepDue s step = false → exec (.waitSweep n) s = .next s) ∧
    (stepDue s step = true → (∀ j ∈ (s.sec n).ahead, step ≤ j.start) →
      let x := s.sec n
      let e := posAtStep s step
      let q := laterPos s e p
      (isFuture e q = true → b.stop = false → ∃ t, exec (.waitSweep n) s = .next t ∧ (t.sec n).st = .waiting ∧
        (t.sec n).waitEnd = none ∧ (t.sec n).waitFrom = some step ∧ (t.sec n).waitLate = x.waitLate ∧
        t.burst b.slot = some { b with waitPos := some q }) ∧
      (isFuture e q = true → b.stop = true → ∃ t b', exec (.waitSweep n) s = .next t ∧ (t.sec n).st = .draining ∧
        t.burst b.slot = some b' ∧ b'.ending = worseEnd b.ending .aborted) ∧
      (isFuture e q = false → b.pendEnd = none → ∃ t, exec (.waitSweep n) s = .next t ∧
        (t.sec n).st = (if x.missing then .padding else .running) ∧ (t.sec n).waitEnd = none ∧
        (t.sec n).waitLate = x.waitLate + 1 ∧ (x.base = none → (t.sec n).nextStart = step) ∧
        (∀ r, x.base = some r → (t.sec n).nextStart = x.nextStart + (step - r)) ∧
        t.burst b.slot = some { b with waitPos := none })))

/-- 05 R97 to R99 and 21 R470: REFILL_DATA_ARRIVAL and MEM_PATTERN_UE. The next vector of the stream reaches the buffer from the
64-byte reads that hold it, no sooner than the declared rate lets it; a word that fails test 7 is not delivered; an uncorrectable
beat is a fault of the sector with cause bit 56. 01 R14, 06 R109, R132, R133 and R136: COMPARE_RESULT_ARRIVAL, FAIL_RECORD_DRAIN
and SEQUENCER_DRAIN_DONE. A result arrives 48 ns after its decision; outside match loops a period fails once for an unmasked site,
whatever the number of its failing channels. The oldest capture record of the sector whose turn it is goes to its place in DDR5. A
drained sector is IDLE, its ACTIVE channels with it, and the burst completes with its last sector. -/
def Obligations.RefillAndResults : Prop :=
  ((∀ (s : State) (n : Fin 8) (g o : Nat) (e : Segment), refilling s n = true → fetchPlace s n = some (g, o) →
    segOf s n g = some e →
    let a := e.base + 36 * o
    let bad := badBeats s (a / 64 * 64) ((a + 99) / 64 * 64 - a / 64 * 64)
    let w := vWord (ddrRead s a 36)
    (fillDue s n = false → exec (.refillDataArrival n) s = .next s) ∧
    (fillDue s n = true →
    (bad = [] → wordOk w = true → vOpc w ∉ [2, 3, 7, 8] → ∃ t, exec (.refillDataArrival n) s = .next t ∧
      t.sec n = { s.sec n with buf := (s.sec n).buf ++ [w], fillNext := fillAfter s n }) ∧
    (bad = [] → (wordOk w = false ∨ vOpc w ∈ [2, 3, 7, 8]) → ∃ t, exec (.refillDataArrival n) s = .next t ∧
      t.sec n = { s.sec n with bufBad := true }) ∧
    (∀ b bs, bad = b :: bs → exec (.refillDataArrival n) s = .next (raiseFault (readBeat
      (correctRead s (a / 64 * 64) ((a + 99) / 64 * 64 - a / 64 * 64)) b) (domSec n) 56)))) ∧
  (∀ (s : State) (n : Fin 8) (addr : BitVec 37), refilling s n = true →
    let b := addr.toNat / 4
    ((s.mem.bad.contains b = true ∨ s.mem.poison.contains b = true) →
      exec (.memPatternUe n addr) s = .next (raiseFault (readBeat s b) (domSec n) 56)) ∧
    (s.mem.bad.contains b = false → s.mem.poison.contains b = false → exec (.memPatternUe n addr) s =
      .next (raiseFault (readBeat { s with mem.bad := b :: s.mem.bad } b) (domSec n) 56)))) ∧
  ((∀ (s : State) (n : Fin 8) (b : Burst) (p : Period) (r : Result), burstOf s n = some b →
    (∀ i, (s.sec n).issued = some i → vOpc i.word ≠ 8) → (s.sec n).matches' = [] →
    (s.sec n).results.filter (fun q => q.period == r.period && decide (q.at' + 19661 ≤ (s.now : Int) * 256 + 255)) = [r] →
    (s.sec n).periods.find? (fun q => q.num == r.period) = some p → p.matchIter = none →
    ∃ t, exec (.compareResultArrival n r.period) s = .next t ∧ (t.sec n).results = (s.sec n).results.erase r ∧
      ∀ i, (t.site i).failCount = (s.site i).failCount +
        if r.fail = true ∧ (s.chan r.ch).site = some i ∧ counts s b.slot i r.period = true ∧
          (s.site i).failed.contains r.period = false then 1 else 0) ∧
  (∀ (s : State) (n : Fin 8) (a o : Nat) (bytes : List Byte) (rest : List CapRec), s.memUp = true →
    (s.sec n).capQueue = (a, o, bytes) :: rest → drainNext s = some n.val → s.mem.capture < scaleBudget s 12000000000 →
    (scanModify s a bytes.length).2 = false → (s.memChan 0).owed = false → (s.memChan 1).owed = false →
    ∃ t, exec (.failRecordDrain n) s = .next t ∧ (t.sec n).capQueue = rest ∧ t.drainAt = n.val ∧
      (∀ i, i < bytes.length → Memory.read t.mem.cells (a + i) = bytes.getD i 0) ∧
      (∀ x, (x < a ∨ a + bytes.length ≤ x) → Memory.read t.mem.cells x = Memory.read s.mem.cells x)) ∧
  (∀ (s : State) (n : Fin 8) (b : Burst), drained s n = true → s.Alone n b →
    ∃ t, exec (.sequencerDrainDone n) s = .next t ∧ (t.sec n).st = .idle ∧ t.burst b.slot = none ∧
      ∀ c : Fin 64, (s.chan (64 * n.val + c.val)).st = .active → (t.chan (64 * n.val + c.val)).st = .idle))

/-! ### Parametric units (08) -/

/-- 08 R177 to R184: PMU_LIST and the items of a lane group. A list that passes its tests is admitted with no result formed and
parks; a bad item is FIELD with its index. A free lane group starts the next item on a PMU channel, whose PPMU takes the item's
setting; SETTLE begins 2 µs after the lane ADC is free of a scan's sample, 5 µs more on a range change; sampling lasts 2^AVG_K ×
500 ns; its end forms the result word and frees the lane group. An item whose channel is not in PMU state gives SKIPPED, one of a
channel contained TESTER_FAULT; one behind a result that waits for a full port does not start. 08 R166, R169, R170, R174 to R176:
PMU_RANGE_CHANGE_DONE and PMU_SCAN_RESULT. A range change is over at its time. With no item to run, the PMU channel under scan
gets its calibrated value and flags in PMU_MEAS with the sweep position, no CLAMPED in FNMV, and no other channel changes; with
SCAN_ENABLE the next PMU channel of the lane group, in rising order, is under scan from then on. -/
def Obligations.PmuListsMeasure : Prop :=
  ((∀ (s : State) (id c : Nat) (sl : Slot) (items limits : List Byte), s.Serves id c sl → sl.opc = 0x18 → pmuListOk sl = true →
    let count := sl.op 8 2
    let its := chunks 16 count (hostBytes items (16 * count))
    let ls := chunks 16 (sl.op 40 2) (hostBytes limits (16 * sl.op 40 2))
    (∀ i, (its.findIdx? fun it => !itemOk (sl.op 40 2) it) = some i →
      exec (.pmuList id items limits) s = .next (done s id Status.field i)) ∧
    ((∀ it ∈ its, itemOk (sl.op 40 2) it = true ∧ sl.covers0 (2 ^ (itemChan it / 64)) = true ∧
        itemOver (imageFor s none none) it = false ∧ inRecovery s (domChan (itemChan it)) = false ∧
        excludedItem s (itemChan it) (itemMode it) (itemRange it) = false) →
      (∀ l ∈ ls, limitOk l = true) →
      (sl.op 10 1 = 1 → (regionHolding s [3, 6] (sl.op 24 8) (4 * count)).isSome = true ∧ s.memUp = true) →
      (sl.op 10 1 = 2 → (boundPort s 3 (sl.op 11 1)).isSome = true) →
      ∃ t, exec (.pmuList id items limits) s = .next t ∧ parkedFor t id .ending = true ∧
        t.pmu = s.pmu ++ [{ slot := id, items := its, limits := ls, results := List.replicate count none }])) ∧
  (∀ (s : State) (lg : Fin 64) (id i : Nat), (s.lg lg).item = none → nextItem s lg = some (id, i) →
    let it := pmuItem s id i
    let ch := itemChan it
    let f : PmuForce := ⟨itemMode it, itemRange it, itemValue it⟩
    let change := rangeChanges (s.chan ch) f
    (heldResult s lg = true → exec (.pmuItemStart lg) s = .next s) ∧
    (heldResult s lg = false → isContained s (domChan ch) = true →
      exec (.pmuItemStart lg) s = .next (setResult s id i (BitVec.ofNat 32 (2 ^ 31)))) ∧
    (heldResult s lg = false → isContained s (domChan ch) = false →
      ((s.chan ch).st = .pmu → ∃ t, exec (.pmuItemStart lg) s = .next t ∧ (t.lg lg).item = some (id, i) ∧ (t.lg lg).phase = 0 ∧
        (t.lg lg).due = itemStart s lg + (if change then 7 else 2) * usTicks ∧
        (t.chan ch).force = some { f with range := forceRange (s.chan ch) f }) ∧
      ((s.chan ch).st ≠ .pmu → exec (.pmuItemStart lg) s = .next (setResult s id i (BitVec.ofNat 32 (2 ^ 30)))))) ∧
  (∀ (s : State) (lg : Fin 64) (id i : Nat), (s.lg lg).item = some (id, i) → (s.lg lg).due ≤ s.now →
    let it := pmuItem s id i
    ((s.lg lg).phase = 0 → ∃ t, exec (.pmuSettleBegin lg) s = .next t ∧
      t.lg lg = { s.lg lg with phase := 1, due := (s.lg lg).due + nsTicks (itemSettle it), uncertain := converting s (lg.val / 16) }) ∧
    ((s.lg lg).phase = 1 → ∃ t, exec (.pmuSamplingBegin lg) s = .next t ∧
      t.lg lg = { s.lg lg with phase := 2, due := (s.lg lg).due + 2 ^ itemK it * 800 }) ∧
    (∀ (sum : Int) (clamped overrange : Bool), (s.lg lg).phase = 2 →
      let limit := if itemLimit it == 0xFFFF then none else (pmuRun s id).bind fun r => r.limits[itemLimit it]?
      let w := pmuWord s it limit sum clamped overrange (s.lg lg).uncertain
      let after := w.2.updRun id fun r => { r with results := setNth r.results i (some w.1) }
      let direct := (nextItem after lg).any fun p => itemChan (pmuItem after p.1 p.2) == itemChan it
      let u := leaveItem w.2 lg direct
      exec (.pmuSamplingEnd lg sum clamped overrange) s = .next (raiseOwed (setResult u id i w.1)) ∧ (u.lg lg).item = none))) ∧
  ((∀ (s : State) (ch : Fin 512) (e : Nat × Nat), (s.chan ch).rangeBusy = some e → e.2 ≤ s.now →
    exec (.pmuRangeChangeDone ch) s = .next (s.updChan ch fun c => { c with rangeBusy := none })) ∧
  (∀ (s : State) (lg : Fin 64) (j : Nat) (sum : Int) (clamped overrange : Bool), (s.lg lg).scanCur = some j → j < 8 →
    (s.lg lg).item = none → nextItem s lg = none → (s.lg lg).due + 2 ^ s.settingN 2 lg 0x102 * 800 ≤ s.now →
    let n := 8 * lg.val + j
    let f := (s.chan n).force.getD (staticForce s n)
    let v := (pmuValue s n f.mode f.range (s.settingN 2 lg 0x102) sum overrange).1
    let clamp := clamped && f.mode != 2
    ∃ t, exec (.pmuScanResult lg sum clamped overrange) s = .next t ∧ (t.lg lg).scan = j ∧ (t.chan n).measPos = s.sweep.pos ∧
      (t.chan n).meas = BitVec.ofNat 32 (fromSigned 24 v + b2n clamp * 2 ^ 24 + b2n overrange * 2 ^ 25) ∧
      (∀ m, m ≠ n → t.chan m = s.chan m) ∧
      (s.setting 2 lg 0x101 = 1 → (t.lg lg).due = s.now ∧
        (t.lg lg).scanCur = ((List.range 8).map fun i => (j + 1 + i) % 8).find? fun i => (s.chan (8 * lg.val + i)).st == .pmu)))

/-! ### Digitizers and trigger units (09) -/

/-- 09 R204, R205 and 14 R334: STREAM_OPEN and STREAM_CLOSE. STREAM_OPEN of a closed flow to DDR5 opens it empty, takes its rate and
completes OK with the rate in thousands of bytes per second; an open flow is CONSISTENCY. STREAM_CLOSE of a flow with no acquisition
under way closes it and completes OK with the samples lost; of a flow that is not open it is CONSISTENCY. 09 R212 to R215: ACQ_ARM,
ACQ_START and ACQ_POST_DONE. ARM with an open flow arms the acquisition and parks; a second ARM is CONSISTENCY. The start makes it
RUNNING from G0. STOP of a running acquisition keeps POST more samples; of an armed one it ends it; it completes OK with 1, or 0
where none was ended. Once the last kept sample has passed by 30 samples the acquisition is IDLE. -/
def Obligations.DigitizersAcquire : Prop :=
  ((∀ (s : State) (id c : Nat) (sl : Slot), s.Serves id c sl → sl.opc = 0x29 → streamOpenOk sl = true → sl.coversBit 2 = true →
    sl.op 10 1 = 0 → (regionHolding s [3] (sl.op 16 8) (sl.op 24 8)).isSome = true →
    let n := sl.op 8 1
    let dec := sl.op 9 1 == 1
    let rate := flowRate s n dec
    ((getFlow (s.dig n) dec).isOpen = true → exec (.streamOpen id) s = .next (done s id Status.consistency 0)) ∧
    ((getFlow (s.dig n) dec).isOpen = false → (s.dig n).acq = .idle → (dec = true → decK s n ≠ 0) → s.memUp = true →
      fitsCapture s rate = true → fitsUp s (n / 4) rate = true →
      ∃ u : State, exec (.streamOpen id) s = .next (done u id Status.ok ((rate + 999) / 1000)) ∧
        (getFlow (u.dig n) dec).isOpen = true ∧ (getFlow (u.dig n) dec).base = sl.op 16 8 ∧
        (getFlow (u.dig n) dec).size = sl.op 24 8 ∧ (getFlow (u.dig n) dec).samples = [] ∧
        (getFlow (u.dig n) dec).rate = rate ∧ u.mem.capture = s.mem.capture + rate)) ∧
  (∀ (s : State) (id c : Nat) (sl : Slot), s.Serves id c sl → sl.opc = 0x2A → sl.op 8 1 = 1 → sl.op 9 1 ≤ 15 →
    sl.op 10 1 ≤ 1 → sl.zero 11 64 = true → sl.coversBit 2 = true →
    let n := sl.op 9 1
    let dec := sl.op 10 1 == 1
    let f := getFlow (s.dig n) dec
    (f.isOpen = false → exec (.streamClose id) s = .next (done s id Status.consistency 0)) ∧
    (f.isOpen = true → (s.dig n).acq = .idle → f.dest = 0 →
      ∃ u : State, exec (.streamClose id) s = .next (done u id Status.ok (satTo 32 f.lostTotal)) ∧
        getFlow (u.dig n) dec = {} ∧ getFlow (u.dig n) (!dec) = getFlow (s.dig n) (!dec) ∧
        u.mem.capture = s.mem.capture - f.rate))) ∧
  ((∀ (s : State) (id c : Nat) (sl : Slot) (mask : List Byte), s.Serves id c sl → sl.opc = 0x28 → acqArmOk sl = true →
    sl.op 10 1 = 0 → sl.op 32 8 = 0 → sl.coversBit 2 = true →
    let n := sl.op 9 1
    ((s.dig n).acq ≠ .idle → exec (.acqArmArm id mask) s = .next (done s id Status.consistency 0)) ∧
    ((s.dig n).acq = .idle → ((s.dig n).raw.isOpen = true ∨ (s.dig n).dec.isOpen = true) → inRecovery s (domDig n) = false →
      throttled s = false → s.memUp = true → ∃ t, exec (.acqArmArm id mask) s = .next t ∧ parkedFor t id .ending = true ∧
        (t.dig n).acq = .armed ∧ (t.dig n).slot = some id ∧ (t.dig n).post = sl.op 12 4 ∧ (t.dig n).len = sl.op 16 8 ∧
        (t.dig n).startG = some (sampleAt (stampNow s)))) ∧
  (∀ (s : State) (n : Fin 16) (g : Nat), (s.dig n).acq = .armed → (s.dig n).startG = some g →
    (s.dig n).recent = [] → ∃ t, exec (.acqStart n) s = .next t ∧ (t.dig n).acq = .running ∧ (t.dig n).g0 = g ∧
      (t.dig n).startG = none ∧
      ((s.dig n).raw.isOpen = true → (s.dig n).raw.gap = none →
        mkRec 3 0 0 0 g 0 0 ∈ (t.dig n).raw.recs)) ∧
  (∀ (s : State) (id c : Nat) (sl : Slot), s.Serves id c sl → sl.opc = 0x28 → sl.op 8 1 = 1 → sl.op 9 1 ≤ 15 →
    sl.zero 10 64 = true → sl.secMask = 0 → sl.coversBit 2 = true →
    let n := sl.op 9 1
    let d := s.dig n
    ((d.acq = .idle ∨ d.acq = .post) → exec (.acqArmStop id) s = .next (done s id Status.ok 0)) ∧
    (d.acq = .running → d.cause = 0 → ∃ u : State, exec (.acqArmStop id) s = .next (done u id Status.ok 1) ∧
      (u.dig n).acq = .post ∧ (u.dig n).cause = 4 ∧ (u.dig n).last = some (d.g - 1 + d.post)) ∧
    (d.acq = .armed → ∃ u : State, exec (.acqArmStop id) s = .next (done u id Status.ok 1) ∧ (u.dig n).acq = .idle)) ∧
  (∀ (s : State) (n : Fin 16) (l : Nat), (s.dig n).acq = .post → (s.dig n).last = some l → l < (s.dig n).g →
    stampDue s (sampleTime (l + 30)) = true → (s.dig n).dec.isOpen = false → ∃ t, exec (.acqPostDone n) s = .next t ∧
      (t.dig n).acq = .idle ∧ (t.dig n).last = none))

/-- 09 R188, R189, R193, R206, R209 and R214, 20 R442: DIG_SAMPLE, DEC_SAMPLE and FLOW_BLOCK_DELIVER. Each raw sample, corrected
by its calibration, takes the next number G and moves the comparator bits; a kept one joins the samples on their way to the RAW
flow, those that every mark has reached enter its block, and the LENGTH-th ends the acquisition. A decimated sample, corrected in
the same way, enters the DEC flow, OVERRANGE or UNCERTAIN where a raw sample of its support was. A full block goes to its place in
DDR5, and the next block of the flow begins empty. -/
def Obligations.SamplesAreKept : Prop :=
  (∀ (s : State) (n : Fin 16) (v : BitVec 16), s.running = true → stampDue s (sampleTime (s.dig n).g) = true →
    isContained s (domDig n) = false →
    let d := s.dig n
    let f := d.raw
    let w := rawSample s n v
    let x := derivedOf w.2.2 n w.1.toInt
    ∃ t, exec (.digSample n v) s = .next t ∧ (t.dig n).g = d.g + 1 ∧ (t.dig n).lo = x.1 ∧ (t.dig n).hi = x.2.1 ∧
      (d.acq = .running → d.last = none → d.g0 ≤ d.g → d.test = none →
        ((d.len = 0 ∨ d.g + 1 ≠ d.g0 + d.len) → (t.dig n).kept = (d.kept + 1) % 2 ^ 48 ∧
          (f.isOpen = true → (t.dig n).line = d.line.filter (fun y => !decide (y.g + 30 ≤ d.g + 1)) ++
            [⟨d.g, w.1, false, w.2.1, posAtStamp s (sampleTime d.g), s.now⟩] ∧
            (∀ y rest, d.line = y :: rest → y.g + 30 ≤ d.g + 1 → (∀ z ∈ rest, d.g + 1 < z.g + 30) → y.lost = false →
              f.dest = 0 → f.gap = none → f.recs = [] → f.samples ≠ [] → f.block.length ≤ 15 →
              f.samples.length < 2016 - 8 * f.block.length → (t.dig n).raw.samples = f.samples ++ [y.v.toNat]))) ∧
        (d.len ≠ 0 → d.g + 1 = d.g0 + d.len → d.cause = 0 → (t.dig n).acq = .post ∧ (t.dig n).cause = 1 ∧
          (t.dig n).last = some d.g))) ∧
  (∀ (s : State) (n : Fin 16) (v : BitVec 24),
    let d := s.dig n
    let k := decK s n
    let f := d.dec
    k ≠ 0 → acqRuns d = true → f.isOpen = true → d.last = none → supportStart k (d.q + 64) ≤ (d.g : Int) →
    isContained s (domDig n) = false → (d.decFrom : Int) ≤ supportStart k d.q → f.dest = 0 → f.gap = none →
    f.recs = [] → f.samples ≠ [] → f.block.length ≤ 15 → f.samples.length < 1008 - 4 * f.block.length →
    let support := d.chunks.filter fun c => d.q ≤ c.q + 32 && c.q < d.q + 32
    ∃ t, exec (.decSample n v) s = .next t ∧ (t.dig n).q = d.q + 1 ∧
      (t.dig n).dec.samples = f.samples ++ [(decValue s n d.q v).1.toNat + b2n (support.any (·.sat)) * 2 ^ 24 + b2n (support.any (·.unc)) * 2 ^ 25]) ∧
  (∀ (s : State) (n : Fin 16) (dec : Bool),
    let f := getFlow (s.dig n) dec
    f.isOpen = true → f.dest = 0 → f.ringMode = false → f.samples ≠ [] → blockRoom s n f = true →
    blockCap dec f.block.length ≤ f.samples.length →
    ∃ t, exec (.flowBlockDeliver n dec) s = .next t ∧ (getFlow (t.dig n) dec).samples = [] ∧
      (getFlow (t.dig n) dec).block = [] ∧
      (getFlow (t.dig n) dec).blockSeq = (f.blockSeq + 1) % 2 ^ 32 ∧ (getFlow (t.dig n) dec).wrOff = f.wrOff + 4096 ∧
      Memory.read t.mem.cells (f.base + f.wrOff + 4) = BitVec.ofNat 8 (n.val + 16 * b2n dec) ∧
      (∀ b, (b < f.base + f.wrOff ∨ f.base + f.wrOff + (flowBlock n dec f false).length ≤ b) →
        Memory.read t.mem.cells b = Memory.read s.mem.cells b))

/-- 09 R194, R196 to R198 and R203: TU_DECISION, TU_TIMEOUT and TU_HOLDOFF_END of a unit with no action. Once every input up to
the earliest sample is in, its completions fire the unit once where the gate holds at their time, count in FIRINGS and start the
hold-off; inside hold-off, or a second time at that sample, they are counted as suppressed. A TIMEOUT slot completes once, at
start + T_MAX where no apply has changed it. Hold-off ends at its time. 09 R192 and R200, 07 R151, 10 R232, 16 R365: TB_LINE_EDGE
and TB_PULSE_END. The line takes its new level, but no release while this device drives it; an assertion starts the windows, the
acquisitions and the triggers of the sources that are armed on the line, at its stamp time less the line delay of a worker; other
lines stay. -/
def Obligations.TriggersFire : Prop :=
  ((∀ (s : State) (u : Fin 16) (h : TuHit), (s.tu u).hits = [h] →
    let x := s.tu u
    let g := sampleAt h.t
    (inputsIn s u g = false → exec (.tuDecision u) s = .next s) ∧
    (inputsIn s u g = true →
    ((x.lastG ≤ g ∧ x.heldTo ≤ h.t ∧ ∀ e, x.holdoff = some e → e ≤ h.t) →
      (gateHolds s u h.t = true → tuSet s u 5 h.t = 0 →
        ∃ t, exec (.tuDecision u) s = .next t ∧ (t.tu u).hits = [] ∧ (t.tu u).firings = (x.firings + 1) % 2 ^ 32 ∧
          (t.tu u).lastG = g + 1 ∧ (t.tu u).suppressed = satTo 32 x.suppressed ∧
          (t.tu u).holdoff = some (sampleTime g + (stampUnits (tuSet s u 4 h.t)).toNat)) ∧
      (gateHolds s u h.t = false → ∃ t, exec (.tuDecision u) s = .next t ∧ (t.tu u).hits = [] ∧
        (t.tu u).firings = x.firings ∧ (t.tu u).suppressed = satTo 32 x.suppressed)) ∧
    ((g < x.lastG ∨ h.t < x.heldTo ∨ ∃ e, x.holdoff = some e ∧ h.t < e) → ∃ t, exec (.tuDecision u) s = .next t ∧
      (t.tu u).hits = [] ∧ (t.tu u).firings = x.firings ∧ (t.tu u).suppressed = satTo 32 (x.suppressed + 1)))) ∧
  (∀ (s : State) (u : Fin 16) (m : Fin 4) (t0 : Nat), (Tab.get {} (s.tu u).slots m).start = some t0 →
    (Tab.get {} (s.tu u).slots m).fired = false →
    let td := timeoutAt s u m t0
    ((s.tu u).past = [] → td = t0 + (stampUnits (s.setting 8 u (0x105 + 16 * m.val))).toNat) ∧
    (slotPar s u m 0 td = 4 → stampDue s td = true → ∃ t, exec (.tuTimeout u m) s = .next t ∧
      (Tab.get {} (t.tu u).slots m).start = none ∧ (Tab.get {} (t.tu u).slots m).fired = true ∧
      (t.tu u).hits = if tuSet s u 1 td = 1 ∧ stillCounts (Tab.get {} (s.tu u).slots m).cut t0 td = true
        then (s.tu u).hits ++ [⟨m, td, false⟩] else (s.tu u).hits)) ∧
  (∀ (s : State) (u : Fin 16) (e : Nat), (s.tu u).holdoff = some e → stampDue s e = true →
    exec (.tuHoldoffEnd u) s = .next (s.updTu u fun x => { x with holdoff := none, heldTo := e }))) ∧
  ((∀ (s : State) (k : Fin 8) (t : Nat), drivesLine s k = true → exec (.tbLineEdge k false t) s = .next s) ∧
  (∀ (s : State) (k : Fin 8) (asserted : Bool) (t' : Nat), (s.line k).asserted ≠ asserted →
    stampDue s t' = true → (asserted = false → drivesLine s k = false) →
    let t := t' - lineDelay s
    ∃ u, exec (.tbLineEdge k asserted t') s = .next u ∧ (u.line k).asserted = asserted ∧
      (∀ m, m ≠ k.val → u.line m = s.line m) ∧
      (asserted = true →
        (∀ (n : Fin 8) (g : Fin 4), (s.wg n g).armed.isSome = true → (s.wg n g).src = 2 → (s.wg n g).sel = k.val →
          (u.wg n g).due = (s.wg n g).due ++ [t]) ∧
        (∀ n : Fin 16, (s.dig n).acq = .armed → (s.dig n).start = 2 → (s.dig n).sel = k.val → (s.dig n).startG = none →
          (u.dig n).startG = some (sampleAt t)) ∧
        (∀ n : Fin 16, s.setting 6 n 12 = 1 → s.setting 6 n 13 = (k.val : Int) → (u.awg n).due = (s.awg n).due ++ [t]))) ∧
  (∀ (s : State) (k : Fin 8) (e : Nat), (s.line k).pulseEnd = some e → e ≤ s.now →
    exec (.tbPulseEnd k) s = .next (s.updLine k fun x => { x with pulseEnd := none })))

/-! ### Waveform sources (10) -/

/-- 10 R224 to R228: AWG_SEQ and AWG_WRITE. AWG_SEQ writes COUNT entries from FIRST, all or none: an active entry is
SEGMENT_ACTIVE with its index in the table. AWG_WRITE RESIDENT, from host memory or DDR5, copies `granules` granules of 64 samples
at a time into the buffer and enters the segment after the last; one whose segment has become active stops SEGMENT_ACTIVE with the
granules written, one that meets an uncorrectable beat stops TESTER_FAULT with those before it written. STREAMED and FREE only set
the directory entry; a write to an active segment is SEGMENT_ACTIVE. -/
def Obligations.WaveformsAreLoaded : Prop :=
  (∀ (s : State) (id c : Nat) (sl : Slot) (data : List Byte), s.Serves id c sl → sl.opc = 0x30 → sl.zero 9 10 = true →
    sl.zero 14 16 = true → sl.zero 24 64 = true → sl.secMask = 0 → sl.op 16 8 % 8 = 0 → sl.coversBit 1 = true →
    let n := sl.op 8 1
    let first := sl.op 10 2
    let count := sl.op 12 2
    let es : List (BitVec 64) := (chunks 8 count (hostBytes data (8 * count))).map fun b => BitVec.ofNat 64 (leNat b)
    n ≤ 15 → first ≤ 4095 → 0 < count → first + count ≤ 4096 → (∀ e ∈ es, entryOk e = true) →
    (∀ i, ((List.range count).find? fun i => entryActive (s.awg n) (first + i)) = some i →
      exec (.awgSeq id data) s = .next (done s id Status.segmentActive (first + i))) ∧
    ((∀ i, i < count → entryActive (s.awg n) (first + i) = false) →
      (∀ e ∈ es, eRepeat e = 0 ∨ ∃ g, awgSegOf (s.awg n) (eSeg e) = some g ∧
        (g.kind = 2 → awgBusy (s.awg n) = false ∨ (s.awg n).streaming = true)) →
      ∃ u : State, exec (.awgSeq id data) s = .next (done u id Status.ok count) ∧
        (∀ k, entryOf (u.awg n) k = if first ≤ k ∧ k < first + count then es.getD (k - first) 0 else entryOf (s.awg n) k) ∧
        (u.awg n).dir = (s.awg n).dir ∧ (u.awg n).st = (s.awg n).st)) ∧
  (∀ (s : State) (id c : Nat) (sl : Slot) (data : List Byte) (granules : Nat), s.Serves id c sl → sl.opc = 0x31 →
    awgWriteOk sl = true → sl.coversBit 1 = true → dmaHeld s id sl = false →
    let n := sl.op 8 1
    let seg := sl.op 10 2
    let len := sl.op 24 8
    let base := sl.op 32 4
    let p := sl.progress
    let m := min (len / 64) (p + granules)
    (p = 0 → sl.op 9 1 = 2 → awgSegActive (s.awg n) seg = false →
      ∃ u : State, exec (.awgWrite id data granules) s = .next (done u id Status.ok 0) ∧ awgSegOf (u.awg n) seg = none ∧
        (∀ h, h ≠ seg → awgSegOf (u.awg n) h = awgSegOf (s.awg n) h)) ∧
    (p = 0 → sl.op 9 1 = 2 → awgSegActive (s.awg n) seg = true →
      exec (.awgWrite id data granules) s = .next (done s id Status.segmentActive 0)) ∧
    (p = 0 → sl.op 9 1 = 1 → 256 ≤ len → len % 64 = 0 → len ≤ 2 ^ 36 →
      (regionHolding s [2] (sl.op 16 8) (2 * len)).isSome = true → awgSegActive (s.awg n) seg = false → s.memUp = true →
      ∃ u : State, exec (.awgWrite id data granules) s = .next (done u id Status.ok (len / 64)) ∧
        awgSegOf (u.awg n) seg = some ⟨2, sl.op 16 8, len⟩ ∧ (u.awg n).buffer = (s.awg n).buffer) ∧
    (0 < p → (sl.op 12 1 = 1 → s.memUp = true) → (awgSegOf (s.awg n) seg).isSome = true → awgSegActive (s.awg n) seg = true →
      exec (.awgWrite id data granules) s = .next (done s id Status.segmentActive p)) ∧
    (sl.op 9 1 = 0 → 256 ≤ len → len ≤ 2 ^ 36 → len % 64 = 0 → base + len / 64 ≤ 8064 → p < len / 64 →
      awgSegActive (s.awg n) seg = false → residentClash (s.awg n) seg base len = false →
      (sl.op 12 1 = 1 → (regionHolding s [2, 6] (sl.op 16 8) (2 * len)).isSome = true ∧ s.memUp = true) →
      let ddr := sl.op 12 1 = 1
      let src := sl.op 16 8 + 128 * p
      let size := 128 * (m - p)
      let bytes := if ddr then ddrRead s src size else ((hostBytes data (2 * len)).drop (128 * p)).take size
      let new (a : Awg) : Prop :=
        (∀ k, k < 64 * (m - p) → Tab.get 0 a.buffer (64 * (base + p) + k) = BitVec.ofNat 16 (field bytes (2 * k) 2)) ∧
        (∀ k, (k < 64 * (base + p) ∨ 64 * (base + m) ≤ k) → Tab.get 0 a.buffer k = Tab.get 0 (s.awg n).buffer k)
      ((ddr → badBeats s src size = []) →
        (m < len / 64 → ∃ t, exec (.awgWrite id data granules) s = .next t ∧ t.slot id = some { sl with progress := m } ∧
          (t.awg n).dir = (s.awg n).dir ∧ new (t.awg n)) ∧
        (m = len / 64 → ∃ u : State, exec (.awgWrite id data granules) s = .next (done u id Status.ok (len / 64)) ∧
          awgSegOf (u.awg n) seg = some ⟨1, base, len⟩ ∧ new (u.awg n))) ∧
      (∀ b bs, ddr → badBeats s src size = b :: bs →
        let g := (4 * b - src) / 128
        let v := s.updAwg n fun a => writeSamples a (64 * (base + p)) (bytes.take (128 * g))
        exec (.awgWrite id data granules) s =
          .next (done (scanRead (correctRead v src (128 * g)) (4 * b / 64 * 64) 64).1 id Status.testerFault (p + g)))))

/-- 10 R230, R232, R234 to R236 and R239: AWG_CTL. START of an idle source that passes its tests arms it, in MODE SEQUENCE with
the look-ahead of its chain, takes the stream rate where STREAMING is 1, enters the scheduler and parks; a busy source is
CONSISTENCY. STOP of a source that runs nothing completes OK with 0, NOW ends the sequence with START OK, and BOUNDARY waits. JUMP
to a playable entry waits as the pending one; to an empty entry it is CONSISTENCY. TRIGGER completes OK with 1 where it releases a
wait, 400 ns on, and otherwise with 0 and counts as ignored. 10 R233: AWG_REFILL_ARRIVAL and AWG_UNDERRUN. The next 64 samples of
the stream reach the window. A streamed sample that is not there at its DAC clock is an underrun: under HOLD the source holds, and
otherwise it is CLEARED at CLEAR_CODE with START UNDERRUN. -/
def Obligations.SourcesAreControlled : Prop :=
  ((∀ (s : State) (id c : Nat) (sl : Slot), s.Serves id c sl → sl.opc = 0x32 →
    awgStartOk sl (decide (s.setting 6 (sl.op 9 1) 1 = 1)) = true →
    sl.coversBit 1 = true → schedFull s = false →
    let n := sl.op 9 1
    let entry := sl.op 10 2
    let stream := sl.op 13 1 = 1
    let p := requestPos s sl 15 16 (if stream then 4000 else 1000)
    (awgBusy (s.awg n) = true → exec (.awgCtlStart id) s = .next (done s id Status.consistency 0)) ∧
    (awgBusy (s.awg n) = false → (s.awg n).st ≠ .isolated → s.flt.awgClr = false →
      (s.setting 6 n 1 ≠ 1 → chainBad (s.awg n) (decide stream) 4097 [] entry = false) → inRecovery s (domAwg n) = false →
      throttled s = false →
      (stream → s.memUp = true ∧ fitsWaveform s 2000000000 = true ∧ fitsDown s (n / 4) 2000000000 = true) →
      (requestLate s sl 15 16 (if stream then 4000 else 1000) = true → sl.runLate = true) →
      ∃ t, exec (.awgCtlStart id) s = .next t ∧ parkedFor t id .ending = true ∧
        (t.awg n).st = .armed ∧ (t.awg n).slot = some id ∧ (t.awg n).streaming = decide stream ∧
        (t.awg n).look = (if s.setting 6 n 1 = 1 then [] else lookFrom (s.awg n) 3 entry) ∧
        t.mem.waveform = s.mem.waveform + (if stream then 2000000000 else 0) ∧
        (t.awg n).total = 0 ∧ t.stg.sched.length = s.stg.sched.length + 1 ∧
        ∃ a ∈ t.stg.sched, a.kind = .awg n ∧ a.slot = some id ∧ a.pos = p)) ∧
  (∀ (s : State) (id c : Nat) (sl : Slot), s.Serves id c sl → sl.opc = 0x32 → sl.op 8 1 = 1 → sl.op 9 1 ≤ 15 →
    sl.zero 10 12 = true → sl.op 12 1 ≤ 1 → sl.zero 13 64 = true → sl.secMask = 0 → sl.coversBit 1 = true →
    let n := sl.op 9 1
    (awgBusy (s.awg n) = false → exec (.awgCtlStop id) s = .next (done s id Status.ok 0)) ∧
    (awgBusy (s.awg n) = true → (sl.op 12 1 = 1 ∨ (s.awg n).st = .armed) → ∃ u : State,
      exec (.awgCtlStop id) s = .next (done u id Status.ok 1) ∧
      (u.awg n).st = .idle ∧ (u.awg n).slot = none ∧ (s.setting 6 n 7 = 0 → (u.awg n).last = clearCode s n)) ∧
    (awgBusy (s.awg n) = true → (s.awg n).st ≠ .armed → sl.op 12 1 = 0 → (s.awg n).jump = none →
      ∃ t, exec (.awgCtlStop id) s = .next t ∧ parkedFor t id .ending = true ∧ (t.awg n).st = (s.awg n).st ∧
        ∃ j, (t.awg n).jump = some j ∧ j.target = none ∧ j.slot = id ∧ j.clk = dacNow s ∧
          j.waiting = ((s.awg n).st == .waiting))) ∧
  (∀ (s : State) (id c : Nat) (sl : Slot), s.Serves id c sl → sl.opc = 0x32 → sl.op 8 1 = 2 → sl.op 9 1 ≤ 15 →
    sl.op 10 2 ≤ 4095 → sl.zero 12 64 = true → sl.secMask = 0 → sl.coversBit 1 = true →
    let n := sl.op 9 1
    let e := entryOf (s.awg n) (sl.op 10 2)
    (entryEmpty (s.awg n) e = true → exec (.awgCtlJump id) s = .next (done s id Status.consistency 0)) ∧
    (entryEmpty (s.awg n) e = false → awgBusy (s.awg n) = true → s.setting 6 n 1 = 0 →
      (((awgSegOf (s.awg n) (eSeg e)).any fun g => g.kind == 2) = true → (s.awg n).streaming = true) → (s.awg n).jump = none →
      ∃ t j, exec (.awgCtlJump id) s = .next t ∧ parkedFor t id .ending = true ∧ (t.awg n).jump = some j ∧
        j.target = some (sl.op 10 2) ∧ j.slot = id ∧ j.clk = dacNow s ∧ j.waiting = ((s.awg n).st == .waiting))) ∧
  (∀ (s : State) (id c : Nat) (sl : Slot), s.Serves id c sl → sl.opc = 0x32 → sl.op 8 1 = 3 → sl.op 9 1 ≤ 15 →
    sl.zero 10 64 = true → sl.secMask = 0 → sl.coversBit 1 = true →
    let n := sl.op 9 1
    let a := s.awg n
    let t0 := stampNow s
    (∀ x ∈ a.due, t0 < x) →
    (a.st = .waiting → a.release = none → a.waitFrom ≤ t0 → exec (.awgCtlTrigger id) s =
      .next (done (s.updAwg n fun a => { a with release := some (dacAt (t0 + 640 * 65536)), relAt := t0 }) id Status.ok 1)) ∧
    ((a.st ≠ .waiting ∨ (a.release.isSome = true ∧ a.relAt ≤ t0)) →
      exec (.awgCtlTrigger id) s = .next (done (s.updAwg n fun a => { a with ignored := incSat 32 a.ignored }) id Status.ok 0)))) ∧
  ((∀ (s : State) (n : Fin 16) (g : AwgSeg) (o : Nat),
    let held := heldRepeats s (s.awg n)
    let a := syncJump held (awgOutput s n)
    awgBusy a = true → a.st ≠ .holding → a.streaming = true → s.memUp = true → a.window.length + 64 ≤ 8192 →
    streamPlace a.fetch (playOrder held a) = some (g, o) → badBeats s (g.base + 2 * o) 128 = [] →
    ∃ t, exec (.awgRefillArrival n []) s = .next t ∧ (t.awg n).fetch = a.fetch + 64 ∧
      (t.awg n).window = a.window ++
        (chunks 2 64 (ddrRead s (g.base + 2 * o) 128)).map (fun b => BitVec.ofNat 16 (leNat b))) ∧
  (∀ (s : State) (n : Fin 16) (g : AwgSeg), (s.awg n).st = .running → (s.awg n).dds = false → currentSeg (s.awg n) = some g →
    g.kind = 2 → (s.awg n).fetch < g.len →
    let a := s.awg n
    let at' := a.clk + a.heldFor + a.fetch
    stampDue s (dacTime at') = true →
    (a.holdOn = true → ∃ t, exec (.awgUnderrun n) s = .next t ∧ (t.awg n).st = .holding ∧ (t.awg n).heldAt = some at' ∧
      (t.awg n).underruns = incSat 16 a.underruns) ∧
    (a.holdOn = false → ∃ t, exec (.awgUnderrun n) s = .next t ∧ (t.awg n).st = .cleared ∧ (t.awg n).slot = none ∧
      (t.awg n).last = clearCode s n ∧ (t.awg n).underruns = incSat 16 a.underruns)))

/-- 10 R230 to R232, R234 and R236 to R238: AWG_SEQUENCE_START, AWG_SEGMENT_BOUNDARY, AWG_TRIGGER, AWG_WAIT_RELEASE,
AWG_WAITING_JUMP, AWG_MARK_END and DDS_PHASE_RESET. A started source plays its start entry, or waits where the entry says WAIT. At
the end of a repetition with more to play the segment plays again at once; after END the source is IDLE. The trigger of the first
event time releases a wait 400 ns on, and then the entry plays; any other is ignored. A jump that reached a waiting source begins
its target. A mark pulse ends; a DDS source takes its next tuning word and phase. -/
def Obligations.SourcesPlay : Prop :=
  (∀ (s : State) (n : Fin 16) (a : Action) (k : Nat) (e : BitVec 64) (rest : List (Nat × BitVec 64)), (s.awg n).st = .armed →
    findAct s (.awg n) = some a → mayAct s a = true → s.setting 6 n 1 = 0 → (s.awg n).look = (k, e) :: rest →
    ∃ t, exec (.awgSequenceStart n) s = .next t ∧ findAct t (.awg n) = none ∧ (t.awg n).entry = k ∧
      (t.awg n).st = if eWait e then .waiting else .running) ∧
  (∀ (s : State) (n : Fin 16) (k : Nat) (e : BitVec 64) (rest : List (Nat × BitVec 64)) (g : AwgSeg), (s.awg n).st = .running →
    (s.awg n).dds = false → (s.awg n).look = (k, e) :: rest → awgSegOf (s.awg n) (eSeg e) = some g → g.kind = 1 →
    stampDue s (dacTime ((s.awg n).clk + (s.awg n).heldFor + g.len)) = true → (s.awg n).jump = none →
    let a := s.awg n
    (a.reps + 1 < eRepeat e → ∃ t, exec (.awgSegmentBoundary n) s = .next t ∧ (t.awg n).st = .running ∧
      (t.awg n).clk = a.clk + a.heldFor + g.len ∧ (t.awg n).reps = a.reps + 1 ∧ (t.awg n).total = a.total + 1 ∧
      (t.awg n).repetitions = (a.repetitions + 1) % 2 ^ 48) ∧
    (eRepeat e ≤ a.reps + 1 → eEnd e = true → ∃ t, exec (.awgSegmentBoundary n) s = .next t ∧ (t.awg n).st = .idle ∧
      (t.awg n).slot = none ∧ (t.awg n).repetitions = (a.repetitions + 1) % 2 ^ 48 ∧
      (s.setting 6 n 7 = 0 → (t.awg n).last = clearCode s n))) ∧
  (∀ (s : State) (n : Fin 16) (t : Nat), ((s.awg n).due.filter fun x => x ≤ t) = [t] →
    let a := s.awg n
    let hit := a.st = .waiting ∧ a.waitFrom ≤ t ∧ (a.release = none ∨ t < a.relAt)
    ∃ u, exec (.awgTrigger n t) s = .next u ∧ (u.awg n).due = a.due.erase t ∧
      (hit → (u.awg n).release = some (dacAt (t + 640 * 65536)) ∧ (u.awg n).relAt = t ∧
        (u.awg n).ignored = if a.release.isSome then incSat 32 a.ignored else a.ignored) ∧
      (¬ hit → (u.awg n).release = a.release ∧ (u.awg n).ignored = incSat 32 a.ignored)) ∧
  (∀ (s : State) (n : Fin 16) (clk : Nat), (s.awg n).st = .waiting → (s.awg n).release = some clk → stampDue s (dacTime clk) = true →
    ∃ t, exec (.awgWaitRelease n) s = .next t ∧ (t.awg n).st = .running ∧ (t.awg n).clk = clk ∧ (t.awg n).release = none) ∧
  (∀ (s : State) (n : Fin 16) (j : AwgJump) (k : Nat) (e : BitVec 64), (s.awg n).st = .waiting → (s.awg n).jump = some j →
    j.waiting = true → (s.awg n).release = none → stampDue s (dacTime (max (j.clk + 128) (dacAt (s.awg n).waitFrom))) = true →
    j.target = some k → entryOf (s.awg n) k = e →
    ∃ t, exec (.awgWaitingJump n) s = .next t ∧ (t.awg n).jump = none ∧ (t.awg n).entry = k ∧
      (t.awg n).st = if eWait e then .waiting else .running) ∧
  (∀ (s : State) (n : Fin 16) (e : Nat), (s.awg n).mkEnd = some e → e ≤ s.now →
    ∃ t, exec (.awgMarkEnd n) s = .next t ∧ (t.awg n).mkEnd = none) ∧
  (∀ (s : State) (n : Fin 16) (clk ftw phase : Nat) (rest : List (Nat × Nat × Nat)), (s.awg n).ddsDue = (clk, ftw, phase) :: rest →
    stampDue s (dacTime clk) = true → ∃ t, exec (.ddsPhaseReset n) s = .next t ∧ (t.awg n).ddsClk = clk ∧
      (t.awg n).ftw = ftw ∧ (t.awg n).ddsPhase = phase ∧ (t.awg n).ddsDue = rest ∧ (t.awg n).st = (s.awg n).st)

/-! ### Synthesizers (11) -/

/-- 11 R246 to R249, R251 to R254: DCS_PROFILE, DCS_CTL and the ramp. A profile replaces the old one unless a ramp is armed or
running. START of a locked synthesizer with a profile in range arms a ramp and parks; STOP waits for the next PFD cycle, whose
tick ends the ramp, and where there is no ramp to end completes OK with 0. The first step falls on the first PFD cycle at or after
the start; each step moves N by one towards the target; the dwell then runs on the sweep, and after the last one the ramp ends
with START OK and N as it is; a retune that waited for it begins on the next PFD cycle. 11 R246 to R248: DCS_LOCK_DECLARED,
DCS_RETUNE_TIMEOUT and DCS_REF_GOOD. Lock after a retune ends it and the gate follows OUT_EN; a retune without lock by its 2 ms is
counted and raises the unlock fault; a good reference is noted. -/
def Obligations.SynthesizersRun : Prop :=
  ((∀ (s : State) (id c : Nat) (sl : Slot) (data : List Byte), s.Serves id c sl → sl.opc = 0x38 → sl.zero 10 16 = true →
    sl.op 16 8 % 8 = 0 → sl.zero 24 64 = true → sl.secMask = 0 → sl.coversBit 3 = true →
    let n := sl.op 8 1
    let count := sl.op 9 1
    let pts := chunks 8 count (hostBytes data (8 * count))
    n ≤ 7 → 0 < count → count ≤ 64 → (∀ b ∈ pts, 80 ≤ field b 0 2 ∧ field b 0 2 ≤ 10240 ∧ field b 2 2 = 0) →
    ((s.dcs n).ramp.isSome = true → exec (.dcsProfile id data) s = .next (done s id Status.consistency 0)) ∧
    ((s.dcs n).ramp = none → exec (.dcsProfile id data) s =
      .next (done (s.updDcs n fun d => { d with profile := pts.map fun b => (field b 0 2, field b 4 4) }) id Status.ok count))) ∧
  (∀ (s : State) (id c : Nat) (sl : Slot), s.Serves id c sl → sl.opc = 0x39 → sl.op 8 1 = 0 → sl.op 9 1 ≤ 7 → sl.op 10 1 ≤ 1 →
    sl.secMask = 0 → sl.coversBit 3 = true →
    let n := sl.op 9 1
    let d := s.dcs n
    sl.zero 11 16 = true → (sl.op 10 1 = 0 → sl.zero 16 24 = true) → sl.zero 24 64 = true →
    requestLate s sl 10 16 2000 = false → d.ramp = none → d.profile ≠ [] → d.locked = true →
    d.retune = none → d.retuneAt = none → (∀ q ∈ d.profile, targetBad (s.settingN 9 n 1) (s.settingN 9 n 3) q.1 = false) →
    inRecovery s (domDcs n) = false → schedFull s = false →
    ∃ t r, exec (.dcsCtlStart id) s = .next t ∧ parkedFor t id .ending = true ∧ (t.dcs n).ramp = some r ∧ r.slot = id ∧
      r.running = false ∧ r.done = 0 ∧ t.stg.sched.length = s.stg.sched.length + 1) ∧
  (∀ (s : State) (id c : Nat) (sl : Slot), s.Serves id c sl → sl.opc = 0x39 → sl.op 8 1 = 1 → sl.op 9 1 ≤ 7 →
    sl.zero 10 64 = true → sl.secMask = 0 → sl.coversBit 3 = true →
    let n := sl.op 9 1
    (∀ r, (s.dcs n).ramp = some r → r.stopAt = none → ∃ t, exec (.dcsCtlStop id) s = .next t ∧ parkedFor t id .ending = true ∧
      (t.dcs n).ramp = some { r with stopAt := some (pfdCeil (s.dcs n).m (s.now + 1), id) }) ∧
    ((∀ r, (s.dcs n).ramp = some r → r.stopAt.isSome = true) → exec (.dcsCtlStop id) s = .next (done s id Status.ok 0))) ∧
  (∀ (s : State) (n : Fin 8) (r : Ramp) (t id : Nat), (s.dcs n).ramp = some r → r.stopAt = some (t, id) → t ≤ s.now →
    (∀ k x, s.slot k = some x → waitsCtx s x = false) →
    ((dcsTick s).dcs n).ramp = none ∧ (dcsTick s).slot r.slot = none ∧ (dcsTick s).slot id = none) ∧
  (∀ (s : State) (n : Fin 8) (a : Action) (r : Ramp), (s.dcs n).ramp = some r → r.running = false →
    findAct s (.dcs n) = some a → mayAct s a = true → (s.dcs n).locked = true → (s.dcs n).retune = none →
    (s.dcs n).st ≠ .contained →
    pfdCeil (s.dcs n).m (((passTime s a.pos).toNat + 65535) / 65536) ≤ s.now →
    (s.dcs n).nNow < (pointOf (s.dcs n) 0).1 → ∃ t q, exec (.dcsRampStart n) s = .next t ∧ (t.dcs n).ramp = some q ∧
      q.running = true ∧ q.firstPos = some s.sweep.pos ∧ (t.dcs n).nNow = (s.dcs n).nNow + 1 ∧ (t.dcs n).st = .ramping) ∧
  (∀ (s : State) (n : Fin 8) (r : Ramp), (s.dcs n).ramp = some r → r.running = true → r.dwell = none → r.stepAt ≤ s.now →
    let d := s.dcs n
    let p := pointOf d r.point
    let next := if d.nNow < p.1 then d.nNow + 1 else if p.1 < d.nNow then d.nNow - 1 else d.nNow
    ∃ t q, exec (.dcsRampStep n) s = .next t ∧ (t.dcs n).nNow = next ∧ (t.dcs n).ramp = some q ∧
      q.stepAt = r.stepAt + s.settingN 9 n 7 * pfdTicks d.m ∧
      q.dwell = (if next = p.1 then some (s.sweep.pos + BitVec.ofNat 64 (p.2 * 65536)) else none)) ∧
  (∀ (s : State) (n : Fin 8) (r : Ramp) (p : Pos), (s.dcs n).ramp = some r → r.dwell = some p → isFuture s.sweep.pos p = false →
    (r.point + 1 < (s.dcs n).profile.length → ∃ t q, exec (.dcsDwellEnd n) s = .next t ∧ (t.dcs n).ramp = some q ∧
      q.point = r.point + 1 ∧ q.done = r.done + 1 ∧ (t.dcs n).nNow = (s.dcs n).nNow) ∧
    ((s.dcs n).profile.length ≤ r.point + 1 → ∃ t, exec (.dcsDwellEnd n) s = .next t ∧
      (t.dcs n).ramp = none ∧ (t.dcs n).nNow = (s.dcs n).nNow ∧
      ((s.dcs n).retunePending = true → (s.dcs n).st ≠ .contained →
        (t.dcs n).retuneAt = some (pfdCeil (s.dcs n).m (s.now + 1)))))) ∧
  ((∀ (s : State) (n : Fin 8), (s.dcs n).locked = false → (s.dcs n).refOk = true → (s.dcs n).st ≠ .contained →
    (s.dcs n).ramp = none → (s.dcs n).retunePending = false →
    (∀ t, (s.dcs n).retune = some t → t + 256 * pfdTicks (s.dcs n).m ≤ s.now + 2000 * usTicks) →
    ∃ t, exec (.dcsLockDeclared n) s = .next t ∧ (t.dcs n).locked = true ∧ (t.dcs n).retune = none ∧
      (t.dcs n).st = if s.setting 9 n 5 = 1 then .running else .gated) ∧
  (∀ (s : State) (n : Fin 8) (e : Nat), (s.dcs n).retune = some e → e ≤ s.now →
    exec (.dcsRetuneTimeout n) s =
      .next (raiseFault (s.updDcs n fun d => { d with unlocks := incSat 16 d.unlocks }) (domDcs n) 24)) ∧
  (∀ (s : State) (n : Fin 8), (s.dcs n).refOk = false →
    exec (.dcsRefGood n) s = .next (s.updDcs n fun d => { d with refOk := true })))

/-! ### Measurement engines (12) -/

/-- 12 R257, R258 and R262: NOP, MOV, MOVI and the ALU of a running engine. Each writes DST alone, ALU operations set Z, N and V
(signed overflow) from the result, CMP and CMPI set the flags alone; memories, accumulators, ports and every other engine stay. A
shift by more than 31, for which the manual gives no result, leaves a free value in DST with the flags of it (log entry 3). A
shift left overflows where the exact value does not fit (log entry 19). -/
def Obligations.EngineAluRuns : Prop :=
  ∀ (s : State) (e : Fin 16) (w : Nat),
    let x := s.eng e
    (s.AtWord e 0x00 w → x.Shaped → ∃ y, exec (.engNop e) s = .next (s.updEng e fun _ => y) ∧ x.KeepsRest y ∧ x.InOrder y ∧
      x.SameRegs y ∧ y.stReg = x.stReg ∧ y.cycles = x.cycles + 1 ∧ y.stalls = x.stalls) ∧
    (s.AtWord e 0x01 w → x.Shaped → ∃ y, exec (.mov e) s = .next (s.updEng e fun _ => y) ∧ x.KeepsRest y ∧ x.InOrder y ∧
      x.Wrote y (bits w 41 36) (regGet x (bits w 35 30)) ∧
      y.stReg = if bits w 41 36 = 0x20 then regGet x (bits w 35 30) &&& 0x73FF else x.stReg) ∧
    (s.AtWord e 0x02 w → x.Shaped → ∃ y, exec (.movi e) s = .next (s.updEng e fun _ => y) ∧ x.KeepsRest y ∧ x.InOrder y ∧
      x.Wrote y (bits w 41 36) (BitVec.ofNat 32 (bits w 31 0)) ∧
      y.stReg = if bits w 41 36 = 0x20 then BitVec.ofNat 32 (bits w 31 0) &&& 0x73FF else x.stReg) ∧
    AluRuns s e (.add e) w 0x05 false true (fun a b => (a + b, (a + b).toInt != a.toInt + b.toInt)) ∧
    AluRuns s e (.sub e) w 0x06 false true (fun a b => (a - b, (a - b).toInt != a.toInt - b.toInt)) ∧
    AluRuns s e (.addi e) w 0x07 true true (fun a b => (a + b, (a + b).toInt != a.toInt + b.toInt)) ∧
    AluRuns s e (.and e) w 0x08 false true (fun a b => (a &&& b, false)) ∧
    AluRuns s e (.or e) w 0x09 false true (fun a b => (a ||| b, false)) ∧
    AluRuns s e (.xor e) w 0x0A false true (fun a b => (a ^^^ b, false)) ∧
    AluRuns s e (.cmp e) w 0x0E false false (fun a b => (a - b, (a - b).toInt != a.toInt - b.toInt)) ∧
    AluRuns s e (.cmpi e) w 0x0F true false (fun a b => (a - b, (a - b).toInt != a.toInt - b.toInt)) ∧
    (bits w 31 0 ≤ 31 →
      AluRuns s e (.shl e) w 0x0B true true
        (fun a b => (a <<< b.toNat, (a <<< b.toNat).toInt != a.toInt * 2 ^ b.toNat)) ∧
      AluRuns s e (.asr e) w 0x0C true true (fun a b => (a.sshiftRight b.toNat, false)) ∧
      AluRuns s e (.lsr e) w 0x0D true true (fun a b => (a >>> b.toNat, false))) ∧
    (bits w 31 0 > 31 → x.Shaped → ∀ c ∈ [(Instr.shl e, 0x0B), (Instr.asr e, 0x0C), (Instr.lsr e, 0x0D)], s.AtWord e c.2 w →
      ∃ y r v, exec c.1 s = .next ({ s with free := s.free + 1 }.updEng e fun _ => y) ∧ x.KeepsRest y ∧ x.InOrder y ∧
        x.Wrote y (bits w 41 36) r ∧
        StBits (if bits w 41 36 = 0x20 then r &&& 0x73FF else x.stReg) y.stReg [(0, r == 0), (1, r.msb), (2, v)])

/-- 12 R259, R260, R264 to R268 and R282: LD, ST, MACP, MACS, CLRP, CLRS, STPA, STSA and SQRT. Bank accesses go through the
pointer or the absolute address and step the pointer by its mode; a load of the very pointer that its mode steps leaves that
pointer open (a free value, log entry 3). A MAC multiplies the operands as they stood, accumulates with wrap, sets V and AV, and
does its moves. A store shifts, rounds and saturates under ST. SQRT gives floor(√x × 256). A word that holds an uncorrectable
error is a fault of the engine instead. -/
def Obligations.EngineMovesAndMacs : Prop :=
  ∀ (s : State) (e : Fin 16) (w : Nat), (s.eng e).Shaped →
    let x := s.eng e
    let r := bits w 41 36
    let v := bitOf w 35
    let ps := bits w 34 32
    let mode := bits w 28 27
    let a := if mode = 3 then bits w 14 0 else ptrAddr x ps
    let stepped := mode = 1 ∨ mode = 2
    let px : Engine := if stepped then { x with p := setNth x.p ps (modePtr x ps (bits w 31 29) mode) } else x
    (s.AtWord e 0x03 w → bankBad x v a = true → exec (.ld e) s = .next (engRaise s e 34)) ∧
    (s.AtWord e 0x03 w → bankBad x v a = false → ¬ (stepped ∧ r = 8 + ps) →
      ∃ y, exec (.ld e) s = .next (s.updEng e fun _ => y) ∧ x.KeepsRest y ∧ x.InOrder y ∧ px.Wrote y r (bankGet x v a) ∧
        y.stReg = x.stReg) ∧
    (s.AtWord e 0x03 w → bankBad x v a = false → stepped → r = 8 + ps →
      ∃ y, exec (.ld e) s = .next ({ s with free := s.free + 1 }.updEng e fun _ => y) ∧ x.KeepsRest y ∧ x.InOrder y ∧
        y.stReg = x.stReg ∧ regGet y (0x23 + ps) = readBack r (bankGet x v a) ∧
        ∀ k, k ≤ 0x2A → k ≠ r → k ≠ 0x21 → k ≠ 0x22 → k ≠ 0x23 + ps → regGet y k = regGet x k) ∧
    (s.AtWord e 0x04 w → ∃ y, exec (.st e) s = .next (s.updEng e fun _ => y) ∧ x.InOrder y ∧ px.SameRegs y ∧ y.stReg = x.stReg ∧
      (∀ b, bankGet y v b = if b = a then regGet x r else bankGet x v b) ∧ (∀ b, bankGet y (!v) b = bankGet x (!v) b) ∧
      bankBad y v a = false ∧ y.pa = x.pa ∧ y.sa = x.sa ∧ y.code = x.code ∧ y.limits = x.limits ∧ y.calls = x.calls) ∧
    (s.AtWord e 0x10 w → macClean x w →
      let i := bits w 39 38
      let p := productOf 24 (x.stReg.getLsbD 12) (toSigned 24 ((x.w[bits w 37 35]?).getD 0).toNat) (toSigned 24 (secondOf x w))
      let old := ((x.pa[i]?).getD 0).toInt
      let sum := if bits w 41 40 = 0 then p.1 else if bits w 41 40 = 1 then old + p.1 else old - p.1
      let wrap := (BitVec.ofInt 56 sum).toInt != sum
      ∃ y, exec (.macp e) s = .next (s.updEng e fun _ => y) ∧ x.InOrder y ∧ x.Moved y w ∧ y.sa = x.sa ∧
        y.pa[i]? = some (BitVec.ofInt 56 sum) ∧ (∀ j, j ≠ i → y.pa[j]? = x.pa[j]?) ∧
        StBits x.stReg y.stReg [(2, p.2 || wrap), (3, x.stReg.getLsbD 3 || wrap)]) ∧
    (s.AtWord e 0x11 w → macClean x w →
      let i := 2 * bits w 39 38
      let a1 := ((x.w[bits w 37 35]?).getD 0).toNat
      let lo := productOf 16 (x.stReg.getLsbD 12) (toSigned 16 a1) (toSigned 16 (secondOf x w))
      let hi := productOf 16 (x.stReg.getLsbD 12) (toSigned 16 (a1 / 65536)) (toSigned 16 (secondOf x w / 65536))
      let old := fun k => ((x.sa[k]?).getD 0).toInt
      let sums := if bits w 41 40 = 0 then (lo.1, hi.1) else if bits w 41 40 = 1 then (old i + lo.1, old (i + 1) + hi.1)
        else if bits w 41 40 = 2 then (old i - lo.1, old (i + 1) - hi.1) else (old i + lo.1 + hi.1, old (i + 1))
      let wrap := (BitVec.ofInt 40 sums.1).toInt != sums.1 || (BitVec.ofInt 40 sums.2).toInt != sums.2
      ∃ y, exec (.macs e) s = .next (s.updEng e fun _ => y) ∧ x.InOrder y ∧ x.Moved y w ∧ y.pa = x.pa ∧
        y.sa[i]? = some (BitVec.ofInt 40 sums.1) ∧ y.sa[i + 1]? = some (BitVec.ofInt 40 sums.2) ∧
        (∀ j, j ≠ i → j ≠ i + 1 → y.sa[j]? = x.sa[j]?) ∧
        StBits x.stReg y.stReg [(2, lo.2 || hi.2 || wrap), (3, x.stReg.getLsbD 3 || wrap)]) ∧
    (∀ c ∈ [(Instr.macp e, 0x10), (Instr.macs e, 0x11)], s.AtWord e c.2 w → ¬ macClean x w → exec c.1 s = .next (engRaise s e 34)) ∧
    (s.AtWord e 0x12 w → ∃ y, exec (.clrp e) s = .next (s.updEng e fun _ => y) ∧ x.InOrder y ∧ x.SameRegs y ∧ y.stReg = x.stReg ∧
      y.sa = x.sa ∧ (∀ k, k < 4 → y.pa[k]? = if bitOf w (38 + k) then some 0 else x.pa[k]?)) ∧
    (s.AtWord e 0x13 w → ∃ y, exec (.clrs e) s = .next (s.updEng e fun _ => y) ∧ x.InOrder y ∧ x.SameRegs y ∧ y.stReg = x.stReg ∧
      y.pa = x.pa ∧ (∀ k, k < 8 → y.sa[k]? = if bitOf w (34 + k) then some 0 else x.sa[k]?)) ∧
    (∀ c ∈ [(Instr.stpa e, 0x14, ((x.pa[bits w 38 36]?).getD 0).toInt), (Instr.stsa e, 0x15, ((x.sa[bits w 38 36]?).getD 0).toInt)],
      s.AtWord e c.2.1 w →
      ∃ y d sat, exec c.1 s = .next (s.updEng e fun _ => y) ∧ x.KeepsRest y ∧ x.InOrder y ∧ x.Wrote y (bits w 41 39) d ∧
        StoredAs x.stReg c.2.2 (bits w 35 30) (if bitOf w 29 then 24 else 32) d sat ∧
        StBits x.stReg y.stReg [(4, x.stReg.getLsbD 4 || sat), (2, x.stReg.getLsbD 2 || sat)]) ∧
    (s.AtWord e 0x16 w →
      let n := ((x.w[bits w 38 36]?).getD 0).toNat
      ∃ y q, exec (.sqrt e) s = .next (s.updEng e fun _ => y) ∧ x.KeepsRest y ∧ x.InOrder y ∧
        x.Wrote y (bits w 41 39) (BitVec.ofNat 32 q) ∧ q * q ≤ n * 65536 ∧ n * 65536 < (q + 1) * (q + 1) ∧
        StBits x.stReg y.stReg [(0, q == 0)])

/-- 12 R263, R269, R271 to R274, R276 and R282: IN, OUT, JMP, CALL, RET, DUP, LOOP and LIM. IN takes the oldest word, ends on a
closed or unbound empty port and stalls on another; OUT appends, discards behind a closed gate and stalls on a full port. A taken
branch costs two more cycles; a call on a full stack and a return on an empty one are faults. DUP and LOOP repeat by their count,
and 0 skips. LIM sets LF and GF, never both. -/
def Obligations.EnginePortsAndBranches : Prop :=
  ∀ (s : State) (e : Fin 16) (w : Nat), (s.eng e).Shaped →
    let x := s.eng e
    (s.AtWord e 0x18 w →
      let p := bits w 38 36
      let k := s.inPort e p
      (∀ v rec' rest, k.words = (v, rec') :: rest → ∃ u : State, exec (.engIn e) s = .next (refillPort u k) ∧
        u = { s with engs := u.engs } ∧ u.inPort e p = { k with words := rest } ∧ { x with ins := (u.eng e).ins }.KeepsRest (u.eng e) ∧
        x.InOrder (u.eng e) ∧ x.Wrote (u.eng e) (bits w 41 39) v ∧ StBits x.stReg (u.eng e).stReg [(7, rec'), (8, false)] ∧
        (∀ q, q ≠ p → u.inPort e q = s.inPort e q) ∧ ∀ j, j ≠ e.val → u.eng j = s.eng j) ∧
      (k.words = [] → (k.kind = 0 ∨ k.closed = true) → ∃ y, exec (.engIn e) s = .next (s.updEng e fun _ => y) ∧ x.KeepsRest y ∧
        x.InOrder y ∧ x.Wrote y (bits w 41 39) 0 ∧ StBits x.stReg y.stReg [(7, false), (8, true)]) ∧
      (k.words = [] → k.kind ≠ 0 → k.closed = false → exec (.engIn e) s =
        .next (s.updEng e fun x => { x with stalls := x.stalls + 1, cycles := x.cycles + 1 }))) ∧
    (s.AtWord e 0x19 w →
      let t := drainOuts s e
      let p := bits w 38 37
      let o := t.outPort e p
      let closed := t.setting 12 (16 * e.val + 8 + p) 1 = 0
      (closed → ∃ u : State, exec (.engOut e) s = .next u ∧ u = { t with engs := u.engs } ∧
        (u.eng e).discarded = incSat 32 (t.eng e).discarded ∧ (t.eng e).KeepsRest (u.eng e) ∧ (t.eng e).SameRegs (u.eng e) ∧
        (u.eng e).stReg = (t.eng e).stReg ∧ (t.eng e).InOrder (u.eng e) ∧ ∀ j, j ≠ e.val → u.eng j = t.eng j) ∧
      (¬ closed → o.words.length < 1024 → ∃ u : State,
        exec (.engOut e) s = .next (raiseOwed (reportOutBad (drainOuts u e) e)) ∧ u = { t with engs := u.engs } ∧
        u.outPort e p = { o with words := o.words ++ [((t.eng e).w[bits w 41 39]?).getD 0] } ∧
        { t.eng e with outs := (u.eng e).outs }.KeepsRest (u.eng e) ∧ (t.eng e).SameRegs (u.eng e) ∧
        (u.eng e).stReg = (t.eng e).stReg ∧ (t.eng e).InOrder (u.eng e) ∧
        (∀ q, q ≠ p → u.outPort e q = t.outPort e q) ∧ ∀ j, j ≠ e.val → u.eng j = t.eng j) ∧
      (¬ closed → 1024 ≤ o.words.length → exec (.engOut e) s =
        .next (t.updEng e fun x => { x with stalls := x.stalls + 1, cycles := x.cycles + 1 }))) ∧
    (s.AtWord e 0x20 w →
      let go := engCond x.stReg (bits w 41 38)
      let at' := if 10 ≤ bits w 41 38 ∧ bits w 41 38 ≤ 12 then max x.cycles x.limAt else x.cycles
      ∃ y, exec (.engJmp e) s = .next (s.updEng e fun _ => y) ∧ x.KeepsRest y ∧ x.SameRegs y ∧ y.stReg = x.stReg ∧
        (go = true → y.pc = bits w 13 0 ∧ y.cycles = at' + 3) ∧ (go = false → x.InOrder y ∧ y.cycles = at' + 1)) ∧
    (s.AtWord e 0x21 w →
      (x.calls.length < 8 → ∃ y, exec (.engCall e) s = .next (s.updEng e fun _ => y) ∧ x.SameRegs y ∧ y.pc = bits w 13 0 ∧
        y.calls = x.calls ++ [(x.pc + 1) % 16384] ∧ y.cycles = x.cycles + 3) ∧
      (8 ≤ x.calls.length → exec (.engCall e) s = .next (engRaise s e 33))) ∧
    (s.AtWord e 0x22 w →
      (∀ a, x.calls.getLast? = some a → ∃ y, exec (.engRet e) s = .next (s.updEng e fun _ => y) ∧ x.SameRegs y ∧ y.pc = a ∧
        y.calls = x.calls.dropLast ∧ y.cycles = x.cycles + 3) ∧
      (x.calls = [] → exec (.engRet e) s = .next (engRaise s e 33))) ∧
    (s.AtWord e 0x23 w →
      let n := if bitOf w 25 then ((x.w[bits w 24 22]?).getD 0).toNat else bits w 41 26
      ∃ y, exec (.dup e) s = .next (s.updEng e fun _ => y) ∧ x.KeepsRest y ∧ x.SameRegs y ∧ y.stReg = x.stReg ∧
        (n = 0 → x.loop = none → y.pc = (x.pc + 2) % 16384 ∧ y.dup = x.dup) ∧
        (0 < n → y.pc = (x.pc + 1) % 16384 ∧ y.dup = some { start := y.pc, stop := y.pc, left := n })) ∧
    (s.AtWord e 0x24 w →
      let n := if bitOf w 25 then ((x.w[bits w 24 22]?).getD 0).toNat else bits w 41 26
      ∃ y, exec (.loop e) s = .next (s.updEng e fun _ => y) ∧ x.KeepsRest y ∧ x.SameRegs y ∧ y.stReg = x.stReg ∧
        (n = 0 → y.pc = (bits w 13 0 + 1) % 16384 ∧ y.loop = x.loop) ∧
        (0 < n → y.pc = (x.pc + 1) % 16384 ∧ y.loop = some { start := y.pc, stop := bits w 13 0, left := n } ∧
          y.lc = BitVec.ofNat 32 n)) ∧
    (s.AtWord e 0x00 w →
      (∀ d, x.dup = some d → d.start = x.pc → 1 < d.left → ∃ y, exec (.engNop e) s = .next (s.updEng e fun _ => y) ∧
        y.pc = x.pc ∧ y.dup = some { d with left := d.left - 1, cached := true }) ∧
      (∀ l, x.dup = none → x.loop = some l → l.stop = x.pc → 1 < x.lc.toNat → ∃ y, exec (.engNop e) s =
        .next (s.updEng e fun _ => y) ∧ y.pc = l.start ∧ y.lc = x.lc - 1) ∧
      (∀ l, x.dup = none → x.loop = some l → l.stop = x.pc → x.lc.toNat ≤ 1 → ∃ y, exec (.engNop e) s =
        .next (s.updEng e fun _ => y) ∧ y.pc = (x.pc + 1) % 16384 ∧ y.loop = none ∧ regGet y 0x21 = 0)) ∧
    (s.AtWord e 0x28 w → x.bad.contains (3, bits w 38 31) = true → exec (.lim e) s = .next (engRaise s e 34)) ∧
    (s.AtWord e 0x28 w → x.bad.contains (3, bits w 38 31) = false →
      let en := Tab.get [] x.limits (bits w 38 31)
      let v := ((x.w[bits w 41 39]?).getD 0).toInt
      let low := fieldS en 0 4
      let high := fieldS en 4 4
      let q := field en 12 2
      let g := roundDiv ((planOf s (qClass q)).k * uNow s q * field en 8 4) (256 * 65536)
      let lf := v < low ∨ high < v
      let gf := ¬ lf ∧ field en 14 1 = 1 ∧ q ≠ 0xFFFF ∧ (v < low + g ∨ high - g < v ∨ (s.ledger q).oom = true)
      ∃ y, exec (.lim e) s = .next (s.updEng e fun _ => y) ∧ x.InOrder y ∧ x.SameRegs y ∧
        StBits x.stReg y.stReg [(5, decide lf), (6, decide gf)] ∧
        (lf → y.limitFails = incSat 32 x.limitFails) ∧ (gf → y.guardFails = incSat 32 x.guardFails) ∧
        y.runFails = x.runFails + (if lf ∨ gf then 1 else 0))

/-- 12 R256, R277 to R280, R282 and R283: ENG_LOAD reads its items once, from the host or DDR5, places `words` of them at a time
and completes OK with their number, or FIELD at the first bad item, with nothing placed; a bad beat of DDR5 ends it TESTER_FAULT
with the items before it in place, or FIELD where one of these is bad. ENG_RUN START runs the engine from ENTRY with cleared
registers, reserves the rates of its outputs and parks; a running engine is CONSISTENCY. STOP ends the run and completes OK with
1, or 0 where none ran. HALT ends the run OK with its failures. A short STR block goes out after FLUSH. ENG_FAULT raises the
engine's fault with its cause bit, or counts a corrected error. -/
def Obligations.EnginesAreLoadedAndRun : Prop :=
  (∀ (s : State) (id c : Nat) (sl : Slot) (data : List Byte) (words : Nat), s.Serves id c sl → sl.opc = 0x40 →
    engLoadOk sl = true → sl.coversBit 4 = true → dmaHeld s id sl = false →
    let e := sl.op 8 1
    let ddr := sl.op 10 1 = 1
    let src := sl.op 24 8
    let space := sl.op 9 1
    let base := sl.op 12 4
    let count := sl.op 16 4
    let k := engItemBytes space
    let p := sl.progress
    let m := min count (p + words)
    let held := if 0 < p then sl.held else if ddr then ddrRead s src (k * count) else hostBytes data (k * count)
    let items := chunks k count held
    let idle := space ≤ 1 → (s.eng e).st ≠ .running
    let reads : Prop := ddr → s.memUp = true ∧ badBeats s src (k * count) = []
    let placed (x : Engine) (a b : Nat) : Prop := x.w = (s.eng e).w ∧ x.pc = (s.eng e).pc ∧ ∀ i it, a ≤ i → i < b → items[i]? = some it →
        (space ≤ 1 → codeWord x (base + i) = field it 0 6) ∧
        (space = 2 ∨ space = 3 → bankGet x (space == 3) (base + i) = BitVec.ofNat 32 (field it 0 4)) ∧
        (space = 4 → Tab.get [] x.limits (base + i) = if it.all (· == 0) then [] else it)
    0 < count → base + count ≤ engSpaceSize space → (ddr → (regionHolding s [5, 6] src (k * count)).isSome = true) →
    (p = 0 → ¬ idle → exec (.engLoad id data words) s = .next (done s id Status.consistency 0)) ∧
    (p = 0 → idle → ddr → s.memUp = false → exec (.engLoad id data words) s = .next (done s id Status.testerFault 0)) ∧
    (∀ b rest, p = 0 → idle → ddr → s.memUp = true → badBeats s src (k * count) = b :: rest →
      let n := (4 * b - src) / k
      let v := (scanRead (correctRead s src (k * n)) (4 * b / 64 * 64) 64).1
      (∀ i, (List.range n).find? (engItemBad (s.eng e) space base (items.take n)) = some i →
        exec (.engLoad id data words) s = .next (done v id Status.field (base + i))) ∧
      ((List.range n).find? (engItemBad (s.eng e) space base (items.take n)) = none →
        ∃ u : State, exec (.engLoad id data words) s = .next (done u id Status.testerFault n) ∧ placed (u.eng e) 0 n ∧
          ∀ j, j ≠ e → u.eng j = s.eng j)) ∧
    (∀ i, p = 0 → idle → reads → (List.range count).find? (engItemBad (s.eng e) space base items) = some i →
      exec (.engLoad id data words) s = .next (done s id Status.field (base + i))) ∧
    ((p = 0 → idle ∧ reads ∧ (List.range count).find? (engItemBad (s.eng e) space base items) = none) →
      (m < count → ∃ t, exec (.engLoad id data words) s = .next t ∧ placed (t.eng e) p m ∧ (∀ j, j ≠ e → t.eng j = s.eng j) ∧
        t.slot id = some { sl with held := held, progress := m }) ∧
      (m = count → ∃ u : State, exec (.engLoad id data words) s = .next (done u id Status.ok count) ∧ placed (u.eng e) p m ∧
        ∀ j, j ≠ e → u.eng j = s.eng j))) ∧
  (∀ (s : State) (id c : Nat) (sl : Slot) (bind : List Byte), s.Serves id c sl → sl.opc = 0x41 → sl.op 9 1 = 0 →
    sl.coversBit 4 = true →
    let e := sl.op 8 1
    let t := hostBytes bind 192
    let ddr := outsOf t 1
    let str := outsOf t 2
    engStartOk sl t = true → (∀ b ∈ ddr, (regionHolding s [5] (field b 16 8) (field b 24 8)).isSome = true) →
    ((s.eng e).st = .running → exec (.engRunStart id bind) s = .next (done s id Status.consistency 0)) ∧
    (engStartBad s e t = false → isContained s (domEng e) = false → (boundIns t).any (sourceRecovers s) = false →
      (ddr ≠ [] → s.memUp = true ∧ fitsCapture s (outRates ddr) = true) →
      (∀ b ∈ str, fitsHost s (1000 * field b 4 4) = true) → (str ≠ [] → s.mem.host + outRates str ≤ streamCapBytes s) →
      ∃ u, exec (.engRunStart id bind) s = .next u ∧ parkedFor u id .ending = true ∧ (u.eng e).st = .running ∧
        (u.eng e).slot = some id ∧ (u.eng e).pc = sl.op 10 2 ∧ (u.eng e).stReg = 0x6000 ∧ (u.eng e).calls = [] ∧
        (∀ k, k ≠ 0x20 → k ≠ 0x22 → regGet (u.eng e) k = 0) ∧ (∀ a ∈ (u.eng e).pa, a = 0) ∧ (∀ a ∈ (u.eng e).sa, a = 0) ∧
        (u.eng e).startPos = s.sweep.pos ∧ (u.eng e).code = (s.eng e).code ∧ (u.eng e).u = (s.eng e).u ∧
        (u.eng e).v = (s.eng e).v ∧ (u.eng e).limits = (s.eng e).limits ∧ u.mem.capture = s.mem.capture + outRates ddr ∧
        u.mem.host = s.mem.host + outRates str ∧ ∀ j, j ≠ e → u.eng j = s.eng j)) ∧
  (∀ (s : State) (id c : Nat) (sl : Slot), s.Serves id c sl → sl.opc = 0x41 → sl.op 9 1 = 1 → sl.secMask = 0 → sl.op 8 1 ≤ 15 →
    sl.zero 10 64 = true → sl.coversBit 4 = true →
    let e := sl.op 8 1
    ((s.eng e).st ≠ .running ∨ (s.eng e).ending.isSome = true → exec (.engRunStop id) s = .next (done s id Status.ok 0)) ∧
    ((s.eng e).st = .running → (s.eng e).ending = none → exec (.engRunStop id) s = .next (done (tryFinishEng (s.updEng e fun x =>
      { x with ending := some Status.aborted, dup := none, loop := none }) e) id Status.ok 1))) ∧
  (∀ (s : State) (e : Fin 16) (w id : Nat), s.AtWord e 0x3F w → (s.eng e).slot = some id → (s.eng e).outs = [] → s.pmu = [] →
    ∃ u : State, exec (.engHalt e) s = .next (complete u id Status.ok (satTo 32 (s.eng e).runFails) (s.eng e).startPos) ∧
      (u.eng e).st = .idle ∧ (u.eng e).slot = none ∧ (u.eng e).w = (s.eng e).w ∧ (u.eng e).stReg = (s.eng e).stReg) ∧
  (∀ (s : State) (e : Fin 16) (p : Fin 4),
    let o := s.outPort e p
    o.kind = 2 → o.block ≠ [] → o.flush * 1600 ≤ s.now - o.blockAt → stageRoom s o.str = true →
    exec (.engBlockFlush e p) s = .next (tryFinishEng (stageEngBlock s e p false) e)) ∧
  (∀ (s : State) (e : Fin 16) (mem : Fin 4) (addr : Fin 32768),
    let x := s.eng e
    let going := x.st = .running ∧ x.ending = none
    let q := (mem.val, addr.val % (if mem.val = 0 then 16384 else if mem.val = 3 then 256 else 32768))
    (going → engWordOk (codeWord x) x.pc = false → exec (.engFault e 0 mem addr) s = .next (raiseFault s (domEng e) 32)) ∧
    (going → (wOpc (codeWord x x.pc) = 0x21 ∧ 8 ≤ x.calls.length) ∨ (wOpc (codeWord x x.pc) = 0x22 ∧ x.calls = []) →
      exec (.engFault e 1 mem addr) s = .next (raiseFault s (domEng e) 33)) ∧
    exec (.engFault e 2 mem addr) s = .next (raiseFault (s.updEng e fun x =>
      { x with bad := if x.bad.contains q then x.bad else q :: x.bad }) (domEng e) 34) ∧
    (∀ p, x.st = .running → (List.range 4).find? (outBad s e) = some p →
      exec (.engFault e 3 mem addr) s =
        .next (raiseFault (scanModify s ((s.outPort e p).base + (s.outPort e p).wrOff) 4).1 (domEng e) 35)) ∧
    exec (.engFault e 4 mem addr) s = .next (s.updEng e fun x => { x with eccCorrected := incSat 16 x.eccCorrected }))

/-! ### Groups (16) -/

/-- 16 R375 to R378 and 14 R340: the keeper's group apply. GROUP APPLY waits while another group operation runs, and is refused
during alignment; else PREPARE goes out twice and the keeper tests its own set, which becomes PENDING; a failed test cancels at
once with DETAIL bit 0. Once RDY_N reads released, which it does not while this device drives it, the apply is admitted under the
5 µs lead, or LATE; 200 µs without release end it TESTER_FAULT. APPLY goes out at L = 4,400 ns, the recovery check follows at the
frame's end, slot g is sampled from mid-slot on, and 2,800 ns after the frame COMMIT goes out where every roster member accepted,
else CANCEL with a bit for each that did not. Each frame starts behind those already placed, its second copy 360 ns later. 20 µs
after P the apply completes OK, or TESTER_FAULT after GFLT_N. A cancelled apply leaves no operation, no scheduled apply and no
PENDING set. -/
def Obligations.KeeperRunsGroupApply : Prop :=
  (∀ (s : State) (id c : Nat) (sl : Slot), s.Serves id c sl → sl.opc = 0x60 → sl.op 8 1 = 0 → groupApplyOk sl = true →
    sl.coversBit 7 = true →
    let k := sl.op 9 1
    let op := s.grp.nextOp
    (∀ o, s.grp.op = some o → exec (.groupApply id) s =
      .next (if o.kind = 4 then done s id Status.recovery 0 else park s id .group)) ∧
    (s.grp.op = none → ∃ u : State, u.stg = s.stg ∧ parkedFor u id .ending = true ∧
      u.grp.op = some { kind := 1, slot := id, op := op, set := k, pos := requestPos s sl 10 16 5000, sentAt := beaconFree s } ∧
      (let f := Frame.prepare op k (sl.op 10 1 == 1) (BitVec.ofNat 64 (sl.op 16 8))
       u.grp.frames = s.grp.frames ++ [(beaconFree s, f), (beaconFree s + 576, f)]) ∧
      (groupSetTests u sl sl.ring k (requestPos s sl 10 16 5000) = none →
        exec (.groupApply id) s = .next { holdSet u k with grp.rdyN := u.grp.roster > 1 }) ∧
      (∀ st d, groupSetTests u sl sl.ring k (requestPos s sl 10 16 5000) = some (st, d) →
        exec (.groupApply id) s = .next (endGroupOp (sendTwice u (.cancel op)) st 1 s.sweep.pos)))) ∧
  (∀ s : State, drivesRdy s = true → exec .rdyNReleased s = .next s) ∧
  (∀ (s : State) (o : GroupOp) (sl : Slot), s.grp.op = some o → o.kind = 1 → o.admitted = false → rdyReadable s o = true →
    drivesRdy s = false → schedFull s = false → s.slot o.slot = some sl →
    (requestLate s sl 10 16 5000 = true →
      exec .rdyNReleased s = .next (cancelGroup { s with grp.rdyN := false } Status.late 0)) ∧
    (requestLate s sl 10 16 5000 = false → ∃ t, exec .rdyNReleased s = .next t ∧
      let p := requestPos s sl 10 16 5000
      t.grp.op = some { o with admitted := true, pos := p } ∧
      t.grp.rdyN = false ∧ t.stg.sched = (schedule s { kind := .apply o.set, slot := some o.slot, pos := p }).stg.sched)) ∧
  (∀ (s : State) (o : GroupOp), s.grp.op = some o → o.kind = 1 → o.admitted = false → o.sentAt + 200 * usTicks ≤ s.now →
    exec .rdyNTimeout s = .next (cancelGroup s Status.testerFault 0)) ∧
  (∀ (s : State) (o : GroupOp), s.grp.op = some o → o.kind = 1 → o.admitted = true → o.frameAt = none →
    (isFuture s.sweep.pos o.pos = true → ahead s.sweep.pos o.pos * 160 ≤ 4400 * s.sweep.rate) →
    ∃ t, exec .keeperSendApply s = .next t ∧ t.grp.op = some { o with frameAt := some (beaconFree s) } ∧
      t.grp.frames = s.grp.frames ++ [(beaconFree s, .apply o.op o.pos), (beaconFree s + 576, .apply o.op o.pos)]) ∧
  (∀ (s : State) (o : GroupOp) (pos : Pos) (second : Bool) (f : Nat), s.grp.keeper = true → s.grp.op = some o → o.kind = 1 → o.op < 256 →
    o.frameAt = some f → f ≤ s.now → f * 5 + 8 * 320 ≤ s.now * 5 → o.selfOk = false →
    (groupCheck s o.set o.pos = none → exec (.applyFrame (BitVec.ofNat 8 o.op) pos second) s =
      .next { markChecked s o.set with grp.op := some { o with selfOk := true } }) ∧
    (∀ st d, groupCheck s o.set o.pos = some (st, d) →
      exec (.applyFrame (BitVec.ofNat 8 o.op) pos second) s = .next (cancelGroup s st 1))) ∧
  (∀ (s : State) (o : GroupOp) (g : BitVec 5) (f : Nat), s.grp.keeper = true → s.grp.op = some o → o.kind = 1 →
    bitOf s.grp.roster g.toNat = true → o.frameAt = some f → f * 5 + 8 * (830 + 60 * g.toNat) ≤ s.now * 5 →
    s.now * 5 < f * 5 + 8 * (860 + 60 * g.toNat) →
      exec (.voteSlot g true) s = .next { s with grp.op := some { o with votes := o.votes ||| 2 ^ g.toNat } }) ∧
  (∀ (s : State) (o : GroupOp) (f : Nat), s.grp.op = some o → o.kind = 1 → o.committed = false → o.selfOk = true →
    o.frameAt = some f → f ≤ s.now → f * 5 + 8 * 2800 ≤ s.now * 5 →
    let missing := fun g => decide (1 ≤ g) && decide (g < 32) && bitOf s.grp.roster g && !bitOf o.votes g
    ((∀ g, missing g = false) → ∃ t, exec .commitDecision s = .next t ∧
      t.grp.op = some { o with selfOk := true, committed := true } ∧
      t.grp.frames = s.grp.frames ++ [(beaconFree s, .commit o.op), (beaconFree s + 576, .commit o.op)]) ∧
    (∀ h, missing h = true → ∃ m, exec .commitDecision s = .next (cancelGroup s Status.consistency m) ∧
      ∀ g, bitOf m g = missing g)) ∧
  (∀ (s : State) (o : GroupOp), s.grp.op = some o → o.kind = 1 → o.committed = true →
    ∀ at' : Nat, o.actAt = some at' → at' + 20 * usTicks ≤ s.now →
    exec .groupApplyDone s = .next (complete { s with grp.op := none } o.slot
      (if o.gflt = true then Status.testerFault else Status.ok) 0 o.pos)) ∧
  (∀ (s : State) (o : GroupOp) (st d : Nat), s.grp.op = some o → ∃ u : State,
    cancelGroup s st d = complete u o.slot st d s.sweep.pos ∧ u.grp.op = none ∧
    u.grp.frames = s.grp.frames ++ [(beaconFree s, .cancel o.op), (beaconFree s + 576, .cancel o.op)] ∧ (∀ a ∈ u.stg.sched,
      a.kind ≠ .apply o.set) ∧
    ((s.set o.set).st = .pending → (u.set o.set).st = .opened))

/-- 16 R376, R378, R379 and R380: a roster worker. PREPARE of a new OP holds a set that passes, with SOURCE GROUP and a position not
past, PENDING, its apply scheduled where it names a position, and refuses another with event 0x04A5. APPLY enters its position and
accepts after the recovery check; a slot is voted within its 60 ns, the worker's line delay early; COMMIT keeps and CANCEL reopens
the set; with neither 3,900 ns after the frame the set reopens, GFLT_N is driven 10 µs and 0x04A7 raised. A DAYMARK frame is taken
if not past; a FENCE frame raises 0x04A8 and asserts RDY_N. Outside the roster, and on a second copy, a worker ignores command
frames. -/
def Obligations.WorkersTakePart : Prop :=
  (∀ (s : State), s.grp.keeper = false → (s.grp.aligned = false ∨ s.grp.realign = true) →
    (∀ (op : Byte) (k : Fin 16) (sweep : Bool) (p : Pos), exec (.prepare op k sweep p) s = .next s) ∧
    (∀ (op : Byte) (p : Pos) (b : Bool), exec (.applyFrame op p b) s = .next s) ∧ (∀ op : Byte, exec (.commit op) s = .next s) ∧
    (∀ op : Byte, exec (.cancel op) s = .next s) ∧ (∀ (op : Byte) (b : Fin 2) (p : Pos), exec (.daymarkFrame op b p) s = .next s) ∧
    (∀ (op : Byte) (v : Bool), exec (.fenceFrame op v) s = .next s) ∧ (∀ off, exec (.epoch off) s = .next s)) ∧
  (∀ (s : State) (op : Byte) (k : Fin 16) (sweep : Bool) (pos : Pos), inRoster s = true → firstCopy s 1 op.toNat = true →
    s.grp.worker = none →
    let v := seeOp s 1 op.toNat
    let u := testsSet v
    let p := if sweep then pos else afterLead s 5000
    let me := { recsClaim v (v.set k).recs with ring := if (v.set k).st = .free then 256 else (v.set k).owner }
    (∀ st d, groupSetTests u me 256 k p = some (st, d) →
      exec (.prepare op k sweep pos) s = .next (notice u 0x04A5 (st + 256 * k.val))) ∧
    (groupSetTests u me 256 k p = none → s.sweep.source ≠ .group →
      exec (.prepare op k sweep pos) s = .next (notice u 0x04A5 (Status.consistency + 256 * k.val))) ∧
    (groupSetTests u me 256 k p = none → s.sweep.source = .group → (s.sweep.st = .running ∨ s.sweep.st = .holdover) →
      sweep = true → isPast s.sweep.pos pos = true →
      exec (.prepare op k sweep pos) s = .next (notice u 0x04A5 (Status.late + 256 * k.val))) ∧
    (groupSetTests u me 256 k p = none → s.sweep.source = .group → (s.sweep.st = .running ∨ s.sweep.st = .holdover) →
      (sweep = true → isPast s.sweep.pos pos = false) → ∃ t, exec (.prepare op k sweep pos) s = .next t ∧
        (t.set k).st = .pending ∧ (t.set k).group = true ∧ (t.set k).recs = (s.set k).recs ∧
        t.grp.worker = some { op := op.toNat, set := k, pos := p } ∧
        t.stg.sched = (if sweep then (schedule s { kind := .apply k, slot := none, pos := p }).stg.sched else s.stg.sched) ∧
        exec (.prepare op k sweep pos) t = .next t)) ∧
  (∀ (s : State) (op : Byte) (pos : Pos) (second : Bool) (w : WorkerOp), s.grp.keeper = false → inRoster s = true →
    firstCopy s 2 op.toNat = true → s.grp.worker = some w → w.op = op.toNat →
    let u := schedule (unschedule (seeOp s 2 op.toNat) (.apply w.set)) { kind := .apply w.set, slot := none, pos := pos }
    (groupCheck u w.set pos = none → exec (.applyFrame op pos second) s =
        .next { markChecked u w.set with
          grp.worker := some { w with pos := pos, frameAt := some (applyStart s second), accepted := true } }) ∧
    (∀ st d, groupCheck u w.set pos = some (st, d) → ∃ v : State,
        exec (.applyFrame op pos second) s = .next (notice v 0x04A5 (st + 256 * w.set)) ∧ v.grp.worker = none ∧
        ((s.set w.set).st = .pending → (v.set w.set).st = .opened))) ∧
  (∀ (s : State) (w : WorkerOp) (f : Nat), s.grp.keeper = false → s.grp.worker = some w → w.frameAt = some f →
    (w.accepted = true → s.grp.groupId < 32 →
      f * 5 + 8 * (800 + 60 * s.grp.groupId) ≤ (s.now + (ownDelays s).2 / 65536) * 5 →
      (s.now + (ownDelays s).2 / 65536) * 5 < f * 5 + 8 * (860 + 60 * s.grp.groupId) →
      exec (.voteSlot (BitVec.ofNat 5 s.grp.groupId) true) s = .next { s with grp.worker := some { w with voted := true } }) ∧
    (w.voted = true → w.committed = false → f ≤ s.now → f * 5 + 8 * 3900 ≤ s.now * 5 → ∃ u : State,
      exec .commitLost s = .next (notice u 0x04A7 w.op) ∧ u.grp.worker = none ∧
      u.grp.gfltUntil = some (s.now + 10 * usTicks) ∧ ((s.set w.set).st = .pending → (u.set w.set).st = .opened))) ∧
  (∀ (s : State) (op : Byte) (w : WorkerOp), s.grp.worker = some w → inRoster s = true → w.op = op.toNat →
    (w.accepted = true → exec (.commit op) s = .next { s with grp.worker := some { w with committed := true } }) ∧
    (w.committed = false → ∃ t, exec (.cancel op) s = .next t ∧ t.grp.worker = none ∧
      ((s.set w.set).st = .pending → (t.set w.set).st = .opened))) ∧
  (∀ (s : State) (op : Byte) (b : Fin 2) (pos : Pos), inRoster s = true → firstCopy s 5 op.toNat = true →
    isPast s.sweep.pos pos = false → (∀ a ∈ s.stg.sched, a.kind = .daymark → nearDay s a.pos pos = false) →
    s.stg.dayBusy = none →
    ∃ t, exec (.daymarkFrame op b pos) s = .next t ∧
      t.stg.sched = (schedule s { kind := .groupDaymark b, slot := none, pos := pos }).stg.sched) ∧
  (∀ (s : State) (op : Byte) (visible : Bool), inRoster s = true → firstCopy s 6 op.toNat = true → ∃ u : State,
    exec (.fenceFrame op visible) s = .next (event u 0x04A8 (op.toNat + 256 * b2n visible)) ∧ u.grp.rdyDrive = true ∧
    u.grp.fence = some (s.host.sq.map (fun r => (r.1, submitted r.2)), visible))

/-- 16 R379, R380, 14 R340 and 13 R298 to R300: GROUP DAYMARK sends its position and bank twice and schedules the keeper's own, in
the bank the local daymarks before it leave free; too close to another it is CONSISTENCY. A FENCE of the ring or the device
completes with its covered descriptors' number once they are done, and parks until then; one of the group first sends its token,
and RDY_N read as released ends its wait for the workers. 16 R372 and R373: GROUP ALIGN and its steps. PING is answered 1,600
ticks after its stamp; R_A = t2 − t0 − 1,600 ticks and R_B = t5 − t3 − 1,600 ticks; after 16 rounds COMP goes out, and a worker
whose delays lie from 0 to 60 ns with a small spread joins the roster; one that does not answer within 2 µs of a PING or of the
keeper's pulse is skipped; after worker 31 ALIGN completes with the number aligned. A worker in range takes its delays and its
tick number; one out of range, or whose spread failed, raises 0x04A4 and leaves the roster. A second copy does nothing. The bound
on the spread is exact for doubled delays, and how COMP says what failed is the model's choice (log entry 28). -/
def Obligations.GroupDaymarksAndAlignment : Prop :=
  ((∀ (s : State) (id c : Nat) (sl : Slot), s.Serves id c sl → sl.opc = 0x60 → sl.op 8 1 = 1 → sl.op 9 1 = 0 → sl.op 10 1 = 1 →
    sl.zero 11 16 = true → sl.zero 24 64 = true → sl.coversBit 7 = true → s.grp.op = none → schedFull s = false →
    requestLate s sl 10 16 4000 = false →
    let p := BitVec.ofNat 64 (sl.op 16 8)
    (dayTooClose s p = true → exec (.groupDaymark id) s = .next (done s id Status.consistency 0)) ∧
    let before := s.stg.sched.filter fun a => a.kind == .daymark && orderKey s.sweep.pos a.pos ≤ orderKey s.sweep.pos p
    let bank := (s.stg.dayCount + before.length) % 2
    let f := Frame.daymark s.grp.nextOp bank p
    (dayTooClose s p = false → ∃ t, exec (.groupDaymark id) s = .next t ∧ parkedFor t id .ending = true ∧
      t.stg.sched = (schedule s { kind := .groupDaymark bank, slot := some id, pos := p }).stg.sched ∧
      t.grp.frames = s.grp.frames ++ [(beaconFree s, f), (beaconFree s + 576, f)])) ∧
  (∀ (s : State) (id c : Nat) (sl : Slot), s.Serves id c sl → sl.opc = 0x01 → fenceOk sl = true →
    (sl.op 8 1 ≠ 2 → exec (.fence id) s =
      .next (if fenceDone s sl = true then done s id Status.ok (satTo 32 sl.covered) else park s id .fence)) ∧
    (sl.op 8 1 = 2 → s.grp.op = none → ∃ t, exec (.fence id) s = .next t ∧ parkedFor t id .fence = true ∧
      (let f := Frame.fence s.grp.nextOp (sl.op 9 1 == 1)
       t.grp.frames = s.grp.frames ++ [(beaconFree s, f), (beaconFree s + 576, f)]) ∧
      t.grp.op = some { kind := 3, slot := id, op := s.grp.nextOp, sentAt := beaconFree s }) ∧
    (∀ o, sl.op 8 1 = 2 → s.grp.op = some o → o.slot = id → o.admitted = true → o.kind = 3 → fenceDone s sl = true →
      exec (.fence id) s = .next (done { s with grp.op := none } id Status.ok (satTo 32 sl.covered)))) ∧
  (∀ (s : State) (o : GroupOp), s.grp.op = some o → o.kind = 3 → o.admitted = false → rdyReadable s o = true →
    drivesRdy s = false →
    exec .rdyNReleased s = .next { s with grp.rdyN := false, grp.op := some { o with admitted := true } })) ∧
  ((∀ (s : State) (id c : Nat) (sl : Slot), s.Serves id c sl → sl.opc = 0x60 → sl.op 8 1 = 2 → sl.zero 9 64 = true →
    sl.coversBit 7 = true → s.grp.op = none → ∃ t, exec (.groupAlign id) s = .next t ∧ parkedFor t id .ending = true ∧
      t.grp.roster = 1 ∧ t.grp.delays = [] ∧ t.grp.frames = s.grp.frames ++ [(beaconFree s, .ping 1), (beaconFree s + 576, .ping 1)] ∧
      t.grp.op = some {
        kind := 4, slot := id, op := s.grp.nextOp, sentAt := s.now, admitted := true, t0 := stampAtTick s (beaconFree s) }) ∧
  (∀ (s : State) (o : GroupOp) (t : Nat), s.grp.op = some o → o.kind = 4 →
    let r (t0 : Nat) : Int := (t : Int) - t0 - 1600 * 65536
    (o.t2 = 0 → o.t0 < t → t ≤ o.t0 + 3200 * 65536 → exec (.alignReply t) s =
      .next { s with grp.op := some { o with t2 := t, ras := o.ras ++ [r o.t0] } }) ∧
    (o.t2 = 0 → o.t0 + 3200 * 65536 < t → exec (.alignReply t) s = .next s) ∧
    (o.t2 ≠ 0 → o.t3 = 0 → o.t2 + 3200 * 65536 ≤ t →
      exec (.alignKeeperPulse t) s = .next { s with grp.op := some { o with t3 := t } }) ∧
    (o.t2 ≠ 0 → o.t3 ≠ 0 → o.t3 < t → o.round < 15 → ∃ u, exec (.alignReply t) s = .next u ∧
      u.grp.op = some { o with
        rbs := o.rbs ++ [r o.t3], round := o.round + 1, t0 := stampAtTick s (beaconFree s), t2 := 0, t3 := 0 } ∧
      u.grp.frames = s.grp.frames ++ [(beaconFree s, .ping o.worker), (beaconFree s + 576, .ping o.worker)]) ∧
    (o.t2 ≠ 0 → o.t3 ≠ 0 → o.t3 < t → o.round = 15 →
      let rbs := o.rbs ++ [r o.t3]
      let dl := roundDiv rbs.sum 32
      let db := roundDiv (2 * o.ras.sum - rbs.sum) 32
      let spread := spreadOk rbs && spreadOk ((o.ras.zip rbs).map fun p => 2 * p.1 - p.2)
      let range := 0 ≤ dl ∧ dl ≤ 6291456 ∧ 0 ≤ db ∧ db ≤ 6291456
      let f := Frame.comp o.worker (if spread = true then compDelay db else 0xFFFFFF) (compDelay dl)
      let sent := s.grp.frames ++ [(beaconFree s, f), (beaconFree s + 576, f)]
      let round := { o with rbs := rbs, round := 16 }
      (spread = true → range → ∃ u : State, exec (.alignReply t) s = .next (alignNext u) ∧ u = { s with grp := u.grp } ∧
        u.grp.roster = s.grp.roster ||| 2 ^ o.worker ∧ Tab.get none u.grp.delays o.worker = some (db.toNat, dl.toNat) ∧
        u.grp.op = some { round with aligned := o.aligned + 1 } ∧
        u.grp.frames = sent ++ [1152, 1728].map fun k => (beaconFree s + k, .tick (stampAtTick s (beaconFree s + k)))) ∧
      (¬ (spread = true ∧ range) → ∃ u : State, exec (.alignReply t) s = .next (alignNext u) ∧ u = { s with grp := u.grp } ∧
        u.grp.roster = s.grp.roster ∧ u.grp.delays = s.grp.delays ∧ u.grp.op = some round ∧ u.grp.frames = sent)) ∧
    (o.t2 = 0 → o.t0 + 3200 * 65536 ≤ stampNow s → exec .alignAbsent s = .next (alignNext s)) ∧
    (o.t2 ≠ 0 → o.t3 ≠ 0 → o.t3 + 3200 * 65536 ≤ stampNow s → exec .alignAbsent s = .next (alignNext s))) ∧
  (∀ (s : State) (o : GroupOp), s.grp.op = some o →
    (31 ≤ o.worker → alignNext s = endGroupOp (event s 0x04A3 o.aligned) Status.ok o.aligned s.sweep.pos) ∧
    (o.worker < 31 → (alignNext s).grp.frames = s.grp.frames ++ [(beaconFree s, .ping (o.worker + 1)), (beaconFree s + 576,
      .ping (o.worker + 1))] ∧
      (alignNext s).grp.op =
        some { o with worker := o.worker + 1, round := 0, ras := [], rbs := [], t0 := stampAtTick s (beaconFree s), t2 := 0, t3 := 0 })) ∧
  (∀ (s : State) (t : Nat), hearsFrames s = true → 0 < s.grp.groupId → s.grp.groupId < 32 →
    let id := BitVec.ofNat 5 s.grp.groupId
    (∀ g : BitVec 5, isCopy s (.ping g.toNat) = true → exec (.ping g t) s = .next { s with grp.copyOf := none }) ∧
    (isCopy s (.ping s.grp.groupId) = false → exec (.ping id t) s = .next { s with
      grp.copyOf := some (s.now, .ping s.grp.groupId), grp.answerAt := some (t + 1600 * 65536), grp.realign := true }) ∧
    (∀ g : BitVec 5, g.toNat ≠ s.grp.groupId → isCopy s (.ping g.toNat) = false → exec (.ping g t) s = .next { s with
      grp.copyOf := some (s.now, .ping g.toNat), grp.answerAt := none, grp.realign := s.grp.realign || g.toNat == 1 }) ∧
    (s.grp.answerAt.isSome = true → exec (.alignEcho t) s = .next { s with grp.answerAt := some (t + 1600 * 65536) }) ∧
    ∀ beacon line : BitVec 24,
      let f := Frame.comp s.grp.groupId beacon.toNat line.toNat
      let spread := decide (beacon.toNat = 0xFFFFFF)
      let range := decide (6291456 < line.toNat ∨ (spread = false ∧ 6291456 < beacon.toNat))
      (isCopy s f = true → exec (.comp id beacon line) s = .next { s with grp.copyOf := none }) ∧
      (isCopy s f = false → beacon.toNat ≤ 6291456 → line.toNat ≤ 6291456 → ∃ u : State,
        exec (.comp id beacon line) s = .next u ∧ u = { s with grp := u.grp } ∧ u.grp.aligned = true ∧ u.grp.realign = false ∧
        ownDelays u = (beacon.toNat, line.toNat)) ∧
      (isCopy s f = false → (spread = true ∨ range = true) → ∃ u : State,
        exec (.comp id beacon line) s = .next (notice u 0x04A4 (s.grp.groupId + 256 * b2n range + 512 * b2n spread)) ∧
        u = { s with grp := u.grp } ∧ u.grp.aligned = false ∧ ownDelays u = (0, 0))) ∧
  (∀ (s : State) (stamp : BitVec 64) (arrival : Nat), inRoster s = true → s.grp.answerAt.isSome = true →
    let d : Int := (stamp.toNat : Int) + (ownDelays s).1 - arrival
    ∃ t, exec (.tick stamp arrival) s = .next t ∧
      (0 ≤ stampNow s + d → stampNow s + d < 2 ^ 80 → (stampNow t : Int) = stampNow s + d) ∧
      (∀ n, (t.chan n).epochSent = none) ∧ t.grp.answerAt = none ∧ t.sweep.pos = s.sweep.pos))

/-- 16 R366 to R370, R377, R381, R382 and R383: the keeper's POS_SYNC every 1,024 ns, with the position at its own START and rate
0 while the sweep holds, unless a command frame is due, command frames that have not begun behind it; a worker's sampling phase
and its count of failed frames; the edges of GFLT_N as events at their edge, the assertion marking an apply that acted up to 20 µs
before; the end of a driven GFLT_N; GRP_EPOCH_CTRL, ignored on a worker; SYS_EPOCH of an armed keeper and EPOCH on a worker. An
epoch moves the stamp time exactly, once for both copies of its frame. -/
def Obligations.BusLinesAct : Prop :=
  (∀ s : State, s.grp.keeper = true → s.running = true → s.grp.posDue ≤ 5 * s.now → commandDue s = false →
    let holds := s.sweep.holdFor.isSome || s.sweep.st == .lost || s.sweep.st == .noSync || s.sweep.st == .held
    ∃ t, exec .posSyncDue s = .next t ∧ t.grp.posDue = s.grp.posDue + 8192 ∧
      let rate := if holds then 0 else s.sweep.rate
      t.grp.frames = (s.grp.frames.filter fun f => decide (f.1 < posSlot s)) ++
        (posSlot s, .posSync (s.sweep.pos + BitVec.ofNat 64 ((posSlot s - s.now) * rate / 256)) rate) ::
          ((s.grp.frames.filter fun f => !decide (f.1 < posSlot s)).map fun x => (x.1 + 576, asSent s (x.1 + 576) x.2))) ∧
  (∀ (s : State) (phase : Fin 8), s.grp.keeper = false →
    exec (.gclkValid phase) s = .next { s with grp.phase := some phase.val }) ∧
  (∀ s : State, hearsBeacon s = true →
    exec .beaconCrcFailure s = .next { s with grp.frameErrors := min (s.grp.frameErrors + 1) 65535 }) ∧
  (∀ s : State, s.grp.gfltN = false → ∃ u : State, exec (.gfltNEdge true) s = .next (lineEvent u 0x04AA (b2n (drivesGflt s))) ∧
    u = { s with grp := u.grp } ∧ u.grp.gfltN = true ∧
    (∀ o, s.grp.op = some o → (o.actAt = none → u.grp.op = some o) ∧
      ∀ p, o.actAt = some p → u.grp.op = some { o with gflt := o.gflt || decide (s.now ≤ p + 20 * usTicks) })) ∧
  (∀ s : State, drivesGflt s = true → exec (.gfltNEdge false) s = .next s) ∧
  (∀ s : State, s.grp.gfltN = true → drivesGflt s = false →
    exec (.gfltNEdge false) s = .next (lineEvent { s with grp.gfltN := false } 0x04AB 0)) ∧
  (∀ (s : State) (t : Nat), s.grp.gfltUntil = some t → t ≤ s.now →
    exec .gfltDriveEnd s = .next { s with grp.gfltUntil := none }) ∧
  (∀ (s : State) (w : RegWrite), s.grp.keeper = false → exec (.grpEpochCtrlWrite w) s = .next s) ∧
  (∀ (s : State) (w : RegWrite), s.grp.keeper = true →
    let v := RegWrite.onto w (BitVec.ofNat 64 (epochCtrl s))
    exec (.grpEpochCtrlWrite w) s = .next (if 6291456 < bits v.toNat 39 16 then configRefused s (RegWrite.at' w 0x60200)
      else { s with grp.epochArm := v.getLsbD 0, grp.epochEdge := v.getLsbD 1, grp.epochDelay := bits v.toNat 39 16 })) ∧
  (∀ (s : State) (t : Nat) (falling : Bool), s.grp.keeper = true → s.grp.epochArm = true → s.grp.epochEdge = falling →
    s.running = true → stampDue s t = true →
    let e : Int := (t : Int) - s.grp.epochDelay
    let offset : Int := (s.grp.epochTick.toNat * 65536 : Nat) - e
    let p := s.grp.epochPos + BitVec.ofInt 64 (((stampNow s : Int) - e) * s.sweep.rate / 2 ^ 24)
    let f := Frame.epoch (BitVec.ofInt 64 offset)
    ∃ u : State, exec (.sysEpoch falling t) s = .next (event u 0x04A9 0) ∧ u.grp.epochArm = false ∧
      (0 ≤ stampNow s + offset → stampNow s + offset < 2 ^ 80 → (stampNow u : Int) = stampNow s + offset) ∧
      u.grp.frames = s.grp.frames ++ [(beaconFree s, f), (beaconFree s + 576, f)] ∧
      (s.sweep.source ≠ .time → u.sweep.pos = s.sweep.pos) ∧
      (s.sweep.source = .time → isPast s.sweep.pos p = true → u.sweep.pos = s.sweep.pos ∧ u.sweep.st = .held ∧
        u.sweep.holdFor = some s.sweep.pos ∧ u.sweep.beacon = p) ∧
      (s.sweep.source = .time → isPast s.sweep.pos p = false → u.sweep.pos = p ∧ u.sweep.st = .running ∧
        u.sweep.resync = incSat 16 s.sweep.resync)) ∧
  (∀ (s : State) (off : BitVec 64), inRoster s = true →
    (isCopy s (.epoch off) = false → ∃ u : State, exec (.epoch off) s = .next (event u 0x04A9 0) ∧
      u.grp.copyOf = some (s.now, .epoch off) ∧
      (0 ≤ stampNow s + off.toInt → stampNow s + off.toInt < 2 ^ 80 → (stampNow u : Int) = stampNow s + off.toInt)) ∧
    (isCopy s (.epoch off) = true → exec (.epoch off) s = .next { s with grp.copyOf := none }))

/-! ### Faults (18) -/

/-- 18 R407 and R404 with 03 R66, 04 R74, 08 R173, 09 R191, 10 R240, 11 R249, 01 R13 and 21 R471. A monitor of 03 R66 raises its
fault once its condition has held for the qualify time, once per occurrence, and again only after a restoration of its domain has
begun; it does nothing else. The other detections raise the fault of their domain with its cause bit. The state raised from has
the phase and recoveries of the present one; a rail or a stopped reference is remembered for R412. A synthesizer is not unlocked
during a retune; an open load is class 0 unless OPEN_LOAD_FAULT is 1; replays of a die link are a fault at the sixteenth in a row,
the manual giving no time between them (log entry 29); the measured operands are log entry 72. 18 R408, R409, R411, R415 to R417:
what a fault of domain d does. In SERVICE, overlapping no recovery, it opens one, with a quiet period of QUIET_US, or queued
behind sixteen; a channel goes to HOLD, class 3 goes to RECOVERY. Overlapping one, it is merged into the earliest: the quiet
period restarts, and the fourth merge widens to the escalation target, closing the recoveries inside it. In START, SELFTEST and
RECOVERY class 1 isolates and the other classes latch HALTED. Cause bits 48 and 49 enter SHUTDOWN in every phase. In HALTED and
SHUTDOWN nothing but the event follows. -/
def Obligations.MonitorsRaiseFaultsByClass : Prop :=
  (∀ s : State,
    let raised := fun (c : Instr) (d bit : Nat) (u : State) => exec c s = .next (raiseFault u d bit) ∧ u.flt.phase = s.flt.phase ∧
      u.flt.recs = s.flt.recs ∧ u.now = s.now ∧ u.chans = s.chans
    let raises := fun (c : Instr) (d bit : Nat) => ∃ u : State, raised c d bit u
    let tells := fun (out : State → State) (c : Instr) (d bit res q since : Nat) (holds : Prop) =>
      let m := (Tab.get (0, 0) s.flt.mon (512 * bit + res)).2
      let start := if m = 0 ∨ m < since then some since else if m < restSince s d then some (restSince s d) else none
      (∀ t, holds → start = some t → t + q ≤ s.now → ∃ u : State, exec c s = .next (out u) ∧ u = { s with flt := u.flt } ∧
        u.flt.phase = s.flt.phase ∧ u.flt.recs = s.flt.recs ∧
        u.flt.mon = Tab.set (0, 0) s.flt.mon (512 * bit + res) (since, s.now) ∧
        u.flt.railBad = (s.flt.railBad || decide (bit = 5 ∨ bit = 42)) ∧ u.flt.refStopped = (s.flt.refStopped || decide (bit = 26))) ∧
      ((¬ holds ∨ start = none ∨ ∃ t, start = some t ∧ s.now < t + q) → exec c s = .next s)
    let watches := fun (c : Instr) (d bit res q since : Nat) (holds : Prop) =>
      tells (fun u => raiseFault u d bit) c d bit res q since holds
    (∀ (ch : Fin 512) (x : Int) (since : Nat),
      watches (.drvOc ch x since) ch 0 ch 800 since (100000000 < x.natAbs ∧ (s.chan ch).drv ≠ .off ∧ (s.chan ch).checking = false) ∧
      watches (.pinOv ch x since) ch 1 ch 1600 since (7800000 < x) ∧ watches (.pinUv ch x since) ch 2 ch 1600 since (x < -2300000) ∧
      ∀ dac : Fin 6, watches (.dacVerify ch dac x since) ch 3 ch 1600000 since
        (20000 < x.natAbs ∧ Tab.get 0 (s.chan ch).levelAt (levelPars.getD dac 0) + 32000 ≤ since)) ∧
    (∀ (lg : Fin 64) (x : Int) (na since : Nat), watches (.lgOc lg x since) (0x200 + lg) 4 lg 1600 since (640000000 < x) ∧
      watches (.pmuLgOc lg na since) (0x200 + lg) 8 lg 3200 since (176000000 < na)) ∧
    (∀ (die : Fin 4) (pos neg : Int) (since : Nat),
      watches (.peRail die pos neg since) 0x2FF 5 die 3200 since (pos < 8400000 ∨ -3600000 < neg) ∧
      raises (.dieLink die) (0x248 + die) 10) ∧
    (∀ since permille : Nat, watches (.refStopped since) 0x2FF 26 0 160 since True ∧
      watches (.ctrlRail permille since) 0x2FF 42 0 3200 since (permille < 900) ∧
      ∀ m : Fin 2, watches (.memChannel m since) (0x290 + m) 58 m 320 since True) ∧
    (∀ n : Fin 8, ∃ u : State, exec (.sectorPll n) s = .next (raiseFault u (0x240 + n) 9) ∧ (u.sec n).pllLost = true ∧
      u.flt = s.flt ∧ u.chans = s.chans) ∧
    (∀ (n : Fin 16) (legN : Bool) (uv na : Int) (since : Nat),
      let d := awgDemand s n legN
      let unit : Int := 4095 * 65535
      watches (.awgOverCompliance n legN uv since) (0x250 + n) 16 (2 * n + b2n legN) 320 since (2600000 < uv ∨ uv < -1100000) ∧
      watches (.awgPll n since) (0x250 + n) 18 n 320 since True ∧ raises (.digPll n) (0x260 + n) 19 ∧
      tells (fun u => if s.setting 6 n 0x012 = 1 then raiseFault u (0x250 + n) 17 else notice0 u (0x0400 + n) 17 0)
        (.awgOpenLoad n legN uv na since) (0x250 + n) 17 (2 * n + b2n legN) 1600 since
        (2400000 ≤ uv ∧ 500000 * unit ≤ d ∧ 4 * na * unit < d)) ∧
    (∀ n : Fin 8, ((s.dcs n).locked = true → (s.dcs n).retune = none → raises (.dcsUnlock n) (0x270 + n) 24) ∧
      ((s.dcs n).retune.isSome = true → exec (.dcsUnlock n) s = .next s) ∧
      ((s.dcs n).refOk = true → raises (.dcsRefLoss n) (0x270 + n) 25)) ∧
    (∀ die : Fin 4,
      let r := Tab.get (0, 0) s.mem.replays die
      (15 ≤ r.1 → s.now ≤ r.2 + replayTicks → raises (.dieLinkReplay die) (0x248 + die) 10) ∧
      (r.1 < 15 → ∃ t : State, exec (.dieLinkReplay die) s = .next t ∧ t.flt = s.flt ∧
        Tab.get (0, 0) t.mem.replays die = (if s.now ≤ r.2 + replayTicks then r.1 + 1 else 1, s.now)))) ∧
  (∀ (s : State) (d bit : Nat), d < 0x400 →
    let t := raiseFault s d bit
    let quiet : RecStep := .quiet (s.now + s.flt.quietUs * 1600)
    let cause : BitVec 64 := BitVec.ofNat 64 (2 ^ bit)
    ((bit = 48 ∨ bit = 49) → t.flt.phase = .shutdown) ∧
    (bit ≠ 48 → bit ≠ 49 → s.stopped = true → t.flt = s.flt ∧ t.chans = s.chans ∧ t.csq = s.csq) ∧
    (bit ≠ 48 → bit ≠ 49 → (s.flt.phase = .start ∨ s.flt.phase = .selftest ∨ s.flt.phase = .recovery) →
      (domClass d = 1 → t.flt.phase = s.flt.phase ∧ d ∈ t.flt.isolated ∧ t.flt.frozen = true ∧ t.flt.recs = s.flt.recs) ∧
      (domClass d ≠ 1 → t.flt.phase = .halted ∧ t.flt.recs = [] ∧ t.flt.frozen = true ∧ t.stg.sched = [] ∧
        t.mem.st = .outOfService ∧ (s.flt.devSafe ≠ .hiZ → t.flt.devSafe = .fault))) ∧
    (bit ≠ 48 → bit ≠ 49 → s.flt.phase = .service → (∀ q ∈ s.flt.recs, domOverlap q.domain d = false) →
      t.flt.recs = s.flt.recs ++ [⟨d, domClass d, cause, 0, false, if 16 ≤ runningRecs s then .queued else quiet, s.flt.seq, false⟩] ∧
      t.flt.phase = (if domClass d = 3 then .recovery else .service) ∧ t.flt.isolated = s.flt.isolated ∧ isContained t d = true ∧
      (d < 512 → (s.chan d).st ≠ .isolated → (t.chan d).st = .hold)) ∧
    (∀ r, bit ≠ 48 → bit ≠ 49 → s.flt.phase = .service → (s.flt.recs.find? fun q => domOverlap q.domain d) = some r →
      (∀ q ∈ s.flt.recs, q.step ≠ .queued) → (d = r.domain ∨ encloses d r.domain = false) →
      ((r.merges < 3 ∨ r.escalated = true) → t.flt.recs = s.flt.recs.map (fun q => if q.domain = r.domain then
        { r with merges := min (r.merges + 1) 255, cause := (r.cause ||| cause), step := quiet } else q) ∧
        t.flt.phase = .service) ∧
      (3 ≤ r.merges → r.escalated = false → escalationTarget r.domain ≠ r.domain →
        (∃ r' ∈ t.flt.recs, r'.domain = escalationTarget r.domain ∧ r'.escalated = true ∧ r'.step = quiet ∧
          r'.openSeq = r.openSeq) ∧
        (∀ q ∈ t.flt.recs, q.domain ≠ escalationTarget r.domain → encloses (escalationTarget r.domain) q.domain = false) ∧
        t.flt.phase = (if domClass (escalationTarget r.domain) = 3 then .recovery else .service))))

/-- 18 R411 to R413, R415, R418 and R419: QUIET_PERIOD_END, RESTORATION_RESUME, RECOVERY_WAITING and RESTORED. A quiet period that
has run out begins the restoration, or WAITING under R412, told once per recovery after 1 ms; the resume says that rails and
reference are back (log entry 30). A finished restoration ends the recovery, counts it for its domain and the device, returns
class 3 to SERVICE and the channel to the MODE of the applied image; that of the device clears the contexts after a machine check.
Then a queued recovery may start, and what waited for memory goes on. A recovery keeps at most 32 records, and a frozen queue
takes none. -/
def Obligations.RecoveriesRun : Prop :=
  (∀ (s : State) (d : Fin 1024) (r : Recovery) (e : Nat), recAt s d = some r → r.step = .quiet e → e ≤ s.now →
    (mustWait s d = true → exec (.quietPeriodEnd d) s = .next (putRec s d { r with step := .waiting s.now r.told })) ∧
    (mustWait s d = false → ∃ t, exec (.quietPeriodEnd d) s = .next t ∧ Tab.get 0 t.flt.restAt d = s.now ∧
      t.flt.recs = s.flt.recs.map fun q => if q.domain = d.val then { r with step := .restoring s.now } else q)) ∧
  (∀ (s : State) (d : Fin 1024) (r : Recovery) (e : Nat), recAt s d = some r → r.step = .quiet e → s.now < e →
    exec (.quietPeriodEnd d) s = .next s) ∧
  (∀ (s : State) (d : Fin 1024) (r : Recovery) (since : Nat) (told : Bool), recAt s d = some r → r.step = .waiting since told →
    ((∀ n < 8, encloses d (domDcs n) = true → (s.dcs n).refOk = true) → ∃ t, exec (.restorationResume d) s = .next t ∧
      t.flt.recs = s.flt.recs.map (fun q => if q.domain = d.val then { r with step := .restoring s.now } else q) ∧
      t.flt.railBad = false ∧ t.flt.refStopped = false ∧ Tab.get 0 t.flt.restAt d = s.now) ∧
    (told = false → since + 1000 * 1600 < s.now →
      exec (.recoveryWaiting d) s = .next (notice (putRec s d { r with step := .waiting since true, told := true }) 0x04E7 d)) ∧
    (told = true → exec (.recoveryWaiting d) s = .next s)) ∧
  (∀ (s : State) (d : Fin 1024) (r : Recovery) (since : Nat), recAt s d = some r → r.step = .restoring since →
    restoreEnd s d since ≤ s.now → r.domain = d.val →
    ∃ t, exec (.restored d) s = .next (resumeMem (startQueued t)) ∧ t.flt.recs = (s.flt.recs.filter fun q => q.domain != d.val) ∧
      Tab.get 0 t.flt.counts d = min (Tab.get 0 s.flt.counts d + 1) 65535 ∧ t.flt.device = min (s.flt.device + 1) (2 ^ 32 - 1) ∧
      t.flt.phase = (if domClass d = 3 then .service else s.flt.phase) ∧
      (d.val = domDev → t.flt.devSafe = .safe ∧ (s.csq.checkOwed = true → t.csq.ctxs = [] ∧ t.csq.checkOwed = false)) ∧
      (d.val < 512 → (s.chan d).st ≠ .isolated → s.stopped = false → s.flt.isolated = [] →
        (∀ q ∈ s.flt.recs, q.domain ≠ d.val → encloses q.domain d = false) → (t.chan d).st = modeState (s.setting 1 d 1))) ∧
  (∀ (s : State) (src dom kind cNow cOpen merges seq : Nat) (cause : BitVec 64),
    let t := record s src dom kind cNow cOpen merges seq cause
    (s.flt.frozen = true → t = s) ∧
    (s.flt.frozen = false → s.flt.hist.length ≤ 32 → t.flt.hist.length ≤ 32 ∧ t.flt.seq = (s.flt.seq + 1) % 2 ^ 32 ∧
      (t.flt.frozen = true ↔ 6 ≤ kind) ∧
      t.flt.hist.getLast? = some ⟨s.flt.seq, src, dom, kind, cNow, cOpen, phaseCode s.flt.phase, merges, seq, cause, s.sweep.pos⟩))

/-- 18 R413, R422, R423, R425 and 10 R239: FLT_CFG and FLT_ALIVE_s take a value in range and raise 0x0486 on another; a new
character and period show from the next boundary, and a pin is frozen while its sector is in recovery; AWG_CLR_N forces every
source to CLEAR_CODE and its release restarts nothing, each with its event. -/
def Obligations.FaultPinsAct : Prop :=
  (∀ (s : State) (w : RegWrite),
    let v := (RegWrite.onto w (BitVec.ofNat 64 s.flt.quietUs)).toNat % 1024
    exec (.fltCfgWrite w) s = .next (if v < 2 ∨ 1000 < v then configRefused s (RegWrite.at' w 0x30008)
      else { s with flt.quietUs := v })) ∧
  (∀ (s : State) (n : Fin 8) (w : RegWrite),
    let v := (RegWrite.onto w (BitVec.ofNat 64 (aliveReg s n))).toNat
    let ok := bits v 2 0 ≤ 4 ∧ bits v 5 3 ≤ 4 ∧ 1 ≤ bits v 14 8 ∧ bits v 14 8 ≤ 100
    (¬ ok → exec (.fltAliveWrite n w) s = .next (configRefused s (RegWrite.at' w (0x30100 + 8 * n)))) ∧
    (ok → ∃ t, exec (.fltAliveWrite n w) s = .next t ∧ t.alive n = { s.alive n with
      char := bits v 2 0, degraded := bits v 5 3, period := bits v 14 8 } ∧ (∀ m, m ≠ n.val → t.alive m = s.alive m))) ∧
  (∀ (s : State) (n : Fin 8), s.running = true → s.stopped = false →
    let a := s.alive n
    let len := 1600000 * a.showPeriod
    (isContained s (domSec n) = true → exec (.alivePeriodBoundary n) s = .next s) ∧
    (isContained s (domSec n) = false → 0 < len → a.showFrom + len ≤ s.now →
      ∃ t, exec (.alivePeriodBoundary n) s = .next t ∧ (t.alive n).showChar = (if sectorDegraded s n then a.degraded else a.char) ∧
        (t.alive n).showPeriod = a.period ∧ (t.alive n).frozen = false ∧ (t.alive n).showFrom ≤ s.now ∧
        s.now < (t.alive n).showFrom + len)) ∧
  (∀ s : State, s.flt.awgClr = false → ∃ u : State, exec .awgClrAsserted s = .next (event u 0x04EA 0) ∧ u.flt.awgClr = true ∧
    (∀ n, n < 16 → (u.awg n).atClear = true ∧ (u.awg n).last = clearCode s n ∧ awgBusy (u.awg n) = false) ∧ u.chans = s.chans) ∧
  (∀ s : State, s.flt.awgClr = true → exec .awgClrAsserted s = .next s ∧
    exec .awgClrReleased s = .next (event { s with flt.awgClr := false } 0x04EB 0))

/-! ### Thermal supervision (19) -/

/-- 19 R428 to R432, R434, R438 and 14 R335: THERM, THM_DEMAND and the forced demands make sensors pending; a conversion starts at
once on the control die, and on a PE die in a quiet slot or 1 ms after its forced demand. A reading sets its sensor's value and
its level, with a hysteresis of 5 °C; a broken sensor, one not read within 40 µs, and a reading at SHUTDOWN put the device in
SHUTDOWN. A THERM whose last sensors a conversion started after it has read completes with the highest reading. THM_CFG and
THM_LIMIT_n take values in range and raise 0x0486 on others. -/
def Obligations.ThermalSensesOnDemand : Prop :=
  (∀ (s : State) (id c : Nat) (sl : Slot), s.Serves id c sl → sl.opc = 0x49 → sl.zero 10 64 = true →
    (sl.op 8 2 = 0 → exec (.therm id) s = .next (done s id Status.field 0)) ∧
    (sl.op 8 2 ≠ 0 → ∃ t, exec (.therm id) s = .next t ∧ parkedFor t id .ending = true ∧
      t.thm.pending = s.thm.pending ||| (sl.op 8 2 % 65536) ∧
      t.thm.therms = s.thm.therms ++ [⟨id, sl.op 8 2, -32768, false, false, s.sweep.pos⟩])) ∧
  (∀ (s : State) (w : RegWrite),
    let v := (RegWrite.onto w (BitVec.ofNat 64 s.thm.maxMs)).toNat % 128
    (s.running = true ∨ s.stopped = true → exec (.thmDemandWrite w) s =
      .next { s with thm.pending := s.thm.pending ||| ((RegWrite.onto w 0).toNat % 65536) }) ∧
    ((v < 1 ∨ 100 < v) → exec (.thmCfgWrite w) s = .next (configRefused s (RegWrite.at' w 0x40008))) ∧
    (1 ≤ v → v ≤ 100 → w.half = .high → exec (.thmCfgWrite w) s = .next s) ∧
    (1 ≤ v → v ≤ 100 → w.half ≠ .high → ∃ t, exec (.thmCfgWrite w) s = .next t ∧
      t.thm.maxMs = v ∧ t.thm.told = 0 ∧ ∀ d, d < 5 → Tab.get 0 t.thm.timer d = s.now)) ∧
  (∀ (s : State) (n : Fin 16) (w : RegWrite),
    let v := (RegWrite.onto w (BitVec.ofNat 64 (thmLimit (s.sensor n)))).toNat
    let a := bits v 7 0
    let b := bits v 15 8
    let c := bits v 23 16
    let ok := 40 ≤ a ∧ a + 5 ≤ b ∧ b + 5 ≤ c ∧ c ≤ 125
    (¬ ok → exec (.thmLimitWrite n w) s = .next (configRefused s (RegWrite.at' w (0x40200 + 8 * n)))) ∧
    (ok → exec (.thmLimitWrite n w) s =
      .next (s.updSensor n fun x => { x with warn := a, throttle := b, shutdown := c }))) ∧
  (∀ (s : State) (d : Fin 5), s.running = true → bitOf s.thm.told d = false →
    s.thm.maxMs * 1600000 ≤ s.now - Tab.get 0 s.thm.timer d → ∃ u : State,
    exec (.forcedDemand d) s = .next (notice u (0x0450 + dieSensor d) 65536) ∧ u.thm.pending = s.thm.pending ||| dieMask d ∧
    u.thm.forced = min (s.thm.forced + 1) (2 ^ 32 - 1) ∧ (Tab.get none u.thm.forcedAt d).isSome = true) ∧
  (∀ (s : State) (d : Fin 5),
    let m := s.thm.pending &&& dieMask d
    let late := ∃ t, Tab.get none s.thm.forcedAt d = some t ∧ t + 1600000 ≤ s.now
    (m ≠ 0 → runningConv s d = none → (d.val = 4 ∨ s.stopped = true ∨ quietSlot s d = true) → exec (.thermalConversionStart d) s =
      .next { s with thm.pending := s.thm.pending - m, thm.forcedAt := Tab.erase s.thm.forcedAt d,
                     thm.running := Tab.set none s.thm.running d (some ⟨m, s.now, s.sweep.pos, false, waitsOn s⟩) }) ∧
    (m ≠ 0 → runningConv s d = none → d.val ≠ 4 → s.stopped = false → quietSlot s d = false → late →
      ∃ t, exec (.thermalConversionStart d) s = .next t ∧ runningConv t d = some ⟨m, s.now, s.sweep.pos, true, waitsOn s⟩ ∧
        t.thm.pending = s.thm.pending - m) ∧
    ((m = 0 ∨ (runningConv s d).isSome = true ∨ (d.val ≠ 4 ∧ s.stopped = false ∧ quietSlot s d = false ∧ ¬ late)) →
      exec (.thermalConversionStart d) s = .next s)) ∧
  (∀ (s : State) (d : Fin 5) (c : Conversion) (rs : List Reading), runningConv s d = some c → c.startAt + 32000 ≤ s.now →
    s.now ≤ c.startAt + 64000 → (∀ n, n < 16 → bitOf c.sensors n = true → ∃ r ∈ rs, r.sensor.val = n) →
    ∃ t, exec (.thermalConversionEnd d rs) s = .next t ∧ runningConv t d = none ∧
      (∀ n r, n < 16 → bitOf c.sensors n = true → (rs.find? fun r => r.sensor.val == n) = some r →
        let bad := r.tripped = true ∨ r.code < -640 ∨ 2240 < r.code
        let v := if bad then 2400 else r.code
        t.sensor n = { s.sensor n with temp := v, valid := true, broken := decide bad, noQuiet := c.noQuiet, endAt := some s.now,
                                       level := levelOf (s.sensor n) v } ∧
        ((bad ∨ 16 * ((s.sensor n).shutdown : Int) ≤ v) → t.flt.phase = .shutdown)) ∧
      (∀ n, n < 16 → bitOf c.sensors n = false → t.sensor n = s.sensor n)) ∧
  (∀ (s : State) (c : Conversion) (r : ThermRun), s.thm.therms = [r] → c.slots.contains r.slot = true →
    r.left &&& c.sensors = r.left → r.left ≠ 0 →
    let ns := maskList 16 r.left
    let broken := r.broken || ns.any fun n => (s.sensor n).broken
    let highest := ns.foldl (fun h n => max h (s.sensor n).temp) r.highest
    finishTherms s c = complete { s with thm.therms := [] } r.slot (if broken then Status.testerFault else Status.ok)
      (fromSigned 16 highest + 65536 * b2n (r.noQuiet || c.noQuiet)) c.startPos) ∧
  (∀ (x : Sensor) (v : Int), x.warn + 5 ≤ x.throttle → x.throttle + 5 ≤ x.shutdown →
    (16 * (x.shutdown : Int) ≤ v → levelOf x v = 3) ∧ (x.level = 3 → levelOf x v = 3) ∧
    (x.level < 3 → v < 16 * (x.shutdown : Int) → 16 * (x.throttle : Int) ≤ v → levelOf x v = 2) ∧
    (x.level = 2 → v < 16 * (x.shutdown : Int) → 16 * ((x.throttle : Int) - 5) ≤ v → levelOf x v = 2) ∧
    (x.level = 2 → v < 16 * ((x.throttle : Int) - 5) → 16 * ((x.warn : Int) - 5) ≤ v → 5 ≤ x.warn → levelOf x v = 1) ∧
    (x.level < 2 → v < 16 * (x.throttle : Int) → 16 * (x.warn : Int) ≤ v → levelOf x v = 1) ∧
    (x.level < 3 → v < 16 * ((x.warn : Int) - 5) → 5 ≤ x.warn → levelOf x v = 0)) ∧
  (∀ (s : State) (d : Fin 5) (c : Conversion) (n : Nat), runningConv s d = some c → n < 16 → bitOf c.sensors n = true →
    let broken (t : State) : Prop := (t.sensor n).broken = true ∧ (t.sensor n).temp = 2400 ∧ t.flt.phase = .shutdown
    (c.startAt + 64000 ≤ s.now → ∃ t, exec (.conversionTimeout d) s = .next t ∧ broken t) ∧
    ∀ rs, c.startAt + 64000 < s.now → ∃ t, exec (.thermalConversionEnd d rs) s = .next t ∧ broken t)

/-! ### Ageing ledger, margin plan, time base (20) -/

/-- 20 R452 to R461, 14 R336 and R337: WATCH starts the checks of its groups (all together, log entry 33), unless one is under
way; a forced check starts at WATCH_MAX_INTERVAL with reason 3; voltages are checked against REF_V where WATCH asks for it. A
finished check gives each entry of a resource it reached its deviation E, its drift D and a new Δt, flags the entries of the
others SKIPPED and restarts the group's timer; the last group completes the WATCH with the entries updated. LEDGER READ writes `n`
entries at a time, PLAN_LOAD replaces the plan, PLAN_CLEAR empties it, and every evaluation sets OUT_OF_MARGIN where U_H exceeds
TOL under WARN or EXCLUDE. LED_CFG and LED_REFV take values in range. 20 R448 to R450: the time base. CLK_XTAL is taken in range
unless the device steers; a changed REF_SEL goes to ACQUIRING or CRYSTAL (log entry 35) and a write that reaches XTAL_AGE clears
its fraction (log entry 34). Once a second XTAL_AGE advances by AGE_RATE, one unit per 864,000, or takes the steering correction
while LOCKED; once a day AGE_RATE moves by an eighth of the residual (rounding: log entry 36). The correction of the crystal goes
on from where it stands and slews by at most 10 units per ms to the trim and XTAL_AGE together. REF_IN moves REF_STATE: ACQUIRING
to LOCKED after ten means of a second within ±0.05 ppb, LOCKED to HOLDOVER without an edge for 1 µs or outside ±10 ppm, HOLDOVER
to ACQUIRING inside them. -/
def Obligations.LedgerAndTimeBase : Prop :=
  ((∀ (s : State) (id c : Nat) (sl : Slot), s.Serves id c sl → sl.opc = 0x4A → sl.op 8 8 ≠ 0 → sl.op 16 1 ≤ 1 → sl.zero 17 64 = true →
    watchClaims sl (sl.op 8 8) = true → (∀ w ∈ s.cal.watches, w.1 ≠ id) →
    let m := sl.op 8 8
    ((∃ g, g < 64 ∧ bitOf m g = true ∧ (Tab.get none s.cal.checks g).isSome = true) →
      exec (.watch id) s = .next (done s id Status.consistency 0)) ∧
    ((∀ g, g < 64 → bitOf m g = true → Tab.get none s.cal.checks g = none) → ∃ t, exec (.watch id) s = .next t ∧
      t.cal.watches = s.cal.watches ++ [(id, m, 0)] ∧
      ∀ g, g < 64 → bitOf m g = true → ∃ k, Tab.get none t.cal.checks g = some k ∧ k.slot = some id ∧ k.abandoned = [] ∧
        k.endAt = s.now + checkTicks g ∧ k.refV = (sl.op 16 1 == 1 && s.cal.refV != 0) ∧ ∀ n ∈ k.eligible,
          n ∈ groupMembers g ∧ checkable s g n = true)) ∧
  (∀ (s : State) (g : Fin 64) (k : GroupCheck) (found : List (Nat × Int)), Tab.get none s.cal.checks g = some k → k.endAt ≤ s.now →
    k.eligible.Nodup →
    let live := fun n => !k.abandoned.contains n && !isContained s
      (if groupKind g = 0 then domChan n else if groupKind g = 1 then domDig n else domAwg n)
    let hit := k.eligible.filter live
    let e := fun q => toSigned 32 (fromSigned 32 (((found.find? fun p => p.1 == q).map Prod.snd).getD 0))
    (k.slot = none → ∃ t, exec (.selfCheckDone g found) s = .next t ∧ Tab.get none t.cal.checks g = none ∧
      Tab.get 0 t.cal.timers g = s.now ∧
      (∀ n ∈ hit, ∀ q ∈ groupQtys g n, (t.ledger q).e = e q ∧ (t.ledger q).checked = true ∧ (t.ledger q).skipped = false ∧
        (t.ledger q).first = false ∧ (t.ledger q).since = s.now ∧
        (ageTicks s q ≠ 0 →
          let rate := roundDiv ((e q - (s.ledger q).e) * 256 * dayTicks) (ageTicks s q)
          (t.ledger q).d = if (s.ledger q).first then rate else (s.ledger q).d + roundDiv (rate - (s.ledger q).d) 4)) ∧
      (∀ n ∈ groupMembers g, n ∉ hit → ∀ q ∈ groupQtys g n, (t.ledger q).skipped = true ∧ (t.ledger q).e = (s.ledger q).e ∧
        (t.ledger q).d = (s.ledger q).d ∧ (t.ledger q).since = (s.ledger q).since)) ∧
    (∀ id left n0, k.slot = some id → runsNow s id = true → (s.cal.watches.find? fun w => w.1 == id) = some (id, left, n0) →
      left &&& 2 ^ g.val = left → ∃ u : State, exec (.selfCheckDone g found) s =
        .next (done u id Status.ok (n0 + (hit.flatMap (groupQtys g)).length)) ∧ Tab.get none u.cal.checks g = none)) ∧
  (∀ (s : State) (g : Fin 64), s.running = true → Tab.get none s.cal.checks g = none →
    s.cal.watchMax * 60 * 1600000000 ≤ s.now - Tab.get 0 s.cal.timers g → ∃ u : State,
    exec (.forcedCheck g) s = .next (groupNotice u g 3) ∧ u.cal.forced = min (s.cal.forced + 1) (2 ^ 32 - 1) ∧
    ∃ k, Tab.get none u.cal.checks g = some k ∧ k.slot = none ∧ k.refV = false ∧ k.endAt = s.now + checkTicks g) ∧
  (∀ s : State, s.running = true → 60 * 1600000000 ≤ s.now - s.cal.minAt → ∃ t, exec .marginEvaluation s = .next t ∧
    t.cal.minAt = s.cal.minAt + 60 * 1600000000 ∧ (∀ q ∈ quantities, (t.ledger q).oom = oomNow s q) ∧
    ∀ q, (t.ledger q).e = (s.ledger q).e ∧ (t.ledger q).d = (s.ledger q).d) ∧
  (∀ (s : State) (id c : Nat) (sl : Slot), s.Serves id c sl → sl.opc = 0x4B → ledgerFieldBad sl = false →
    (∀ n : Nat, sl.op 8 1 = 0 →
      let first := sl.op 12 4
      let count := sl.op 16 4
      let p := sl.progress
      let upTo := min count (p + n)
      let bytes := (List.range (upTo - p)).flatMap fun i => ledgerEntry s (first + p + i)
      let out := if upTo = p then s else emit s (.data (sl.op 24 8 + 32 * p) bytes (slotPlace s id))
      (p = 0 → 8273 < first + count → exec (.ledgerRead id n) s = .next (done s id Status.length 0)) ∧
      (p < count → (p = 0 → first + count ≤ 8273) →
        (upTo < count → exec (.ledgerRead id n) s = .next (out.updSlot id fun x => { x with progress := upTo })) ∧
        (upTo = count → exec (.ledgerRead id n) s = .next (done out id Status.ok count)))) ∧
    (∀ data : List Byte, sl.op 8 1 = 1 → sl.op 16 4 ≤ 14 →
      let es := chunks 16 (sl.op 16 4) (hostBytes data (16 * sl.op 16 4))
      ((∀ i b, es[i]? = some b → planBad es i b = false) → ∃ u : State,
        exec (.planLoad id data) s = .next (done u id Status.ok (sl.op 16 4)) ∧ u.cal.plan = es.map planEntry ∧
        ∀ q ∈ quantities, (u.ledger q).oom = oomNow u q) ∧
      (∀ i b, es[i]? = some b → planBad es i b = true → (∀ j x, j < i → es[j]? = some x → planBad es j x = false) →
        exec (.planLoad id data) s = .next (done s id Status.field i))) ∧
    (sl.op 8 1 = 2 → ∃ u : State, exec (.planClear id) s = .next (done u id Status.ok 0) ∧ u.cal.plan = [] ∧
      ∀ q ∈ quantities, (u.ledger q).oom = false)) ∧
  (∀ (s : State) (w : RegWrite),
    let a := (RegWrite.onto w (BitVec.ofNat 64 s.cal.watchMax)).toNat % 16384
    let v := (RegWrite.onto w (BitVec.ofNat 64 (s.cal.refV + 2 ^ 32 * s.cal.refVUnc))).toNat
    ((a < 1 ∨ 10080 < a) → exec (.ledCfgWrite w) s = .next (configRefused s (RegWrite.at' w 0xF0008))) ∧
    (1 ≤ a → a ≤ 10080 → w.half = .high → exec (.ledCfgWrite w) s = .next s) ∧
    (1 ≤ a → a ≤ 10080 → w.half ≠ .high → ∃ t, exec (.ledCfgWrite w) s = .next t ∧ t.cal.watchMax = a ∧
      ∀ g, g < 64 → Tab.get 0 t.cal.timers g = s.now) ∧
    exec (.ledRefvWrite w) s = .next (if 7000000 < v % 2 ^ 32 then configRefused s (RegWrite.at' w 0xF0010)
      else { s with cal.refV := v % 2 ^ 32, cal.refVUnc := v / 2 ^ 32 }))) ∧
  (∀ s : State,
    (∀ w : RegWrite,
      let old := fromSigned 32 s.cal.xtalAge + 2 ^ 32 * fromSigned 32 s.cal.ageRate
      let v := RegWrite.onto w (BitVec.ofNat 64 old)
      let a := (v.setWidth 32).toInt
      let r := ((v >>> 32).setWidth 32).toInt
      let ok := -1000000 ≤ a ∧ a ≤ 1000000 ∧ -1000000 ≤ r ∧ r ≤ 1000000 ∧ s.cal.refSt ≠ .acquiring ∧ s.cal.refSt ≠ .locked
      (ok → exec (.clkXtalWrite w) s = .next { setXtal s a with
        cal.ageRate := r, cal.ageFrac := if w.half = .high then s.cal.ageFrac else 0 }) ∧
      (¬ ok → exec (.clkXtalWrite w) s = .next (configRefused s (RegWrite.at' w 0x50000)))) ∧
    (∀ w : RegWrite,
      let v := (RegWrite.onto w (BitVec.ofNat 64 (clkRef s))).toNat
      let unc := v / 2 ^ 32
      let sel := v % 4
      ((unc < 1 ∨ 1000000 < unc) → exec (.refSelWrite w) s = .next (configRefused s (RegWrite.at' w 0x50008))) ∧
      (1 ≤ unc → unc ≤ 1000000 → sel = s.cal.refSel → exec (.refSelWrite w) s = .next { s with cal.refUnc := unc }) ∧
      (1 ≤ unc → unc ≤ 1000000 → sel ≠ s.cal.refSel → exec (.refSelWrite w) s = .next { s with
        cal.refSel := sel, cal.refUnc := unc, cal.refSt := if sel = 0 then .crystal else .acquiring, cal.acqAt := s.now })) ∧
    (∀ steer : Int, s.running = true → 1600000000 ≤ s.now - s.cal.secAt →
      ∃ t, exec (.xtalAgeUpdate steer) s = .next t ∧ t.cal.secAt = s.cal.secAt + 1600000000 ∧
        t.cal.corrFrom = corrNow s ∧ t.cal.corrAt = s.now ∧
        (s.cal.refSt = .locked → t.cal.xtalAge = max (-1000000) (min 1000000 steer) ∧ t.cal.lockedAt = s.now) ∧
        (s.cal.refSt ≠ .locked → t.cal.xtalAge = max (-1000000) (min 1000000
            (s.cal.xtalAge + (s.cal.ageFrac + s.cal.ageRate) / 864000)) ∧
          t.cal.ageFrac = (s.cal.ageFrac + s.cal.ageRate) % 864000)) ∧
    (let gone : Int := (10 * (s.now - s.cal.corrAt) / 1600000 : Nat)
     (∀ a, (setXtal s a).cal.xtalAge = a ∧ corrNow (setXtal s a) = corrNow s) ∧ (corrNow s - s.cal.corrFrom).natAbs ≤ gone ∧
     ((corrTarget s - s.cal.corrFrom).natAbs ≤ gone → corrNow s = corrTarget s)) ∧
    (s.cal.refSt = .locked → 86400 * 1600000000 ≤ s.now - s.cal.dayAt →
      let r := 10 * (s.cal.xtalAge - s.cal.dayAge)
      ∃ t, exec .ageRateUpdate s = .next t ∧ t.cal.residSum = s.cal.residSum + (r - s.cal.ageRate).natAbs ∧
        t.cal.residDays = s.cal.residDays + 1 ∧ t.cal.dayAge = s.cal.xtalAge ∧
        t.cal.ageRate = clampAge (s.cal.ageRate + roundDiv (r - s.cal.ageRate) 8)) ∧
    (∀ means : List Int, s.cal.refSt = .acquiring → s.cal.acqAt + 10 * 1600000000 ≤ s.now → means.length = 10 →
      ((∀ m ∈ means, -50 ≤ m ∧ m ≤ 50) → ∃ t, exec (.refInLocked means) s = .next t ∧ t.cal.refSt = .locked ∧
        t.cal.dayAge = s.cal.xtalAge ∧ t.cal.dayAt = s.now) ∧
      ((∃ m ∈ means, m < -50 ∨ 50 < m) → exec (.refInLocked means) s = .next s)) ∧
    (∀ (edge : Nat) (ppb : Int),
      let lost := edge + 1600 ≤ s.now ∨ ppb < -10000 ∨ 10000 < ppb
      (s.cal.refSt = .locked → lost → ∃ t, exec (.refInLoss edge ppb) s = .next t ∧ t.cal.refSt = .holdover ∧
        t.cal.xtalAge = s.cal.xtalAge) ∧
      (s.cal.refSt ≠ .locked ∨ ¬ lost → exec (.refInLoss edge ppb) s = .next s) ∧
      (s.cal.refSt = .holdover → -10000 ≤ ppb → ppb ≤ 10000 →
        exec (.refInAccepted ppb) s = .next { s with cal.refSt := .acquiring, cal.acqAt := s.now })))

/-- 20 R444 to R447 and 14 R339: CAL_USER. LOAD_FLASH takes the AUX port for its read, or parks behind its user. A good image
replaces `k` entries of the same quantity and SUB at a time, sets E to 0 and restarts Δt, and completes with its number; a bad one
is FIELD with the entry's index, one whose number disagrees with LENGTH or overfills the overlay LENGTH, and nothing is written.
CAPTURE on fresh readings in the junction range writes an entry for every quantity of the claimed resources, `k` at a time, those
that the command gives as it gives them. STORE_FLASH takes the port, or parks behind its user, and sends the overlay as it was
admitted by transfers that erase each sector and program each page, polling the status until the flash has finished; behind the
last it completes with the entries. A page not finished in 10 ms ends it TESTER_FAULT with the bytes written. CLEAR removes the
entries of the claimed resources, `k` at a time. 22 R474 to R479 and 14 R338: AUX_XFER starts a transfer of LEN bits at TSCK on an
idle port, and parks behind another; LEN 0 is LENGTH; one that writes non-volatile storage runs only in the junction range. While
bit i shifts, AUX_SELV_N is low, AUX_SEL carries SEL, AUX_SDO bit 7 − (i mod 8) of byte i div 8, and AUX_SCK is low for the first
half of the bit and high for the second. Half a period behind the last bit the bits received are written to RX_ADDR and the
transfer completes OK with LEN. AUX_CFG takes SEL_SETUP from 20 ns. -/
def Obligations.FlashAndAuxPort : Prop :=
  ((∀ (s : State) (id c : Nat) (sl : Slot) (data : List Byte) (k : Nat), s.Serves id c sl → sl.opc = 0x58 → dmaHeld s id sl = false →
    (sl.op 8 1 = 0 ∨ (sl.op 8 1 = 1 ∧ s.aux.flash = some id ∧ s.aux.busy = none)) → (sl.op 8 1 = 0 → calFieldBad sl = false) →
    let load := if sl.op 8 1 = 0 then Instr.loadHost id data k else Instr.loadFlash id data k
    let ends := fun (u : State) (status detail : Nat) =>
      if sl.op 8 1 = 0 then done u id status detail else flashLeave (done u id status detail) id
    let p := sl.progress
    let img := if sl.tested = true ∨ sl.op 8 1 = 1 then sl.held else hostBytes data (sl.op 12 4)
    let n := field img 4 4
    let os := imageEntries img
    let upTo := min os.length (p + k)
    let now := (os.take upTo).drop p
    let fits := sl.op 12 4 = 16 + 16 * n ∧ n ≤ 16384 ∧ (os.foldl placeOverlay s.cal.overlay).length ≤ 16384
    let wrote := fun u : State => u.cal.overlay = now.foldl placeOverlay s.cal.overlay ∧
      ∀ o ∈ now, (u.ledger o.qty).e = 0 ∧ (u.ledger o.qty).first = true ∧ (u.ledger o.qty).since = s.now ∧
        (u.ledger o.qty).d = (s.ledger o.qty).d
    (∀ i, sl.tested = false → imageBad img = some i → exec load s = .next (ends s Status.field i)) ∧
    (sl.tested = false → imageBad img = none → ¬ fits → exec load s = .next (ends s Status.length 0)) ∧
    ((sl.tested = false → imageBad img = none ∧ fits ∧ (∀ o ∈ os, claimsQty sl o.qty = true ∧ qtyWatched s o.qty = false ∧
        qtyTaken s id o.qty = false ∧ inRecovery s (qtyDomain o.qty) = false) ∧ (sl.op 8 1 = 1 → sl.coversBit 6 = true)) →
      (upTo < os.length → ∃ t, exec load s = .next t ∧ wrote t ∧
        t.slot id = some { sl with held := img, tested := true, progress := upTo }) ∧
      (upTo = os.length → ∃ u : State, exec load s = .next (ends u Status.ok os.length) ∧ wrote u))) ∧
  (∀ (s : State) (id c : Nat) (sl : Slot) (data : List Byte) (k : Nat), s.Serves id c sl → sl.opc = 0x58 → dmaHeld s id sl = false →
    sl.op 8 1 = 1 →
    (s.aux.flash = some id → s.aux.busy.isSome = true → exec (.loadFlash id data k) s = .next s) ∧
    (s.aux.flash ≠ some id → calFieldBad sl = false →
      (flashPast sl = true → exec (.loadFlash id data k) s = .next (done s id Status.length 0)) ∧
      (flashPast sl = false → auxFree s = false → exec (.loadFlash id data k) s = .next (park s id .aux)) ∧
      (flashPast sl = false → auxFree s = true → ∃ t, exec (.loadFlash id data k) s = .next t ∧
        t = { s with csq := t.csq, aux := t.aux } ∧ t.slot id = some { sl with held := hostBytes data (sl.op 12 4) } ∧
        t.aux.flash = some id ∧ t.aux.tx = 0x03 :: flashAddr (sl.op 16 8) ∧
        t.aux.busy = some ⟨id, auxStart s, 64, 8 * (4 + sl.op 12 4), 0, [], sl.op 9 1, false, tickCeil s.aux.selSetup⟩))) ∧
  (∀ (s : State) (id c : Nat) (sl : Slot) (es : List Byte) (k : Nat), s.Serves id c sl → sl.opc = 0x58 → sl.op 8 1 = 2 →
    let ps := capturedBy sl
    let p := sl.progress
    let upTo := min ps.length (p + k)
    let now := (ps.take upTo).drop p
    let given := (chunks 16 (es.length / 16) es).map readOverlay
    let blank := ps.map fun p => (⟨p.1, p.2, 0, 0, 0⟩ : Overlay)
    let fits := 16 + 16 * ps.length ≤ sl.op 12 4 ∧ (blank.foldl placeOverlay s.cal.overlay).length ≤ 16384
    let fresh := sl.fresh = true ∨ staleSensors s = 0
    let wrote := fun u : State => ∀ q ∈ now, (∃ o ∈ u.cal.overlay, o.qty = q.1 ∧ o.sub = q.2) ∧
      ∀ o, (given.find? fun o => o.qty == q.1 && o.sub == q.2) = some o → o ∈ u.cal.overlay
    (sl.tested = false → calFieldBad sl = false → ¬ fits → exec (.capture id es k) s = .next (done s id Status.length 0)) ∧
    (sl.tested = false → calFieldBad sl = false → fits → fresh → junctionOk s = false → ∃ u : State,
      exec (.capture id es k) s = .next (done u id Status.tempRange 0) ∧ u.cal = s.cal) ∧
    ((sl.tested = false → calFieldBad sl = false ∧ fits ∧ fresh ∧ junctionOk s = true ∧ s.cal.refV ≠ 0 ∧ ∀ q ∈ ps,
        eligibleQty s q.1 = true ∧ qtyWatched s q.1 = false ∧ qtyTaken s id q.1 = false ∧ inRecovery s (qtyDomain q.1) = false) →
      (upTo < ps.length → ∃ t, exec (.capture id es k) s = .next t ∧ wrote t ∧
        ∃ y, t.slot id = some y ∧ y.progress = upTo ∧ y.tested = true) ∧
      (upTo = ps.length → ∃ u : State, exec (.capture id es k) s = .next (done u id Status.ok ps.length) ∧ wrote u))) ∧
  (∀ (s : State) (id c : Nat) (sl : Slot), s.Serves id c sl → sl.opc = 0x58 → sl.op 8 1 = 3 →
    let img := if sl.tested = true then sl.held else overlayImage s
    let fresh := sl.fresh = true ∨ staleSensors s = 0
    let asked := calFieldBad sl = false ∧ sl.op 12 4 = 16 + 16 * s.cal.overlay.length ∧ flashPast sl = false ∧ sl.coversBit 6 = true ∧
      ∀ o ∈ s.cal.overlay, claimsQty sl o.qty = true
    let admitted := asked ∧ fresh ∧ junctionOk s = true ∧ ∀ o ∈ s.cal.overlay, qtyWatched s o.qty = false ∧
      qtyTaken s id o.qty = false ∧ inRecovery s (qtyDomain o.qty) = false
    (s.aux.flash ≠ some id → sl.tested = false → asked → fresh → junctionOk s = false → ∃ u : State,
      exec (.storeFlash id) s = .next (done u id Status.tempRange 0) ∧ u.cal = s.cal ∧ u.aux = s.aux) ∧
    (s.aux.flash ≠ some id → (sl.tested = false → admitted) → ∃ t, exec (.storeFlash id) s = .next t ∧
      t = { s with csq := t.csq, aux := t.aux } ∧
      (auxFree s = false → t.aux = s.aux ∧ parkedFor t id .aux = true) ∧
      (auxFree s = true → flashStore (sl.op 16 8) img ≠ [] → t.aux.flash = some id ∧ t.aux.script = flashStore (sl.op 16 8) img ∧
        t.aux.tx = [0x06] ∧ t.aux.busy = some ⟨id, auxStart s, 64, 8, 0, [], sl.op 9 1, false, tickCeil s.aux.selSetup⟩)) ∧
    (s.aux.flash = some id → exec (.storeFlash id) s =
      .next (if (s.aux.script.head?.bind FlashStep.poll).isSome = true ∧ pageLate s = false then { s with aux.ready := true } else s)) ∧
    exec (.flashPageTimeout id) s = .next (if s.aux.flash = some id ∧ pageLate s = true then
      done (leaveItems s id sl sl.progress) id Status.testerFault (16 * sl.progress) else s)) ∧
  (∀ (s : State) (id : Nat) (y : Slot) (r : AuxRun) (x : FlashStep) (rest : List FlashStep), s.aux.busy = some r →
    s.aux.flash = some id → r.slot = id → s.slot id = some y → s.aux.script = x :: rest →
    r.start + r.len * r.period + r.period / 2 ≤ s.now →
    let t := auxTick s
    let m := y.progress + x.poll.getD 0
    let again := x.poll.isSome = true ∧ s.aux.ready = false
    (again → t.aux.script = s.aux.script ∧ t.aux.tx = x.bytes ∧ t.slot id = some y ∧ t.aux.busy.isSome = true) ∧
    (∀ z more, ¬ again → rest = z :: more → t.aux.script = rest ∧ t.aux.tx = z.bytes ∧ t.aux.busy.isSome = true ∧
      t.slot id = some { y with progress := m } ∧ t.aux.pageAt = if x.page then some s.now else none) ∧
    (¬ again → rest = [] → x.poll.isSome = true → ∃ u : State, t = done u id Status.ok (m - 1) ∧ u.aux.flash = none ∧ u.cal = s.cal)) ∧
  (∀ (s : State) (id c : Nat) (sl : Slot) (k : Nat), s.Serves id c sl → sl.opc = 0x58 → sl.op 8 1 = 4 →
    let p := sl.progress
    let left := clearedBy s sl
    let wrote := fun u : State => u.cal.overlay = s.cal.overlay.filter fun o => !(left.take k).contains o
    (sl.tested = false → calFieldBad sl = false ∧ ∀ o ∈ left, qtyWatched s o.qty = false ∧ qtyTaken s id o.qty = false ∧
      inRecovery s (qtyDomain o.qty) = false) →
    (k < left.length → ∃ t, exec (.clear id k) s = .next t ∧ wrote t ∧ t.slot id = some { sl with tested := true, progress := p + k }) ∧
    (left.length ≤ k → ∃ u : State, exec (.clear id k) s = .next (done u id Status.ok (p + left.length)) ∧ wrote u))) ∧
  ((∀ (s : State) (id c : Nat) (sl : Slot) (tx rx : List Byte), s.Serves id c sl → sl.opc = 0x50 → sl.op 8 1 ≤ 15 →
    (sl.op 9 1 = 0 ∨ sl.op 9 1 = 3) → sl.op 10 1 ≤ 1 → sl.op 11 1 ≠ 0 → sl.zero 14 16 = true → sl.zero 32 64 = true →
    sl.op 16 8 % 8 = 0 → sl.op 24 8 % 8 = 0 → sl.coversBit 6 = true →
    let fresh := sl.fresh = true ∨ staleSensors s = 0
    let may := sl.op 10 1 = 0 ∨ sl.tested = true ∨ (fresh ∧ junctionOk s = true)
    (sl.op 12 2 = 0 → exec (.auxXfer id tx rx) s = .next (done s id Status.length 0)) ∧
    (sl.op 12 2 ≠ 0 → may → auxFree s = false → ∃ t, exec (.auxXfer id tx rx) s = .next t ∧ t = { s with csq := t.csq } ∧
      parkedFor t id .aux = true) ∧
    (sl.op 12 2 ≠ 0 → may → auxFree s = true → ∃ t, exec (.auxXfer id tx rx) s = .next t ∧
      t = { s with csq := t.csq, aux := t.aux } ∧ parkedFor t id .ending = true ∧
      t.aux.busy = some ⟨id, auxStart s, 32 * sl.op 11 1, sl.op 12 2, sl.op 24 8, rx, sl.op 8 1, sl.op 9 1 == 3,
        tickCeil s.aux.selSetup⟩ ∧ t.aux.tx = hostBytes tx ((sl.op 12 2 + 7) / 8) ∧ t.aux.bits = 0) ∧
    (sl.op 12 2 ≠ 0 → sl.op 10 1 = 1 → sl.tested = false → fresh → junctionOk s = false →
      ∃ u : State, exec (.auxXfer id tx rx) s = .next (done u id Status.tempRange 0) ∧ u.aux = s.aux)) ∧
  (∀ (s : State) (r : AuxRun), s.aux.busy = some r →
    (∀ i j, i < r.len → j < r.period →
      let t := r.start + i * r.period + j
      inTail s t = false → auxSelvN s t = false ∧ auxSel s t = r.sel ∧ auxSck s t = decide (r.period / 2 ≤ j) ∧
      auxSdo s t = bitOf (s.aux.tx.getD (i / 8) 0).toNat (7 - i % 8)) ∧
    (∀ t, t < r.start → inTail s t = false → auxSelvN s t = true ∧ auxSck s t = s.aux.sck) ∧
    (r.start + r.len * r.period + r.period / 2 ≤ s.now → s.aux.flash ≠ some r.slot → r.rxAddr ≠ 0 → r.len ≠ 0 → ∃ u : State,
      auxTick s = done (emit u (.data r.rxAddr (rxBytes r.len r.rx) (slotPlace s r.slot))) r.slot Status.ok r.len ∧
      u = { s with aux := u.aux } ∧ u.aux.busy = none ∧ u.aux.transfers = incSat 32 s.aux.transfers ∧ u.aux.bits = r.len)) ∧
  (∀ (s : State) (w : RegWrite),
    let v := (RegWrite.onto w (BitVec.ofNat 64 (auxCfg s))).toNat
    exec (.auxCfgWrite w) s = .next (if bits v 15 8 < 20 then configRefused s (RegWrite.at' w 0xB0008)
      else { s with aux.sampleDly := v % 8, aux.selSetup := bits v 15 8 })))

/-! ### Memory upkeep, serial port, test port (21, 22, 25) -/

/-- 22 R480 to R487: the MNT port. A frame 400 ns or more behind the one before, clocked at 25 MHz or less through STATUS, at a
page that is ready, returns STATUS, which reports the bits of the frame before, and sets new ones for the next: none after NOP,
PAGE_END after a READ past its page, ABORTED (and CRC_BAD) after a WRITE that is incomplete, fails its CRC or leaves its page,
which changes nothing; BAD_CMD after an unknown code or a bad address. A good WRITE acts as writes of BAR0, both halves of a
64-bit register at once; a READ returns a 64-bit register untorn. A frame that READY 0 answers changes nothing and sets no bit;
while the pins are high-impedance the port does not answer. -/
def Obligations.MntFramesRun : Prop :=
  (∀ (s : State) (f : MntFrame), pinsDriven s = false → exec (.mntNop f) s = .next s ∧ exec (.mntRead f) s = .next s ∧
    exec (.mntWrite f) s = .next s) ∧
  (∀ (s : State) (f : MntFrame), pinsDriven s = true → (f.gap < 640 ∨ f.sckPs < 40000 ∨ pageStale s f.addr.toNat = true) → ∃ t : State,
    { t with mnt := s.mnt } = s ∧ t.mnt.aborted = false ∧ t.mnt.crcBad = false ∧ t.mnt.pageEnd = false ∧ t.mnt.badCmd = false ∧
    t.mnt.cntNotReady = min (s.mnt.cntNotReady + 1) 65535 ∧ t.mnt.sent = [] ∧ (40 ≤ f.clocks → t.mnt.status.getLsbD 0 = false) ∧
    (f.cmd = 0x0B → exec (.mntRead f) s = .next t) ∧ (f.cmd = 0x02 → exec (.mntWrite f) s = .next t) ∧
    (f.cmd ≠ 0x0B → f.cmd ≠ 0x02 → exec (.mntNop f) s = .next t)) ∧
  (∀ (s : State) (f : MntFrame), pinsDriven s = true → 640 ≤ f.gap → 40000 ≤ f.sckPs →
    pageStale s f.addr.toNat = false → 40 ≤ f.clocks →
    ∃ t : State, (f.cmd = 0x0B → exec (.mntRead f) s = .next t) ∧ (f.cmd = 0x02 → exec (.mntWrite f) s = .next t) ∧
      (f.cmd ≠ 0x0B → f.cmd ≠ 0x02 → exec (.mntNop f) s = .next t) ∧
      t.mnt.status.getLsbD 0 = true ∧ t.mnt.status.getLsbD 1 = s.mnt.aborted ∧ t.mnt.status.getLsbD 2 = s.mnt.crcBad ∧
      t.mnt.status.getLsbD 3 = s.mnt.pageEnd ∧ t.mnt.status.getLsbD 4 = s.mnt.badCmd ∧
      t.mnt.status.getLsbD 5 = safeNow s ∧ t.mnt.status.getLsbD 6 = false ∧ t.mnt.status.getLsbD 7 = true) ∧
  (∀ (s : State) (f : MntFrame), pinsDriven s = true → 640 ≤ f.gap → 40000 ≤ f.sckPs →
    pageStale s f.addr.toNat = false →
    let bad := (f.cmd ≠ 0 ∧ f.cmd ≠ 0x02 ∧ f.cmd ≠ 0x0B) ∨ f.addr.toNat % 4 ≠ 0 ∨ (f.cmd = 0 ∧ f.addr ≠ 0)
    (f.clocks < 40 ∨ bad) → ∃ t : State, { t with mnt := s.mnt } = s ∧ t.mnt.aborted = decide (f.clocks < 40) ∧
      t.mnt.badCmd = decide (32 ≤ f.clocks ∧ bad) ∧ t.mnt.crcBad = false ∧ t.mnt.pageEnd = false ∧ (∀ w ∈ t.mnt.sent, w = 0) ∧
      (f.cmd = 0x0B → exec (.mntRead f) s = .next t) ∧ (f.cmd = 0x02 → exec (.mntWrite f) s = .next t) ∧
      (f.cmd ≠ 0x0B → f.cmd ≠ 0x02 → exec (.mntNop f) s = .next t)) ∧
  (∀ (s : State) (f : MntFrame), pinsDriven s = true → 640 ≤ f.gap → 40000 ≤ f.sckPs →
    pageStale s f.addr.toNat = false → f.addr.toNat % 4 = 0 →
    40 ≤ f.clocks →
    let a := f.addr.toNat
    let stop := a / 4096 * 4096 + 4096
    let n := f.words.length
    let good := f.words ≠ [] ∧ f.clocks = 48 + 32 * n ∧ mntCrc f = f.crc.toNat ∧ a + 4 * n ≤ stop
    let u := { s with mnt.writes := (s.mnt.writes + 1) % 2 ^ 32 }
    (f.cmd = 0 → f.addr = 0 → ∃ t : State, exec (.mntNop f) s = .next t ∧ { t with mnt := s.mnt } = s ∧ t.mnt.aborted = false ∧
      t.mnt.crcBad = false ∧ t.mnt.pageEnd = false ∧ t.mnt.badCmd = false ∧ ∀ w ∈ t.mnt.sent, w = 0) ∧
    (f.cmd = 0x0B → ∃ t : State, exec (.mntRead f) s = .next t ∧ t.mnt.reads = (s.mnt.reads + 1) % 2 ^ 32 ∧
      t.mnt.aborted = false ∧ (t.mnt.pageEnd = true ↔ stop < a + 4 * mntWords f) ∧ t.mnt.sent.length = mntWords f ∧
      (∀ i, i < mntWords f → stop ≤ a + 4 * i → t.mnt.sent[i]? = some 0) ∧
      (∀ v, 1 ≤ mntWords f → a % 8 = 0 → regRead s .mnt a = some v → t.mnt.sent[0]? = some (BitVec.ofNat 32 v)) ∧
      (∀ v, 2 ≤ mntWords f → a % 8 = 0 → isWide a = true → regRead s .mnt a = some v →
        t.mnt.sent[1]? = some (BitVec.ofNat 32 (v / 2 ^ 32)))) ∧
    (f.cmd = 0x02 → ¬ good → ∃ t : State, exec (.mntWrite f) s = .next t ∧ { t with mnt := s.mnt } = s ∧ t.mnt.aborted = true ∧
      t.mnt.writes = s.mnt.writes ∧ t.mnt.pageEnd = decide (stop < a + 4 * n) ∧
      t.mnt.crcBad = decide (f.words ≠ [] ∧ f.clocks = 48 + 32 * n ∧ mntCrc f ≠ f.crc.toNat)) ∧
    (∀ v, f.cmd = 0x02 → good → f.words = [v] → ∃ t : State, exec (.mntWrite f) s = .next t ∧ t.mnt.aborted = false ∧
      { t with mnt := {} } = { bar0Write u .mnt a 4 v.toNat with mnt := {} }) ∧
    (∀ v v' w, f.cmd = 0x02 → good → f.words = [v, v'] → a % 8 = 0 →
      regWrite u ⟨.mnt, .full, v' ++ v⟩ a = some w → ∃ t : State, exec (.mntWrite f) s = .next t ∧
      t.mnt.aborted = false ∧ { t with mnt := {} } = { w with mnt := {} }))

/-- 25 R522 to R524: the test access port. EXTEST, CLAMP, HIGHZ, EXTEST_PULSE and EXTEST_TRAIN, becoming current, act as a hot reset
with the phase kept, and the link goes down; already current, they reset nothing. IDCODE, SAMPLE/PRELOAD, BYPASS and
TEST_LOGIC_RESET drive no pin and leave everything but the port; IDCODE captures the identification. The sample of EXTEST and
SAMPLE/PRELOAD is free (log entry 41). -/
def Obligations.TestPortActs : Prop :=
  (∀ (s : State) (p : Instr × Byte × Nat), p ∈ [(Instr.extest, 0x00, 2), (.clamp, 0x04, 0), (.highz, 0x05, 0), (.extestPulse, 0x06, 2),
      (.extestTrain, 0x07, 2)] → ∃ t, exec p.1 s = .next t ∧ t.tap.driving = true ∧ t.tap.ir = p.2.1 ∧ t.tap.selected = p.2.2 ∧
    (s.tap.ir = p.2.1 → { t with tap := s.tap, free := s.free } = s) ∧
    (s.tap.ir ≠ p.2.1 → t.host.up = false ∧ t.pwr.lastReset = 2 ∧ t.pwr.atTraining = true ∧ t.csq.slots = [] ∧ t.streams = [] ∧
      t.pwr.hostResets = min (s.pwr.hostResets + 1) (2 ^ 32 - 1) ∧ t.mem.cells = s.mem.cells)) ∧
  (∀ (s : State) (p : Instr × Byte × Nat), p ∈ [(Instr.idcode, 0x01, 1), (.samplePreload, 0x02, 2), (.bypass 0xFF, 0xFF, 0),
      (.testLogicReset, 0x01, 1)] → ∃ t, exec p.1 s = .next t ∧ t.tap.driving = false ∧ t.tap.ir = p.2.1 ∧ t.tap.selected = p.2.2 ∧
    { t with tap := s.tap, free := s.free } = s ∧
    (p.2.2 = 1 → bits t.tap.captured.toNat 31 28 = Config.stepping.toNat % 16 ∧ bits t.tap.captured.toNat 27 12 = 0x5120 ∧
      bits t.tap.captured.toNat 11 1 = 0x2D7 ∧ t.tap.captured.getLsbD 0 = true)) ∧
  (∀ (s : State) (code : Byte), code ∉ [0x00, 0x01, 0x02, 0x04, 0x05, 0x06, 0x07] → ∃ t, exec (.bypass code) s = .next t ∧
    t.tap.driving = false ∧ t.tap.ir = code ∧ t.tap.selected = 0 ∧ { t with tap := s.tap } = s)

/-! ### Power-up, host resets, the link (23, 13) -/

/-- 23 R490 to R495, 18 R424, 20 R439, 21 R462 and R463: power-up. POWER_UP_RESET, PWR_OK low for 1 µs, loses every state of the
device and samples the straps (what stands outside the device stays); RAIL_INVALID below a rail's threshold, and the time before
the 1 ms point, leave the pins high-impedance; at the 1 ms point DEV_SAFE_P/N reads (0,1) and the comparator bits follow their
pins. FACTORY_CALIBRATION_LOADED gives each record of a channel or a die the first of its copies whose CRC passes, gives one
without any the nominal values and marks its quantities FACTORY_BAD, and starts SELFTEST (the records of the dies: log entry 11).
SELFTEST_DONE enters SERVICE with tick number 0, the synthesizers locked and gated and DEV_SAFE_P/N at (1,0), and DDR5 in service
at the trained rate, or out of service where training failed. While a rail is not valid the timeline waits. 02 R28 and R31: at
entry to SERVICE the strap chooses the sweep source. TIME runs at once; GROUP on a worker and ANGLE wait without synchronisation
at rate 0; GROUP on a keeper and the reserved code take TIME. The parameters of ANGLE are those of the image, whose SOURCE is the
one taken. -/
def Obligations.StrapsAndPowerUp : Prop :=
  ((∀ (s : State) (low : Nat) (straps : Straps), (low < 1600 → exec (.powerUpReset low straps) s = .next s) ∧
    (1600 ≤ low → ∃ t, exec (.powerUpReset low straps) s = .next t ∧ t.flt.phase = .start ∧ t.pwr.straps = straps ∧
    t.pwr.service = none ∧ devSafePins t = .hiZ ∧ t.csq = State.reset.csq ∧ t.chans = State.reset.chans ∧
      t.sectors = State.reset.sectors ∧
    t.stg = State.reset.stg ∧ t.mem = State.reset.mem ∧ t.cal = State.reset.cal ∧ t.engs = State.reset.engs ∧
    t.grp.keeper = straps.keeper ∧ t.sweep.st = .running ∧ t.pwr.lastReset = 0 ∧ t.pwr.hostResets = 0 ∧ t.host.up = false ∧
      t.pending = s.pending)) ∧
  (∀ (s : State) (rail : Fin 11) (uv : Int),
    let least : List Int := [675000, 765000, 765000, 990000, 765000, 1080000, 900000, 2970000, 8400000, 0, 1620000]
    let bad := if rail.val = 9 then -3600000 < uv else uv < least.getD rail.val 0
    (bad → ∃ t, exec (.railInvalid rail uv) s = .next t ∧ rail.val ∈ t.pwr.badRails ∧ devSafePins t = .hiZ ∧
      pinsDriven t = false ∧ { t with pwr.badRails := s.pwr.badRails } = s) ∧
    (¬ bad → exec (.railInvalid rail uv) s =
      .next { s with pwr.badRails := s.pwr.badRails.filter (· != rail.val) })) ∧
  (∀ (s : State) (pins : List (Nat × Int)),
    (s.pwr.badRails = [] → s.pwr.pinsSafe = false → ∃ t, exec (.powerUp1msPoint pins) s = .next t ∧ devSafePins t = .fault ∧
      t.aux.driven = true ∧ { t with chans := s.chans, pwr := s.pwr, flt.devSafe := s.flt.devSafe, aux.driven := s.aux.driven } = s ∧
      ∀ n, n < 512 →
        let uv := ((pins.find? fun p => p.1 == n).map Prod.snd).getD 0
        (t.chan n).st = (s.chan n).st ∧ (t.chan n).voh = bitWithout s n true uv ∧ (t.chan n).vol = bitWithout s n false uv) ∧
    ((s.pwr.badRails ≠ [] ∨ s.pwr.pinsSafe = true) → exec (.powerUp1msPoint pins) s = .next s)) ∧
  (∀ (s : State) (otp : List (Nat × List Byte × List Byte)), s.flt.phase = .start → s.pwr.badRails = [] → (otp.map (·.1)).Nodup →
    ∃ t, exec (.factoryCalibrationLoaded otp) s = .next t ∧ t.flt.phase = .selftest ∧
      (∀ r ∈ otp, r.1 ≤ 516 → ∀ i < 255,
        let q := recordBase r.1 + 4 * i
        (∀ d, (d = r.2.1 ∧ copyOk r.2.1 = true ∨ d = r.2.2 ∧ copyOk r.2.1 = false ∧ copyOk r.2.2 = true) →
          Tab.get (factoryNominal q) t.cal.factory q = fieldS d (4 * i) 4) ∧
        (copyOk r.2.1 = false → copyOk r.2.2 = false → Tab.get (factoryNominal q) t.cal.factory q = factoryNominal q)) ∧
      (∀ q, q ∈ t.cal.badRecords ↔ q ∈ s.cal.badRecords ∨
        ∃ r ∈ otp, r.1 ≤ 516 ∧ copyOk r.2.1 = false ∧ copyOk r.2.2 = false ∧ q ∈ recordOf (recordQty r.1)) ∧
      (∀ q, (∀ r ∈ otp, r.1 ≤ 516 → ∀ i < 255, q ≠ recordBase r.1 + 4 * i) →
        Tab.get (factoryNominal q) t.cal.factory q = Tab.get (factoryNominal q) s.cal.factory q)) ∧
  (∀ (s : State) (t : Training), s.flt.phase = .selftest → s.pwr.badRails = [] → s.pwr.pinsSafe = true → s.flt.devSafe = .fault →
    ∃ u : State, exec (.selftestDone t) s = .next u ∧ u.flt.phase = .service ∧ u.pwr.service = some s.now ∧ u.tick = 0 ∧
    u.tickFrac = 0 ∧ u.flt.devSafe = .safe ∧
    (∀ n, n < 8 → (u.dcs n).unlocks = 0 ∧
      (isContained s (domDcs n) = false → (u.dcs n).st = .gated ∧ (u.dcs n).locked = true ∧ (u.dcs n).refOk = true)) ∧
    u.pwr.ready = (s.host.up && !s.pwr.perst && s.pwr.atTraining) ∧
    (t.rate ≠ 0 → t.failed = 0 → t.density ≠ 3 → s.mem.maxRate ≤ 2 → u.mem.st = .inService ∧
      u.mem.rate = min t.rate.toNat (3 - s.mem.maxRate) ∧
      u.mem.capacity = 16 * (if t.ranks2 then 2 else 1) * (t.density.toNat + 2)) ∧
    ((t.rate = 0 ∨ t.failed ≠ 0 ∨ t.density = 3) → u.mem.st = .outOfService ∧ u.mem.capacity = 0)) ∧
  (∀ (s : State) (otp : List (Nat × List Byte × List Byte)), (s.flt.phase ≠ .start ∨ s.pwr.badRails ≠ []) →
    exec (.factoryCalibrationLoaded otp) s = .next s)) ∧
  (∀ (s : State) (t : Training), s.flt.phase = .selftest → s.pwr.badRails = [] → ∃ u : State, exec (.selftestDone t) s = .next u ∧
    let group := s.pwr.straps.sweepSrc = 1 ∧ s.pwr.straps.keeper = false
    let angle := s.pwr.straps.sweepSrc = 2
    u.sweep = { (if group then { source := .group, st := .noSync, rate := 0, takeNext := true }
      else if angle then { source := .angle, st := .noSync, rate := 0 } else {} : Sweep) with
      ang := anglePars u, jumpAt := s.now * 65536 } ∧
    u.setting 10 0 1 = if group then 1 else if angle then 2 else 0)

/-- 23 R496 to R500: a host reset (PERST_N, hot reset, FLR). Every descriptor and every burst ends without a completion, every
channel but an isolated one is in HOLD, every sector IDLE unless its fault holds it, every source at CLEAR_CODE, every acquisition
and engine run ends, every stream closes and every ring is disabled; the phase, tick, sweep position, DDR5 contents, overlay,
ledger, plan and the applied sweep and regions stay, every other setting is at its reset value, LAST_RESET and HOST_RESETS follow,
and READY reads 0 until READY_AFTER_HOST_RESET or, after PERST_N, training. PERST_N also empties the patch RAM, takes the link
down, and its release samples SIZE of HIF_BAR4_CFG. -/
def Obligations.HostResetsAct : Prop :=
  (∀ (s : State) (p : Instr × Nat), p ∈ [(Instr.perstAssert, 1), (.hotReset, 2), (.functionLevelReset, 3)] →
    (p.2 = 1 → s.pwr.perst = false) → (p.2 ≠ 1 → s.host.up = true) → ∃ t, exec p.1 s = .next t ∧
    t.csq.slots = [] ∧ t.csq.ctxs = [] ∧ t.streams = [] ∧ t.host.sq = [] ∧ t.host.cq = [] ∧ t.host.eq = [] ∧ t.host.str = [] ∧
    t.host.route = [] ∧ (∀ n, n < 512 → (s.chan n).st ≠ .isolated → (t.chan n).st = .hold ∧ (t.chan n).latch = false ∧
      (t.chan n).armed = false ∧ (t.chan n).site = none) ∧
    t.bursts = [] ∧ t.stg.sched = [] ∧ t.pmu = [] ∧ t.grp.op = none ∧
    (∀ n, n < 8 → (t.sec n).dir = [] ∧ (t.sec n).capQueue = [] ∧ (t.sec n).wgs = [] ∧ (t.sec n).periods = [] ∧
      (isContained s (domSec n) = false → (t.sec n).st = .idle ∧ (t.sec n).own = none)) ∧
    (∀ n, n < 16 → (t.awg n).dir = [] ∧ (t.awg n).table = [] ∧ (t.awg n).atClear = true ∧ (t.awg n).last = clearCode t n ∧
      awgBusy (t.awg n) = false ∧ (t.dig n).acq = .idle) ∧
    (∀ e, e < 16 → (t.eng e).st ≠ .running ∧ (t.eng e).code = (s.eng e).code ∧ (t.eng e).u = (s.eng e).u ∧
      (t.eng e).v = (s.eng e).v ∧ (t.eng e).limits = (s.eng e).limits) ∧
    t.flt.phase = s.flt.phase ∧ t.tick = s.tick ∧ t.sweep = s.sweep ∧ t.mem.cells = s.mem.cells ∧ t.cal.overlay = s.cal.overlay ∧
    t.cal.ledger = s.cal.ledger ∧ t.cal.plan = s.cal.plan ∧
    t.stg.image = s.stg.image.filter (fun p => tCls p.1 == 0x0A || tCls p.1 == 0x0B) ∧
    t.pwr.lastReset = p.2 ∧ t.pwr.hostResets = min (s.pwr.hostResets + 1) (2 ^ 32 - 1) ∧ t.pwr.ready = false ∧
    (p.2 = 1 → t.host.up = false ∧ t.pwr.perst = true ∧ t.csq.active = {} ∧ t.csq.patch = .none) ∧
    (p.2 ≠ 1 → t.host.up = true ∧ t.csq.active = s.csq.active)) ∧
  (∀ s : State, s.pwr.perst = true → exec .perstAssert s = .next s ∧
    exec .perstRelease s = .next { s with pwr.perst := false, host.bar4Size := s.host.bar4Next }) ∧
  (∀ s : State, s.host.up = false → exec .hotReset s = .next s ∧ exec .functionLevelReset s = .next s) ∧
  (∀ s : State, s.pwr.atTraining = false → s.host.up = true → s.pwr.perst = false → s.running = true →
    exec .readyAfterHostReset s = .next { s with pwr.ready := true })

/-- 13 R286, R291, R308, 23 R495 and 25 R524: LINK_UP sets the rate, width and FLIT mode of a training that a link can have; in
SERVICE the device becomes ready where readiness follows training; the waiting writes go out in order, then it raises 0x0481,
0x0487 below 64 GT/s x8, and 0x0482 for correctable errors (log entry 70). LINK_DOWN takes them to 0 and raises 0x0480; in D3hot
writes wait, and RETURN_TO_D0 issues them, a message whose vector is masked by then set pending. While PERST_N is asserted or the
test port drives pins the link stays down. -/
def Obligations.LinkFollowsCommands : Prop :=
  (∀ (s : State) (rate width : BitVec 4) (flit : Bool) (aer : Word),
    let ok := 1 ≤ rate.toNat ∧ rate.toNat ≤ 6 ∧ (width = 1 ∨ width = 2 ∨ width = 4 ∨ width = 8)
    let data := rate.toNat + 16 * width.toNat
    ((s.pwr.perst = true ∨ s.tap.driving = true ∨ ¬ ok) → exec (.linkUp rate width flit aer) s = .next s) ∧
    (s.pwr.perst = false → s.tap.driving = false → ok → s.pwr.pinsSafe = true →
      let u := { s with host.up := true, host.rate := rate.toNat, host.width := width.toNat, host.flit := flit || rate.toNat == 6,
                        host.aer := aer, pwr.ready := s.pwr.ready || (s.running && s.pwr.atTraining) }
      let v := event (flushHost u) 0x0481 data
      let w := if rate = 6 ∧ width = 8 then v else notice v 0x0487 data
      exec (.linkUp rate width flit aer) s = .next (if aer = 0 then w else notice w 0x0482 aer.toNat))) ∧
  (∀ s : State, s.host.up = true →
    exec .linkDown s = .next (notice { s with host.up := false, host.rate := 0, host.width := 0, host.flit := false } 0x0480 0) ∧
    exec .enterD3hot s = .next { s with host.d3 := true }) ∧
  (∀ s : State, s.host.up = false → exec .linkDown s = .next s ∧ exec .enterD3hot s = .next s) ∧
  (∀ s : State, exec .returnToD0 s = .next (flushHost { s with host.d3 := false })) ∧
  (∀ s : State, s.host.up = true → s.host.d3 = false →
    ((∀ m ∈ s.host.waiting, ∀ v a d, m ≠ .msi v a d) →
      flushHost s = { s with host.out := s.host.out ++ s.host.waiting, host.waiting := [] }) ∧
    (∀ v a d rest, s.host.waiting = .msi v a d :: rest → Tab.get false s.host.msixUnmasked v = false →
      flushHost s = flushHost { s with host.waiting := rest, host.msixPending := Tab.set false s.host.msixPending v true })) ∧
  (∀ (s : State) (m : HMsg), (s.host.up = false ∨ s.host.d3 = true) → (emit s m).host.out = s.host.out ∧
    (emit s m).host.waiting = s.host.waiting ++ [m])

/-- 14 R341, 17 R398 to R401 and R403: patches. PATCH_LOAD of a good image writes the inactive bank and parks; a wrong size, a wrong
MAGIC or signature, another ROM_ID or a load that waits already refuse it in that order with event 0x04C2 and load nothing.
PATCH_ACTIVATION, with no context inside a replaced range or the patch RAM, swaps the banks, raises 0x04C1 and completes OK; 100 ms
after the load PATCH_ACTIVATION_TIMEOUT discards the bank with CONSISTENCY. -/
def Obligations.PatchesActivate : Prop :=
  (∀ (s : State) (id c : Nat) (sl : Slot) (data : List Byte), s.Serves id c sl → sl.opc = 0x68 → sl.zero 8 12 = true →
    sl.zero 24 64 = true → sl.op 12 4 ≠ 0 → sl.op 12 4 % 16 = 0 → sl.op 12 4 ≤ 65536 → sl.op 16 8 % 64 = 0 →
    let d := data.take (sl.op 12 4)
    let wc := field d 16 2
    let sized := sl.op 12 4 = field d 4 4 ∧ field d 4 4 = 528 + 16 * wc ∧ 1 ≤ wc ∧ wc ≤ 1024
    let signed := field d 0 4 = 0x50435350 ∧ zeroBytes d (432 + 16 * wc) (480 + 16 * wc) = false ∧
      zeroBytes d (480 + 16 * wc) (528 + 16 * wc) = false ∧ patchSigned d wc = true
    let fits := field d 8 4 = Config.romId.toNat ∧ s.csq.active.level ≤ field d 12 4 ∧ s.csq.awaiting = none
    (¬ sized → exec (.patchLoad id data) s = .next (done (notice s 0x04C2 Status.length) id Status.length 0)) ∧
    (sized → ¬ signed → exec (.patchLoad id data) s = .next (done (notice s 0x04C2 Status.signature) id Status.signature 0)) ∧
    (∀ i, sized → signed → patchBadField d wc = some i →
      exec (.patchLoad id data) s = .next (done (notice s 0x04C2 Status.field) id Status.field i)) ∧
    (sized → signed → patchBadField d wc = none → ¬ fits →
      exec (.patchLoad id data) s = .next (done (notice s 0x04C2 Status.consistency) id Status.consistency 0)) ∧
    (sized → signed → patchBadField d wc = none → fits → ∃ t, exec (.patchLoad id data) s = .next t ∧
      parkedFor t id .ending = true ∧ t.csq.awaiting = some (id, s.now) ∧ t.csq.patch = .loaded ∧ t.csq.active = s.csq.active ∧
      t.csq.inactive.level = field d 12 4 ∧ t.csq.inactive.words.length = wc ∧
      t.csq.inactive.matchSet.length = field d 18 1)) ∧
  (∀ (s : State) (id at' : Nat), s.csq.awaiting = some (id, at') →
    (patchClear s = true → s.now < at' + 160000000 → ∃ u : State, exec .patchActivation s =
      .next (done (event u 0x04C1 s.csq.inactive.level) id Status.ok s.csq.inactive.words.length) ∧
      u = { s with csq.active := s.csq.inactive, csq.inactive := s.csq.active, csq.patch := .active, csq.awaiting := none }) ∧
    ((patchClear s = false ∨ at' + 160000000 ≤ s.now) → exec .patchActivation s = .next s) ∧
    (s.now < at' + 160000000 → exec .patchActivationTimeout s = .next s) ∧
    (at' + 160000000 ≤ s.now → ∃ u : State, exec .patchActivationTimeout s = .next (done u id Status.consistency 0) ∧
      u.csq.inactive = {} ∧ u.csq.awaiting = none ∧ u.csq.active = s.csq.active)) ∧
  (∀ s : State, s.csq.awaiting = none → exec .patchActivation s = .next s ∧ exec .patchActivationTimeout s = .next s)

/-! ### The whole block -/

/-- DDR5 contents stay in canonical form (addresses strictly rising, no byte listed at its unwritten value), whatever command or
tick runs: equal memories stay equal data (21; the form is the model's own, log entry 4). -/
def Obligations.StepKeepsMemoryCanonical : Prop :=
  ∀ s t : State, s.memOk → step s = .next t → t.memOk

/-- 12 R257: an engine's register files keep their sizes, whatever command or tick runs. -/
def Obligations.StepKeepsEngineFiles : Prop :=
  ∀ s t : State, (∀ e, (s.eng e).Shaped) → step s = .next t → ∀ e, (t.eng e).Shaped

/-- 18 R408, R410 and R434: HALTED and SHUTDOWN are left by a power cycle only. From a stopped device without recoveries, any
command but POWER_UP_RESET, and a tick, leaves it stopped without recoveries, and in SHUTDOWN where it was. -/
def Obligations.StoppedPhasesAreLatched : Prop :=
  ∀ s t : State, s.stopped = true → s.flt.recs = [] → (∀ low straps rest, s.pending ≠ .powerUpReset low straps :: rest) →
    step s = .next t →
    t.stopped = true ∧ t.flt.recs = [] ∧ (s.flt.phase = .shutdown → t.flt.phase = .shutdown)

/-- Every command ends in a next state, in every state, and none adds to the commands that wait or takes from them: the host alone
sends commands (the queue is the model's own, log entry 2). -/
def Obligations.CommandsKeepTheQueue : Prop :=
  ∀ (c : Instr) (s : State), ∃ t, exec c s = .next t ∧ t.pending = s.pending

/-- 23 R490 to R494: what reset leaves: phase START, no descriptor, no ring enabled, the pins high-impedance, every channel in HOLD,
nothing staged or applied, and what the invariants ask. (The queue and the value of unwritten bytes are the model's choices: log
entries 2 and 4.) -/
def Obligations.ResetState : Prop :=
  let s := State.reset
  s.pending = [] ∧ s.memOk ∧ (∀ e, (s.eng e).Shaped) ∧ s.flt.phase = .start ∧ s.pwr.service = none ∧ s.csq.slots = [] ∧
    devSafePins s = .hiZ ∧ s.host.up = false ∧ (∀ k n, (s.ring k n).enable = false) ∧ (∀ n, (s.chan n).st = .hold) ∧
    (∀ n, (s.sec n).st = .idle) ∧ (∀ n, (s.awg n).st = .idle) ∧ (∀ e, (s.eng e).st = .idle) ∧ (∀ a, Memory.read s.mem.cells a = 0) ∧
    s.stg.image = [] ∧ s.cal.overlay = [] ∧ s.tap.ir = 0x01 ∧ s.tap.driving = false
end

