-- ==== Sys2Proof/Laws/Bytes.lean ====
section
/-! SUPPORT. Little-endian bytes read back, and the CRC-32 of the calibration images stays in 32 bits. -/

namespace Sys2Proof.Laws
open Sys2Proof Sys2Proof.Machine

theorem leNat_leBytes (k n : Nat) : leNat (leBytes k n) = n % 256 ^ k := by
  induction k generalizing n with
  | zero => simp [leBytes, leNat, Nat.mod_one]
  | succ k ih =>
    have h : n % 256 ^ (k + 1) = n % 256 + 256 * (n / 256 % 256 ^ k) := by
      rw [Nat.pow_succ, Nat.mul_comm, Nat.mod_mul]
    simp [leBytes, leNat, ih, h]

theorem length_leBytes (k n : Nat) : (leBytes k n).length = k := by fun_induction leBytes k n <;> grind

theorem crc32Bits_lt (n c : Nat) (h : c < 2 ^ 32) : crc32Bits n c < 2 ^ 32 := by
  fun_induction crc32Bits n c with
  | case1 => exact h
  | case2 c n ih =>
    apply ih
    split
    · omega
    · exact Nat.xor_lt_two_pow (by omega) (by decide)

theorem revBits_lt (n m : Nat) : revBits n m < 2 ^ n := by
  fun_induction revBits n m with
  | case1 => decide
  | case2 n m ih =>
    have hb : b2n (bitOf m 0) ≤ 1 := by cases bitOf m 0 <;> decide
    grind [Nat.mul_le_mul_right (2 ^ n) hb]

theorem crc32_lt (bs : List Byte) : crc32 bs < 2 ^ 32 := by
  unfold crc32
  generalize Config.crc32Reflect = r
  have hf : ∀ b : Byte, (if r then revBits 8 b.toNat else b.toNat) * 2 ^ 24 < 2 ^ 32 := by
    intro b
    have : (if r then revBits 8 b.toNat else b.toNat) < 256 := by
      split
      · exact revBits_lt 8 _
      · exact b.isLt
    omega
  have hg : ∀ (c : Nat) (b : Byte), c < 2 ^ 32 →
      crc32Bits 8 (c ^^^ ((if r then revBits 8 b.toNat else b.toNat) * 2 ^ 24)) < 2 ^ 32 :=
    fun c b h => crc32Bits_lt _ _ (Nat.xor_lt_two_pow h (hf b))
  have hi : Config.crc32Init.toNat < 2 ^ 32 := Config.crc32Init.isLt
  generalize Config.crc32Init.toNat = i at hi ⊢
  have hx : Config.crc32Final.toNat < 2 ^ 32 := Config.crc32Final.isLt
  generalize Config.crc32Final.toNat = x at hx ⊢
  have := List.foldlRecOn bs _ (motive := fun c => c < 2 ^ 32) hi fun c hc b _ => hg c b hc
  refine Nat.xor_lt_two_pow ?_ hx
  generalize bs.foldl _ i = c at this ⊢
  split
  · exact revBits_lt 32 _
  · exact this
end Sys2Proof.Laws
end

