-- ==== Sys2Proof/Laws/Tables.lean ====
section
/-! SUPPORT. Sparse tables: a read after a write, and that a write keeps the canonical form. Each proof follows the recursion of the
operation that it is about. -/

namespace Sys2Proof

/-- What an erased table reads as. -/
theorem Tab.get_erase {α : Type} (d : α) (t : Tab α) (k j : Nat) :
    Tab.get d (Tab.erase t k) j = if j = k then d else Tab.get d t j := by
  fun_induction Tab.erase t k <;> grind [Tab.get]

/-- What a table with an entry listed reads as. -/
theorem Tab.get_insert {α : Type} (d : α) (t : Tab α) (k j : Nat) (v : α) :
    Tab.get d (Tab.insert t k v) j = if j = k then v else Tab.get d t j := by
  fun_induction Tab.insert t k v <;> grind [Tab.get]

/-- Reading any key after a write. -/
theorem Tab.get_set {α : Type} [DecidableEq α] (d : α) (t : Tab α) (k j : Nat) (v : α) :
    Tab.get d (Tab.set d t k v) j = if j = k then v else Tab.get d t j := by
  grind [Tab.set, Tab.get_erase, Tab.get_insert]

/-- A read after a write at the same key gives what was written. -/
@[simp] theorem Tab.get_set_same {α : Type} [DecidableEq α] (d : α) (t : Tab α) (k : Nat) (v : α) :
    Tab.get d (Tab.set d t k v) k = v := (Tab.get_set d t k k v).trans (if_pos rfl)

/-- A write leaves every other key alone. -/
theorem Tab.get_set_other {α : Type} [DecidableEq α] (d : α) (t : Tab α) {k j : Nat} (v : α) (h : j ≠ k) :
    Tab.get d (Tab.set d t k v) j = Tab.get d t j := (Tab.get_set d t k j v).trans (if_neg h)

/-- The canonical form as an order and a condition on each entry. -/
theorem Tab.wf_iff {α : Type} [DecidableEq α] (d : α) (t : Tab α) :
    Tab.wf d t = true ↔ t.Pairwise (fun a b => a.1 < b.1) ∧ ∀ p ∈ t, p.2 ≠ d := by
  fun_induction Tab.wf d t <;> simp_all [List.pairwise_cons, -Prod.forall] <;> grind

/-- An erased table lists no other entries. -/
theorem Tab.erase_sublist {α : Type} (t : Tab α) (k : Nat) : (Tab.erase t k).Sublist t := by
  fun_induction Tab.erase t k <;> grind

/-- A table with an entry listed lists that one besides its own. -/
theorem Tab.mem_insert {α : Type} (t : Tab α) (k : Nat) (v : α) (x : Nat × α) (h : x ∈ Tab.insert t k v) :
    x = (k, v) ∨ x ∈ t := by
  fun_induction Tab.insert t k v <;> grind

/-- Listing an entry keeps the order of the keys. -/
theorem Tab.insert_sorted {α : Type} (t : Tab α) (k : Nat) (v : α) (h : t.Pairwise (fun a b => a.1 < b.1)) :
    (Tab.insert t k v).Pairwise (fun a b => a.1 < b.1) := by
  fun_induction Tab.insert t k v <;> grind [→ Tab.mem_insert, List.pairwise_cons]

/-- A write keeps the canonical form. -/
theorem Tab.wf_set {α : Type} [DecidableEq α] (d : α) (t : Tab α) (k : Nat) (v : α) (h : Tab.wf d t = true) :
    Tab.wf d (Tab.set d t k v) = true := by
  rw [Tab.wf_iff] at h ⊢
  unfold Tab.set
  split
  · exact ⟨h.1.sublist (Tab.erase_sublist t k), fun p hp => h.2 p ((Tab.erase_sublist t k).subset hp)⟩
  · exact ⟨Tab.insert_sorted t k v h.1, fun p hp => by grind [→ Tab.mem_insert]⟩

end Sys2Proof
end

