-- ==== Sys2Proof/Laws/State.lean ====
section
/-! SUPPORT. What each named update of the state leaves: the unit it writes, the other units, every other field. -/

namespace Sys2Proof.Machine

open Sys2Proof

/-! ### updChan -/

@[simp] theorem updChan_same (s : State) (n : Nat) (f : Chan → Chan) : (s.updChan n f).chan n = f (s.chan n) :=
  Tab.get_set_same _ _ _ _

theorem updChan_other (s : State) {n m : Nat} (f : Chan → Chan) (h : m ≠ n) : (s.updChan n f).chan m = s.chan m :=
  Tab.get_set_other _ _ _ h

@[simp] theorem updChan_pending (s : State) (n : Nat) (f : Chan → Chan) : (s.updChan n f).pending = s.pending := rfl
@[simp] theorem updChan_now (s : State) (n : Nat) (f : Chan → Chan) : (s.updChan n f).now = s.now := rfl
@[simp] theorem updChan_free (s : State) (n : Nat) (f : Chan → Chan) : (s.updChan n f).free = s.free := rfl
@[simp] theorem updChan_tick (s : State) (n : Nat) (f : Chan → Chan) : (s.updChan n f).tick = s.tick := rfl
@[simp] theorem updChan_tickFrac (s : State) (n : Nat) (f : Chan → Chan) : (s.updChan n f).tickFrac = s.tickFrac := rfl
@[simp] theorem updChan_pwr (s : State) (n : Nat) (f : Chan → Chan) : (s.updChan n f).pwr = s.pwr := rfl
@[simp] theorem updChan_sweep (s : State) (n : Nat) (f : Chan → Chan) : (s.updChan n f).sweep = s.sweep := rfl
@[simp] theorem updChan_csq (s : State) (n : Nat) (f : Chan → Chan) : (s.updChan n f).csq = s.csq := rfl
@[simp] theorem updChan_host (s : State) (n : Nat) (f : Chan → Chan) : (s.updChan n f).host = s.host := rfl
@[simp] theorem updChan_stg (s : State) (n : Nat) (f : Chan → Chan) : (s.updChan n f).stg = s.stg := rfl
@[simp] theorem updChan_lgs (s : State) (n : Nat) (f : Chan → Chan) : (s.updChan n f).lgs = s.lgs := rfl
@[simp] theorem updChan_pmu (s : State) (n : Nat) (f : Chan → Chan) : (s.updChan n f).pmu = s.pmu := rfl
@[simp] theorem updChan_sectors (s : State) (n : Nat) (f : Chan → Chan) : (s.updChan n f).sectors = s.sectors := rfl
@[simp] theorem updChan_sites (s : State) (n : Nat) (f : Chan → Chan) : (s.updChan n f).sites = s.sites := rfl
@[simp] theorem updChan_bursts (s : State) (n : Nat) (f : Chan → Chan) : (s.updChan n f).bursts = s.bursts := rfl
@[simp] theorem updChan_drainAt (s : State) (n : Nat) (f : Chan → Chan) : (s.updChan n f).drainAt = s.drainAt := rfl
@[simp] theorem updChan_streams (s : State) (n : Nat) (f : Chan → Chan) : (s.updChan n f).streams = s.streams := rfl
@[simp] theorem updChan_mergeAt (s : State) (n : Nat) (f : Chan → Chan) : (s.updChan n f).mergeAt = s.mergeAt := rfl
@[simp] theorem updChan_mergeNext (s : State) (n : Nat) (f : Chan → Chan) : (s.updChan n f).mergeNext = s.mergeNext := rfl
@[simp] theorem updChan_digs (s : State) (n : Nat) (f : Chan → Chan) : (s.updChan n f).digs = s.digs := rfl
@[simp] theorem updChan_tus (s : State) (n : Nat) (f : Chan → Chan) : (s.updChan n f).tus = s.tus := rfl
@[simp] theorem updChan_tb (s : State) (n : Nat) (f : Chan → Chan) : (s.updChan n f).tb = s.tb := rfl
@[simp] theorem updChan_awgs (s : State) (n : Nat) (f : Chan → Chan) : (s.updChan n f).awgs = s.awgs := rfl
@[simp] theorem updChan_dcss (s : State) (n : Nat) (f : Chan → Chan) : (s.updChan n f).dcss = s.dcss := rfl
@[simp] theorem updChan_engs (s : State) (n : Nat) (f : Chan → Chan) : (s.updChan n f).engs = s.engs := rfl
@[simp] theorem updChan_mem (s : State) (n : Nat) (f : Chan → Chan) : (s.updChan n f).mem = s.mem := rfl
@[simp] theorem updChan_flt (s : State) (n : Nat) (f : Chan → Chan) : (s.updChan n f).flt = s.flt := rfl
@[simp] theorem updChan_thm (s : State) (n : Nat) (f : Chan → Chan) : (s.updChan n f).thm = s.thm := rfl
@[simp] theorem updChan_cal (s : State) (n : Nat) (f : Chan → Chan) : (s.updChan n f).cal = s.cal := rfl
@[simp] theorem updChan_grp (s : State) (n : Nat) (f : Chan → Chan) : (s.updChan n f).grp = s.grp := rfl
@[simp] theorem updChan_aux (s : State) (n : Nat) (f : Chan → Chan) : (s.updChan n f).aux = s.aux := rfl
@[simp] theorem updChan_mnt (s : State) (n : Nat) (f : Chan → Chan) : (s.updChan n f).mnt = s.mnt := rfl
@[simp] theorem updChan_tap (s : State) (n : Nat) (f : Chan → Chan) : (s.updChan n f).tap = s.tap := rfl

/-! ### updLg -/

@[simp] theorem updLg_same (s : State) (n : Nat) (f : LaneGroup → LaneGroup) : (s.updLg n f).lg n = f (s.lg n) :=
  Tab.get_set_same _ _ _ _

theorem updLg_other (s : State) {n m : Nat} (f : LaneGroup → LaneGroup) (h : m ≠ n) : (s.updLg n f).lg m = s.lg m :=
  Tab.get_set_other _ _ _ h

@[simp] theorem updLg_pending (s : State) (n : Nat) (f : LaneGroup → LaneGroup) : (s.updLg n f).pending = s.pending := rfl
@[simp] theorem updLg_now (s : State) (n : Nat) (f : LaneGroup → LaneGroup) : (s.updLg n f).now = s.now := rfl
@[simp] theorem updLg_free (s : State) (n : Nat) (f : LaneGroup → LaneGroup) : (s.updLg n f).free = s.free := rfl
@[simp] theorem updLg_tick (s : State) (n : Nat) (f : LaneGroup → LaneGroup) : (s.updLg n f).tick = s.tick := rfl
@[simp] theorem updLg_tickFrac (s : State) (n : Nat) (f : LaneGroup → LaneGroup) : (s.updLg n f).tickFrac = s.tickFrac := rfl
@[simp] theorem updLg_pwr (s : State) (n : Nat) (f : LaneGroup → LaneGroup) : (s.updLg n f).pwr = s.pwr := rfl
@[simp] theorem updLg_sweep (s : State) (n : Nat) (f : LaneGroup → LaneGroup) : (s.updLg n f).sweep = s.sweep := rfl
@[simp] theorem updLg_csq (s : State) (n : Nat) (f : LaneGroup → LaneGroup) : (s.updLg n f).csq = s.csq := rfl
@[simp] theorem updLg_host (s : State) (n : Nat) (f : LaneGroup → LaneGroup) : (s.updLg n f).host = s.host := rfl
@[simp] theorem updLg_stg (s : State) (n : Nat) (f : LaneGroup → LaneGroup) : (s.updLg n f).stg = s.stg := rfl
@[simp] theorem updLg_chans (s : State) (n : Nat) (f : LaneGroup → LaneGroup) : (s.updLg n f).chans = s.chans := rfl
@[simp] theorem updLg_pmu (s : State) (n : Nat) (f : LaneGroup → LaneGroup) : (s.updLg n f).pmu = s.pmu := rfl
@[simp] theorem updLg_sectors (s : State) (n : Nat) (f : LaneGroup → LaneGroup) : (s.updLg n f).sectors = s.sectors := rfl
@[simp] theorem updLg_sites (s : State) (n : Nat) (f : LaneGroup → LaneGroup) : (s.updLg n f).sites = s.sites := rfl
@[simp] theorem updLg_bursts (s : State) (n : Nat) (f : LaneGroup → LaneGroup) : (s.updLg n f).bursts = s.bursts := rfl
@[simp] theorem updLg_drainAt (s : State) (n : Nat) (f : LaneGroup → LaneGroup) : (s.updLg n f).drainAt = s.drainAt := rfl
@[simp] theorem updLg_streams (s : State) (n : Nat) (f : LaneGroup → LaneGroup) : (s.updLg n f).streams = s.streams := rfl
@[simp] theorem updLg_mergeAt (s : State) (n : Nat) (f : LaneGroup → LaneGroup) : (s.updLg n f).mergeAt = s.mergeAt := rfl
@[simp] theorem updLg_mergeNext (s : State) (n : Nat) (f : LaneGroup → LaneGroup) : (s.updLg n f).mergeNext = s.mergeNext := rfl
@[simp] theorem updLg_digs (s : State) (n : Nat) (f : LaneGroup → LaneGroup) : (s.updLg n f).digs = s.digs := rfl
@[simp] theorem updLg_tus (s : State) (n : Nat) (f : LaneGroup → LaneGroup) : (s.updLg n f).tus = s.tus := rfl
@[simp] theorem updLg_tb (s : State) (n : Nat) (f : LaneGroup → LaneGroup) : (s.updLg n f).tb = s.tb := rfl
@[simp] theorem updLg_awgs (s : State) (n : Nat) (f : LaneGroup → LaneGroup) : (s.updLg n f).awgs = s.awgs := rfl
@[simp] theorem updLg_dcss (s : State) (n : Nat) (f : LaneGroup → LaneGroup) : (s.updLg n f).dcss = s.dcss := rfl
@[simp] theorem updLg_engs (s : State) (n : Nat) (f : LaneGroup → LaneGroup) : (s.updLg n f).engs = s.engs := rfl
@[simp] theorem updLg_mem (s : State) (n : Nat) (f : LaneGroup → LaneGroup) : (s.updLg n f).mem = s.mem := rfl
@[simp] theorem updLg_flt (s : State) (n : Nat) (f : LaneGroup → LaneGroup) : (s.updLg n f).flt = s.flt := rfl
@[simp] theorem updLg_thm (s : State) (n : Nat) (f : LaneGroup → LaneGroup) : (s.updLg n f).thm = s.thm := rfl
@[simp] theorem updLg_cal (s : State) (n : Nat) (f : LaneGroup → LaneGroup) : (s.updLg n f).cal = s.cal := rfl
@[simp] theorem updLg_grp (s : State) (n : Nat) (f : LaneGroup → LaneGroup) : (s.updLg n f).grp = s.grp := rfl
@[simp] theorem updLg_aux (s : State) (n : Nat) (f : LaneGroup → LaneGroup) : (s.updLg n f).aux = s.aux := rfl
@[simp] theorem updLg_mnt (s : State) (n : Nat) (f : LaneGroup → LaneGroup) : (s.updLg n f).mnt = s.mnt := rfl
@[simp] theorem updLg_tap (s : State) (n : Nat) (f : LaneGroup → LaneGroup) : (s.updLg n f).tap = s.tap := rfl

/-! ### updSec -/

@[simp] theorem updSec_same (s : State) (n : Nat) (f : Sector → Sector) : (s.updSec n f).sec n = f (s.sec n) :=
  Tab.get_set_same _ _ _ _

theorem updSec_other (s : State) {n m : Nat} (f : Sector → Sector) (h : m ≠ n) : (s.updSec n f).sec m = s.sec m :=
  Tab.get_set_other _ _ _ h

@[simp] theorem updSec_pending (s : State) (n : Nat) (f : Sector → Sector) : (s.updSec n f).pending = s.pending := rfl
@[simp] theorem updSec_now (s : State) (n : Nat) (f : Sector → Sector) : (s.updSec n f).now = s.now := rfl
@[simp] theorem updSec_free (s : State) (n : Nat) (f : Sector → Sector) : (s.updSec n f).free = s.free := rfl
@[simp] theorem updSec_tick (s : State) (n : Nat) (f : Sector → Sector) : (s.updSec n f).tick = s.tick := rfl
@[simp] theorem updSec_tickFrac (s : State) (n : Nat) (f : Sector → Sector) : (s.updSec n f).tickFrac = s.tickFrac := rfl
@[simp] theorem updSec_pwr (s : State) (n : Nat) (f : Sector → Sector) : (s.updSec n f).pwr = s.pwr := rfl
@[simp] theorem updSec_sweep (s : State) (n : Nat) (f : Sector → Sector) : (s.updSec n f).sweep = s.sweep := rfl
@[simp] theorem updSec_csq (s : State) (n : Nat) (f : Sector → Sector) : (s.updSec n f).csq = s.csq := rfl
@[simp] theorem updSec_host (s : State) (n : Nat) (f : Sector → Sector) : (s.updSec n f).host = s.host := rfl
@[simp] theorem updSec_stg (s : State) (n : Nat) (f : Sector → Sector) : (s.updSec n f).stg = s.stg := rfl
@[simp] theorem updSec_chans (s : State) (n : Nat) (f : Sector → Sector) : (s.updSec n f).chans = s.chans := rfl
@[simp] theorem updSec_lgs (s : State) (n : Nat) (f : Sector → Sector) : (s.updSec n f).lgs = s.lgs := rfl
@[simp] theorem updSec_pmu (s : State) (n : Nat) (f : Sector → Sector) : (s.updSec n f).pmu = s.pmu := rfl
@[simp] theorem updSec_sites (s : State) (n : Nat) (f : Sector → Sector) : (s.updSec n f).sites = s.sites := rfl
@[simp] theorem updSec_bursts (s : State) (n : Nat) (f : Sector → Sector) : (s.updSec n f).bursts = s.bursts := rfl
@[simp] theorem updSec_drainAt (s : State) (n : Nat) (f : Sector → Sector) : (s.updSec n f).drainAt = s.drainAt := rfl
@[simp] theorem updSec_streams (s : State) (n : Nat) (f : Sector → Sector) : (s.updSec n f).streams = s.streams := rfl
@[simp] theorem updSec_mergeAt (s : State) (n : Nat) (f : Sector → Sector) : (s.updSec n f).mergeAt = s.mergeAt := rfl
@[simp] theorem updSec_mergeNext (s : State) (n : Nat) (f : Sector → Sector) : (s.updSec n f).mergeNext = s.mergeNext := rfl
@[simp] theorem updSec_digs (s : State) (n : Nat) (f : Sector → Sector) : (s.updSec n f).digs = s.digs := rfl
@[simp] theorem updSec_tus (s : State) (n : Nat) (f : Sector → Sector) : (s.updSec n f).tus = s.tus := rfl
@[simp] theorem updSec_tb (s : State) (n : Nat) (f : Sector → Sector) : (s.updSec n f).tb = s.tb := rfl
@[simp] theorem updSec_awgs (s : State) (n : Nat) (f : Sector → Sector) : (s.updSec n f).awgs = s.awgs := rfl
@[simp] theorem updSec_dcss (s : State) (n : Nat) (f : Sector → Sector) : (s.updSec n f).dcss = s.dcss := rfl
@[simp] theorem updSec_engs (s : State) (n : Nat) (f : Sector → Sector) : (s.updSec n f).engs = s.engs := rfl
@[simp] theorem updSec_mem (s : State) (n : Nat) (f : Sector → Sector) : (s.updSec n f).mem = s.mem := rfl
@[simp] theorem updSec_flt (s : State) (n : Nat) (f : Sector → Sector) : (s.updSec n f).flt = s.flt := rfl
@[simp] theorem updSec_thm (s : State) (n : Nat) (f : Sector → Sector) : (s.updSec n f).thm = s.thm := rfl
@[simp] theorem updSec_cal (s : State) (n : Nat) (f : Sector → Sector) : (s.updSec n f).cal = s.cal := rfl
@[simp] theorem updSec_grp (s : State) (n : Nat) (f : Sector → Sector) : (s.updSec n f).grp = s.grp := rfl
@[simp] theorem updSec_aux (s : State) (n : Nat) (f : Sector → Sector) : (s.updSec n f).aux = s.aux := rfl
@[simp] theorem updSec_mnt (s : State) (n : Nat) (f : Sector → Sector) : (s.updSec n f).mnt = s.mnt := rfl
@[simp] theorem updSec_tap (s : State) (n : Nat) (f : Sector → Sector) : (s.updSec n f).tap = s.tap := rfl

/-! ### updSite -/

@[simp] theorem updSite_same (s : State) (n : Nat) (f : SiteRun → SiteRun) : (s.updSite n f).site n = f (s.site n) :=
  Tab.get_set_same _ _ _ _

theorem updSite_other (s : State) {n m : Nat} (f : SiteRun → SiteRun) (h : m ≠ n) : (s.updSite n f).site m = s.site m :=
  Tab.get_set_other _ _ _ h

@[simp] theorem updSite_pending (s : State) (n : Nat) (f : SiteRun → SiteRun) : (s.updSite n f).pending = s.pending := rfl
@[simp] theorem updSite_now (s : State) (n : Nat) (f : SiteRun → SiteRun) : (s.updSite n f).now = s.now := rfl
@[simp] theorem updSite_free (s : State) (n : Nat) (f : SiteRun → SiteRun) : (s.updSite n f).free = s.free := rfl
@[simp] theorem updSite_tick (s : State) (n : Nat) (f : SiteRun → SiteRun) : (s.updSite n f).tick = s.tick := rfl
@[simp] theorem updSite_tickFrac (s : State) (n : Nat) (f : SiteRun → SiteRun) : (s.updSite n f).tickFrac = s.tickFrac := rfl
@[simp] theorem updSite_pwr (s : State) (n : Nat) (f : SiteRun → SiteRun) : (s.updSite n f).pwr = s.pwr := rfl
@[simp] theorem updSite_sweep (s : State) (n : Nat) (f : SiteRun → SiteRun) : (s.updSite n f).sweep = s.sweep := rfl
@[simp] theorem updSite_csq (s : State) (n : Nat) (f : SiteRun → SiteRun) : (s.updSite n f).csq = s.csq := rfl
@[simp] theorem updSite_host (s : State) (n : Nat) (f : SiteRun → SiteRun) : (s.updSite n f).host = s.host := rfl
@[simp] theorem updSite_stg (s : State) (n : Nat) (f : SiteRun → SiteRun) : (s.updSite n f).stg = s.stg := rfl
@[simp] theorem updSite_chans (s : State) (n : Nat) (f : SiteRun → SiteRun) : (s.updSite n f).chans = s.chans := rfl
@[simp] theorem updSite_lgs (s : State) (n : Nat) (f : SiteRun → SiteRun) : (s.updSite n f).lgs = s.lgs := rfl
@[simp] theorem updSite_pmu (s : State) (n : Nat) (f : SiteRun → SiteRun) : (s.updSite n f).pmu = s.pmu := rfl
@[simp] theorem updSite_sectors (s : State) (n : Nat) (f : SiteRun → SiteRun) : (s.updSite n f).sectors = s.sectors := rfl
@[simp] theorem updSite_bursts (s : State) (n : Nat) (f : SiteRun → SiteRun) : (s.updSite n f).bursts = s.bursts := rfl
@[simp] theorem updSite_drainAt (s : State) (n : Nat) (f : SiteRun → SiteRun) : (s.updSite n f).drainAt = s.drainAt := rfl
@[simp] theorem updSite_streams (s : State) (n : Nat) (f : SiteRun → SiteRun) : (s.updSite n f).streams = s.streams := rfl
@[simp] theorem updSite_mergeAt (s : State) (n : Nat) (f : SiteRun → SiteRun) : (s.updSite n f).mergeAt = s.mergeAt := rfl
@[simp] theorem updSite_mergeNext (s : State) (n : Nat) (f : SiteRun → SiteRun) : (s.updSite n f).mergeNext = s.mergeNext := rfl
@[simp] theorem updSite_digs (s : State) (n : Nat) (f : SiteRun → SiteRun) : (s.updSite n f).digs = s.digs := rfl
@[simp] theorem updSite_tus (s : State) (n : Nat) (f : SiteRun → SiteRun) : (s.updSite n f).tus = s.tus := rfl
@[simp] theorem updSite_tb (s : State) (n : Nat) (f : SiteRun → SiteRun) : (s.updSite n f).tb = s.tb := rfl
@[simp] theorem updSite_awgs (s : State) (n : Nat) (f : SiteRun → SiteRun) : (s.updSite n f).awgs = s.awgs := rfl
@[simp] theorem updSite_dcss (s : State) (n : Nat) (f : SiteRun → SiteRun) : (s.updSite n f).dcss = s.dcss := rfl
@[simp] theorem updSite_engs (s : State) (n : Nat) (f : SiteRun → SiteRun) : (s.updSite n f).engs = s.engs := rfl
@[simp] theorem updSite_mem (s : State) (n : Nat) (f : SiteRun → SiteRun) : (s.updSite n f).mem = s.mem := rfl
@[simp] theorem updSite_flt (s : State) (n : Nat) (f : SiteRun → SiteRun) : (s.updSite n f).flt = s.flt := rfl
@[simp] theorem updSite_thm (s : State) (n : Nat) (f : SiteRun → SiteRun) : (s.updSite n f).thm = s.thm := rfl
@[simp] theorem updSite_cal (s : State) (n : Nat) (f : SiteRun → SiteRun) : (s.updSite n f).cal = s.cal := rfl
@[simp] theorem updSite_grp (s : State) (n : Nat) (f : SiteRun → SiteRun) : (s.updSite n f).grp = s.grp := rfl
@[simp] theorem updSite_aux (s : State) (n : Nat) (f : SiteRun → SiteRun) : (s.updSite n f).aux = s.aux := rfl
@[simp] theorem updSite_mnt (s : State) (n : Nat) (f : SiteRun → SiteRun) : (s.updSite n f).mnt = s.mnt := rfl
@[simp] theorem updSite_tap (s : State) (n : Nat) (f : SiteRun → SiteRun) : (s.updSite n f).tap = s.tap := rfl

/-! ### updStream -/

@[simp] theorem updStream_same (s : State) (n : Nat) (f : StampStream → StampStream) : (s.updStream n f).stream n = f (s.stream n) :=
  Tab.get_set_same _ _ _ _

theorem updStream_other (s : State) {n m : Nat} (f : StampStream → StampStream) (h : m ≠ n) : (s.updStream n f).stream m = s.stream m :=
  Tab.get_set_other _ _ _ h

@[simp] theorem updStream_pending (s : State) (n : Nat) (f : StampStream → StampStream) : (s.updStream n f).pending = s.pending := rfl
@[simp] theorem updStream_now (s : State) (n : Nat) (f : StampStream → StampStream) : (s.updStream n f).now = s.now := rfl
@[simp] theorem updStream_free (s : State) (n : Nat) (f : StampStream → StampStream) : (s.updStream n f).free = s.free := rfl
@[simp] theorem updStream_tick (s : State) (n : Nat) (f : StampStream → StampStream) : (s.updStream n f).tick = s.tick := rfl
@[simp] theorem updStream_tickFrac (s : State) (n : Nat) (f : StampStream → StampStream) : (s.updStream n f).tickFrac = s.tickFrac := rfl
@[simp] theorem updStream_pwr (s : State) (n : Nat) (f : StampStream → StampStream) : (s.updStream n f).pwr = s.pwr := rfl
@[simp] theorem updStream_sweep (s : State) (n : Nat) (f : StampStream → StampStream) : (s.updStream n f).sweep = s.sweep := rfl
@[simp] theorem updStream_csq (s : State) (n : Nat) (f : StampStream → StampStream) : (s.updStream n f).csq = s.csq := rfl
@[simp] theorem updStream_host (s : State) (n : Nat) (f : StampStream → StampStream) : (s.updStream n f).host = s.host := rfl
@[simp] theorem updStream_stg (s : State) (n : Nat) (f : StampStream → StampStream) : (s.updStream n f).stg = s.stg := rfl
@[simp] theorem updStream_chans (s : State) (n : Nat) (f : StampStream → StampStream) : (s.updStream n f).chans = s.chans := rfl
@[simp] theorem updStream_lgs (s : State) (n : Nat) (f : StampStream → StampStream) : (s.updStream n f).lgs = s.lgs := rfl
@[simp] theorem updStream_pmu (s : State) (n : Nat) (f : StampStream → StampStream) : (s.updStream n f).pmu = s.pmu := rfl
@[simp] theorem updStream_sectors (s : State) (n : Nat) (f : StampStream → StampStream) : (s.updStream n f).sectors = s.sectors := rfl
@[simp] theorem updStream_sites (s : State) (n : Nat) (f : StampStream → StampStream) : (s.updStream n f).sites = s.sites := rfl
@[simp] theorem updStream_bursts (s : State) (n : Nat) (f : StampStream → StampStream) : (s.updStream n f).bursts = s.bursts := rfl
@[simp] theorem updStream_drainAt (s : State) (n : Nat) (f : StampStream → StampStream) : (s.updStream n f).drainAt = s.drainAt := rfl
@[simp] theorem updStream_mergeAt (s : State) (n : Nat) (f : StampStream → StampStream) : (s.updStream n f).mergeAt = s.mergeAt := rfl
@[simp] theorem updStream_mergeNext (s : State) (n : Nat) (f : StampStream → StampStream) : (s.updStream n f).mergeNext = s.mergeNext := rfl
@[simp] theorem updStream_digs (s : State) (n : Nat) (f : StampStream → StampStream) : (s.updStream n f).digs = s.digs := rfl
@[simp] theorem updStream_tus (s : State) (n : Nat) (f : StampStream → StampStream) : (s.updStream n f).tus = s.tus := rfl
@[simp] theorem updStream_tb (s : State) (n : Nat) (f : StampStream → StampStream) : (s.updStream n f).tb = s.tb := rfl
@[simp] theorem updStream_awgs (s : State) (n : Nat) (f : StampStream → StampStream) : (s.updStream n f).awgs = s.awgs := rfl
@[simp] theorem updStream_dcss (s : State) (n : Nat) (f : StampStream → StampStream) : (s.updStream n f).dcss = s.dcss := rfl
@[simp] theorem updStream_engs (s : State) (n : Nat) (f : StampStream → StampStream) : (s.updStream n f).engs = s.engs := rfl
@[simp] theorem updStream_mem (s : State) (n : Nat) (f : StampStream → StampStream) : (s.updStream n f).mem = s.mem := rfl
@[simp] theorem updStream_flt (s : State) (n : Nat) (f : StampStream → StampStream) : (s.updStream n f).flt = s.flt := rfl
@[simp] theorem updStream_thm (s : State) (n : Nat) (f : StampStream → StampStream) : (s.updStream n f).thm = s.thm := rfl
@[simp] theorem updStream_cal (s : State) (n : Nat) (f : StampStream → StampStream) : (s.updStream n f).cal = s.cal := rfl
@[simp] theorem updStream_grp (s : State) (n : Nat) (f : StampStream → StampStream) : (s.updStream n f).grp = s.grp := rfl
@[simp] theorem updStream_aux (s : State) (n : Nat) (f : StampStream → StampStream) : (s.updStream n f).aux = s.aux := rfl
@[simp] theorem updStream_mnt (s : State) (n : Nat) (f : StampStream → StampStream) : (s.updStream n f).mnt = s.mnt := rfl
@[simp] theorem updStream_tap (s : State) (n : Nat) (f : StampStream → StampStream) : (s.updStream n f).tap = s.tap := rfl

/-! ### updDig -/

@[simp] theorem updDig_same (s : State) (n : Nat) (f : Dig → Dig) : (s.updDig n f).dig n = f (s.dig n) :=
  Tab.get_set_same _ _ _ _

theorem updDig_other (s : State) {n m : Nat} (f : Dig → Dig) (h : m ≠ n) : (s.updDig n f).dig m = s.dig m :=
  Tab.get_set_other _ _ _ h

@[simp] theorem updDig_pending (s : State) (n : Nat) (f : Dig → Dig) : (s.updDig n f).pending = s.pending := rfl
@[simp] theorem updDig_now (s : State) (n : Nat) (f : Dig → Dig) : (s.updDig n f).now = s.now := rfl
@[simp] theorem updDig_free (s : State) (n : Nat) (f : Dig → Dig) : (s.updDig n f).free = s.free := rfl
@[simp] theorem updDig_tick (s : State) (n : Nat) (f : Dig → Dig) : (s.updDig n f).tick = s.tick := rfl
@[simp] theorem updDig_tickFrac (s : State) (n : Nat) (f : Dig → Dig) : (s.updDig n f).tickFrac = s.tickFrac := rfl
@[simp] theorem updDig_pwr (s : State) (n : Nat) (f : Dig → Dig) : (s.updDig n f).pwr = s.pwr := rfl
@[simp] theorem updDig_sweep (s : State) (n : Nat) (f : Dig → Dig) : (s.updDig n f).sweep = s.sweep := rfl
@[simp] theorem updDig_csq (s : State) (n : Nat) (f : Dig → Dig) : (s.updDig n f).csq = s.csq := rfl
@[simp] theorem updDig_host (s : State) (n : Nat) (f : Dig → Dig) : (s.updDig n f).host = s.host := rfl
@[simp] theorem updDig_stg (s : State) (n : Nat) (f : Dig → Dig) : (s.updDig n f).stg = s.stg := rfl
@[simp] theorem updDig_chans (s : State) (n : Nat) (f : Dig → Dig) : (s.updDig n f).chans = s.chans := rfl
@[simp] theorem updDig_lgs (s : State) (n : Nat) (f : Dig → Dig) : (s.updDig n f).lgs = s.lgs := rfl
@[simp] theorem updDig_pmu (s : State) (n : Nat) (f : Dig → Dig) : (s.updDig n f).pmu = s.pmu := rfl
@[simp] theorem updDig_sectors (s : State) (n : Nat) (f : Dig → Dig) : (s.updDig n f).sectors = s.sectors := rfl
@[simp] theorem updDig_sites (s : State) (n : Nat) (f : Dig → Dig) : (s.updDig n f).sites = s.sites := rfl
@[simp] theorem updDig_bursts (s : State) (n : Nat) (f : Dig → Dig) : (s.updDig n f).bursts = s.bursts := rfl
@[simp] theorem updDig_drainAt (s : State) (n : Nat) (f : Dig → Dig) : (s.updDig n f).drainAt = s.drainAt := rfl
@[simp] theorem updDig_streams (s : State) (n : Nat) (f : Dig → Dig) : (s.updDig n f).streams = s.streams := rfl
@[simp] theorem updDig_mergeAt (s : State) (n : Nat) (f : Dig → Dig) : (s.updDig n f).mergeAt = s.mergeAt := rfl
@[simp] theorem updDig_mergeNext (s : State) (n : Nat) (f : Dig → Dig) : (s.updDig n f).mergeNext = s.mergeNext := rfl
@[simp] theorem updDig_tus (s : State) (n : Nat) (f : Dig → Dig) : (s.updDig n f).tus = s.tus := rfl
@[simp] theorem updDig_tb (s : State) (n : Nat) (f : Dig → Dig) : (s.updDig n f).tb = s.tb := rfl
@[simp] theorem updDig_awgs (s : State) (n : Nat) (f : Dig → Dig) : (s.updDig n f).awgs = s.awgs := rfl
@[simp] theorem updDig_dcss (s : State) (n : Nat) (f : Dig → Dig) : (s.updDig n f).dcss = s.dcss := rfl
@[simp] theorem updDig_engs (s : State) (n : Nat) (f : Dig → Dig) : (s.updDig n f).engs = s.engs := rfl
@[simp] theorem updDig_mem (s : State) (n : Nat) (f : Dig → Dig) : (s.updDig n f).mem = s.mem := rfl
@[simp] theorem updDig_flt (s : State) (n : Nat) (f : Dig → Dig) : (s.updDig n f).flt = s.flt := rfl
@[simp] theorem updDig_thm (s : State) (n : Nat) (f : Dig → Dig) : (s.updDig n f).thm = s.thm := rfl
@[simp] theorem updDig_cal (s : State) (n : Nat) (f : Dig → Dig) : (s.updDig n f).cal = s.cal := rfl
@[simp] theorem updDig_grp (s : State) (n : Nat) (f : Dig → Dig) : (s.updDig n f).grp = s.grp := rfl
@[simp] theorem updDig_aux (s : State) (n : Nat) (f : Dig → Dig) : (s.updDig n f).aux = s.aux := rfl
@[simp] theorem updDig_mnt (s : State) (n : Nat) (f : Dig → Dig) : (s.updDig n f).mnt = s.mnt := rfl
@[simp] theorem updDig_tap (s : State) (n : Nat) (f : Dig → Dig) : (s.updDig n f).tap = s.tap := rfl

/-! ### updTu -/

@[simp] theorem updTu_same (s : State) (n : Nat) (f : TrigUnit → TrigUnit) : (s.updTu n f).tu n = f (s.tu n) :=
  Tab.get_set_same _ _ _ _

theorem updTu_other (s : State) {n m : Nat} (f : TrigUnit → TrigUnit) (h : m ≠ n) : (s.updTu n f).tu m = s.tu m :=
  Tab.get_set_other _ _ _ h

@[simp] theorem updTu_pending (s : State) (n : Nat) (f : TrigUnit → TrigUnit) : (s.updTu n f).pending = s.pending := rfl
@[simp] theorem updTu_now (s : State) (n : Nat) (f : TrigUnit → TrigUnit) : (s.updTu n f).now = s.now := rfl
@[simp] theorem updTu_free (s : State) (n : Nat) (f : TrigUnit → TrigUnit) : (s.updTu n f).free = s.free := rfl
@[simp] theorem updTu_tick (s : State) (n : Nat) (f : TrigUnit → TrigUnit) : (s.updTu n f).tick = s.tick := rfl
@[simp] theorem updTu_tickFrac (s : State) (n : Nat) (f : TrigUnit → TrigUnit) : (s.updTu n f).tickFrac = s.tickFrac := rfl
@[simp] theorem updTu_pwr (s : State) (n : Nat) (f : TrigUnit → TrigUnit) : (s.updTu n f).pwr = s.pwr := rfl
@[simp] theorem updTu_sweep (s : State) (n : Nat) (f : TrigUnit → TrigUnit) : (s.updTu n f).sweep = s.sweep := rfl
@[simp] theorem updTu_csq (s : State) (n : Nat) (f : TrigUnit → TrigUnit) : (s.updTu n f).csq = s.csq := rfl
@[simp] theorem updTu_host (s : State) (n : Nat) (f : TrigUnit → TrigUnit) : (s.updTu n f).host = s.host := rfl
@[simp] theorem updTu_stg (s : State) (n : Nat) (f : TrigUnit → TrigUnit) : (s.updTu n f).stg = s.stg := rfl
@[simp] theorem updTu_chans (s : State) (n : Nat) (f : TrigUnit → TrigUnit) : (s.updTu n f).chans = s.chans := rfl
@[simp] theorem updTu_lgs (s : State) (n : Nat) (f : TrigUnit → TrigUnit) : (s.updTu n f).lgs = s.lgs := rfl
@[simp] theorem updTu_pmu (s : State) (n : Nat) (f : TrigUnit → TrigUnit) : (s.updTu n f).pmu = s.pmu := rfl
@[simp] theorem updTu_sectors (s : State) (n : Nat) (f : TrigUnit → TrigUnit) : (s.updTu n f).sectors = s.sectors := rfl
@[simp] theorem updTu_sites (s : State) (n : Nat) (f : TrigUnit → TrigUnit) : (s.updTu n f).sites = s.sites := rfl
@[simp] theorem updTu_bursts (s : State) (n : Nat) (f : TrigUnit → TrigUnit) : (s.updTu n f).bursts = s.bursts := rfl
@[simp] theorem updTu_drainAt (s : State) (n : Nat) (f : TrigUnit → TrigUnit) : (s.updTu n f).drainAt = s.drainAt := rfl
@[simp] theorem updTu_streams (s : State) (n : Nat) (f : TrigUnit → TrigUnit) : (s.updTu n f).streams = s.streams := rfl
@[simp] theorem updTu_mergeAt (s : State) (n : Nat) (f : TrigUnit → TrigUnit) : (s.updTu n f).mergeAt = s.mergeAt := rfl
@[simp] theorem updTu_mergeNext (s : State) (n : Nat) (f : TrigUnit → TrigUnit) : (s.updTu n f).mergeNext = s.mergeNext := rfl
@[simp] theorem updTu_digs (s : State) (n : Nat) (f : TrigUnit → TrigUnit) : (s.updTu n f).digs = s.digs := rfl
@[simp] theorem updTu_tb (s : State) (n : Nat) (f : TrigUnit → TrigUnit) : (s.updTu n f).tb = s.tb := rfl
@[simp] theorem updTu_awgs (s : State) (n : Nat) (f : TrigUnit → TrigUnit) : (s.updTu n f).awgs = s.awgs := rfl
@[simp] theorem updTu_dcss (s : State) (n : Nat) (f : TrigUnit → TrigUnit) : (s.updTu n f).dcss = s.dcss := rfl
@[simp] theorem updTu_engs (s : State) (n : Nat) (f : TrigUnit → TrigUnit) : (s.updTu n f).engs = s.engs := rfl
@[simp] theorem updTu_mem (s : State) (n : Nat) (f : TrigUnit → TrigUnit) : (s.updTu n f).mem = s.mem := rfl
@[simp] theorem updTu_flt (s : State) (n : Nat) (f : TrigUnit → TrigUnit) : (s.updTu n f).flt = s.flt := rfl
@[simp] theorem updTu_thm (s : State) (n : Nat) (f : TrigUnit → TrigUnit) : (s.updTu n f).thm = s.thm := rfl
@[simp] theorem updTu_cal (s : State) (n : Nat) (f : TrigUnit → TrigUnit) : (s.updTu n f).cal = s.cal := rfl
@[simp] theorem updTu_grp (s : State) (n : Nat) (f : TrigUnit → TrigUnit) : (s.updTu n f).grp = s.grp := rfl
@[simp] theorem updTu_aux (s : State) (n : Nat) (f : TrigUnit → TrigUnit) : (s.updTu n f).aux = s.aux := rfl
@[simp] theorem updTu_mnt (s : State) (n : Nat) (f : TrigUnit → TrigUnit) : (s.updTu n f).mnt = s.mnt := rfl
@[simp] theorem updTu_tap (s : State) (n : Nat) (f : TrigUnit → TrigUnit) : (s.updTu n f).tap = s.tap := rfl

/-! ### updLine -/

@[simp] theorem updLine_same (s : State) (n : Nat) (f : TbLine → TbLine) : (s.updLine n f).line n = f (s.line n) :=
  Tab.get_set_same _ _ _ _

theorem updLine_other (s : State) {n m : Nat} (f : TbLine → TbLine) (h : m ≠ n) : (s.updLine n f).line m = s.line m :=
  Tab.get_set_other _ _ _ h

@[simp] theorem updLine_pending (s : State) (n : Nat) (f : TbLine → TbLine) : (s.updLine n f).pending = s.pending := rfl
@[simp] theorem updLine_now (s : State) (n : Nat) (f : TbLine → TbLine) : (s.updLine n f).now = s.now := rfl
@[simp] theorem updLine_free (s : State) (n : Nat) (f : TbLine → TbLine) : (s.updLine n f).free = s.free := rfl
@[simp] theorem updLine_tick (s : State) (n : Nat) (f : TbLine → TbLine) : (s.updLine n f).tick = s.tick := rfl
@[simp] theorem updLine_tickFrac (s : State) (n : Nat) (f : TbLine → TbLine) : (s.updLine n f).tickFrac = s.tickFrac := rfl
@[simp] theorem updLine_pwr (s : State) (n : Nat) (f : TbLine → TbLine) : (s.updLine n f).pwr = s.pwr := rfl
@[simp] theorem updLine_sweep (s : State) (n : Nat) (f : TbLine → TbLine) : (s.updLine n f).sweep = s.sweep := rfl
@[simp] theorem updLine_csq (s : State) (n : Nat) (f : TbLine → TbLine) : (s.updLine n f).csq = s.csq := rfl
@[simp] theorem updLine_host (s : State) (n : Nat) (f : TbLine → TbLine) : (s.updLine n f).host = s.host := rfl
@[simp] theorem updLine_stg (s : State) (n : Nat) (f : TbLine → TbLine) : (s.updLine n f).stg = s.stg := rfl
@[simp] theorem updLine_chans (s : State) (n : Nat) (f : TbLine → TbLine) : (s.updLine n f).chans = s.chans := rfl
@[simp] theorem updLine_lgs (s : State) (n : Nat) (f : TbLine → TbLine) : (s.updLine n f).lgs = s.lgs := rfl
@[simp] theorem updLine_pmu (s : State) (n : Nat) (f : TbLine → TbLine) : (s.updLine n f).pmu = s.pmu := rfl
@[simp] theorem updLine_sectors (s : State) (n : Nat) (f : TbLine → TbLine) : (s.updLine n f).sectors = s.sectors := rfl
@[simp] theorem updLine_sites (s : State) (n : Nat) (f : TbLine → TbLine) : (s.updLine n f).sites = s.sites := rfl
@[simp] theorem updLine_bursts (s : State) (n : Nat) (f : TbLine → TbLine) : (s.updLine n f).bursts = s.bursts := rfl
@[simp] theorem updLine_drainAt (s : State) (n : Nat) (f : TbLine → TbLine) : (s.updLine n f).drainAt = s.drainAt := rfl
@[simp] theorem updLine_streams (s : State) (n : Nat) (f : TbLine → TbLine) : (s.updLine n f).streams = s.streams := rfl
@[simp] theorem updLine_mergeAt (s : State) (n : Nat) (f : TbLine → TbLine) : (s.updLine n f).mergeAt = s.mergeAt := rfl
@[simp] theorem updLine_mergeNext (s : State) (n : Nat) (f : TbLine → TbLine) : (s.updLine n f).mergeNext = s.mergeNext := rfl
@[simp] theorem updLine_digs (s : State) (n : Nat) (f : TbLine → TbLine) : (s.updLine n f).digs = s.digs := rfl
@[simp] theorem updLine_tus (s : State) (n : Nat) (f : TbLine → TbLine) : (s.updLine n f).tus = s.tus := rfl
@[simp] theorem updLine_awgs (s : State) (n : Nat) (f : TbLine → TbLine) : (s.updLine n f).awgs = s.awgs := rfl
@[simp] theorem updLine_dcss (s : State) (n : Nat) (f : TbLine → TbLine) : (s.updLine n f).dcss = s.dcss := rfl
@[simp] theorem updLine_engs (s : State) (n : Nat) (f : TbLine → TbLine) : (s.updLine n f).engs = s.engs := rfl
@[simp] theorem updLine_mem (s : State) (n : Nat) (f : TbLine → TbLine) : (s.updLine n f).mem = s.mem := rfl
@[simp] theorem updLine_flt (s : State) (n : Nat) (f : TbLine → TbLine) : (s.updLine n f).flt = s.flt := rfl
@[simp] theorem updLine_thm (s : State) (n : Nat) (f : TbLine → TbLine) : (s.updLine n f).thm = s.thm := rfl
@[simp] theorem updLine_cal (s : State) (n : Nat) (f : TbLine → TbLine) : (s.updLine n f).cal = s.cal := rfl
@[simp] theorem updLine_grp (s : State) (n : Nat) (f : TbLine → TbLine) : (s.updLine n f).grp = s.grp := rfl
@[simp] theorem updLine_aux (s : State) (n : Nat) (f : TbLine → TbLine) : (s.updLine n f).aux = s.aux := rfl
@[simp] theorem updLine_mnt (s : State) (n : Nat) (f : TbLine → TbLine) : (s.updLine n f).mnt = s.mnt := rfl
@[simp] theorem updLine_tap (s : State) (n : Nat) (f : TbLine → TbLine) : (s.updLine n f).tap = s.tap := rfl

/-! ### updAwg -/

@[simp] theorem updAwg_same (s : State) (n : Nat) (f : Awg → Awg) : (s.updAwg n f).awg n = f (s.awg n) :=
  Tab.get_set_same _ _ _ _

theorem updAwg_other (s : State) {n m : Nat} (f : Awg → Awg) (h : m ≠ n) : (s.updAwg n f).awg m = s.awg m :=
  Tab.get_set_other _ _ _ h

@[simp] theorem updAwg_pending (s : State) (n : Nat) (f : Awg → Awg) : (s.updAwg n f).pending = s.pending := rfl
@[simp] theorem updAwg_now (s : State) (n : Nat) (f : Awg → Awg) : (s.updAwg n f).now = s.now := rfl
@[simp] theorem updAwg_free (s : State) (n : Nat) (f : Awg → Awg) : (s.updAwg n f).free = s.free := rfl
@[simp] theorem updAwg_tick (s : State) (n : Nat) (f : Awg → Awg) : (s.updAwg n f).tick = s.tick := rfl
@[simp] theorem updAwg_tickFrac (s : State) (n : Nat) (f : Awg → Awg) : (s.updAwg n f).tickFrac = s.tickFrac := rfl
@[simp] theorem updAwg_pwr (s : State) (n : Nat) (f : Awg → Awg) : (s.updAwg n f).pwr = s.pwr := rfl
@[simp] theorem updAwg_sweep (s : State) (n : Nat) (f : Awg → Awg) : (s.updAwg n f).sweep = s.sweep := rfl
@[simp] theorem updAwg_csq (s : State) (n : Nat) (f : Awg → Awg) : (s.updAwg n f).csq = s.csq := rfl
@[simp] theorem updAwg_host (s : State) (n : Nat) (f : Awg → Awg) : (s.updAwg n f).host = s.host := rfl
@[simp] theorem updAwg_stg (s : State) (n : Nat) (f : Awg → Awg) : (s.updAwg n f).stg = s.stg := rfl
@[simp] theorem updAwg_chans (s : State) (n : Nat) (f : Awg → Awg) : (s.updAwg n f).chans = s.chans := rfl
@[simp] theorem updAwg_lgs (s : State) (n : Nat) (f : Awg → Awg) : (s.updAwg n f).lgs = s.lgs := rfl
@[simp] theorem updAwg_pmu (s : State) (n : Nat) (f : Awg → Awg) : (s.updAwg n f).pmu = s.pmu := rfl
@[simp] theorem updAwg_sectors (s : State) (n : Nat) (f : Awg → Awg) : (s.updAwg n f).sectors = s.sectors := rfl
@[simp] theorem updAwg_sites (s : State) (n : Nat) (f : Awg → Awg) : (s.updAwg n f).sites = s.sites := rfl
@[simp] theorem updAwg_bursts (s : State) (n : Nat) (f : Awg → Awg) : (s.updAwg n f).bursts = s.bursts := rfl
@[simp] theorem updAwg_drainAt (s : State) (n : Nat) (f : Awg → Awg) : (s.updAwg n f).drainAt = s.drainAt := rfl
@[simp] theorem updAwg_streams (s : State) (n : Nat) (f : Awg → Awg) : (s.updAwg n f).streams = s.streams := rfl
@[simp] theorem updAwg_mergeAt (s : State) (n : Nat) (f : Awg → Awg) : (s.updAwg n f).mergeAt = s.mergeAt := rfl
@[simp] theorem updAwg_mergeNext (s : State) (n : Nat) (f : Awg → Awg) : (s.updAwg n f).mergeNext = s.mergeNext := rfl
@[simp] theorem updAwg_digs (s : State) (n : Nat) (f : Awg → Awg) : (s.updAwg n f).digs = s.digs := rfl
@[simp] theorem updAwg_tus (s : State) (n : Nat) (f : Awg → Awg) : (s.updAwg n f).tus = s.tus := rfl
@[simp] theorem updAwg_tb (s : State) (n : Nat) (f : Awg → Awg) : (s.updAwg n f).tb = s.tb := rfl
@[simp] theorem updAwg_dcss (s : State) (n : Nat) (f : Awg → Awg) : (s.updAwg n f).dcss = s.dcss := rfl
@[simp] theorem updAwg_engs (s : State) (n : Nat) (f : Awg → Awg) : (s.updAwg n f).engs = s.engs := rfl
@[simp] theorem updAwg_mem (s : State) (n : Nat) (f : Awg → Awg) : (s.updAwg n f).mem = s.mem := rfl
@[simp] theorem updAwg_flt (s : State) (n : Nat) (f : Awg → Awg) : (s.updAwg n f).flt = s.flt := rfl
@[simp] theorem updAwg_thm (s : State) (n : Nat) (f : Awg → Awg) : (s.updAwg n f).thm = s.thm := rfl
@[simp] theorem updAwg_cal (s : State) (n : Nat) (f : Awg → Awg) : (s.updAwg n f).cal = s.cal := rfl
@[simp] theorem updAwg_grp (s : State) (n : Nat) (f : Awg → Awg) : (s.updAwg n f).grp = s.grp := rfl
@[simp] theorem updAwg_aux (s : State) (n : Nat) (f : Awg → Awg) : (s.updAwg n f).aux = s.aux := rfl
@[simp] theorem updAwg_mnt (s : State) (n : Nat) (f : Awg → Awg) : (s.updAwg n f).mnt = s.mnt := rfl
@[simp] theorem updAwg_tap (s : State) (n : Nat) (f : Awg → Awg) : (s.updAwg n f).tap = s.tap := rfl

/-! ### updDcs -/

@[simp] theorem updDcs_same (s : State) (n : Nat) (f : Dcs → Dcs) : (s.updDcs n f).dcs n = f (s.dcs n) :=
  Tab.get_set_same _ _ _ _

theorem updDcs_other (s : State) {n m : Nat} (f : Dcs → Dcs) (h : m ≠ n) : (s.updDcs n f).dcs m = s.dcs m :=
  Tab.get_set_other _ _ _ h

@[simp] theorem updDcs_pending (s : State) (n : Nat) (f : Dcs → Dcs) : (s.updDcs n f).pending = s.pending := rfl
@[simp] theorem updDcs_now (s : State) (n : Nat) (f : Dcs → Dcs) : (s.updDcs n f).now = s.now := rfl
@[simp] theorem updDcs_free (s : State) (n : Nat) (f : Dcs → Dcs) : (s.updDcs n f).free = s.free := rfl
@[simp] theorem updDcs_tick (s : State) (n : Nat) (f : Dcs → Dcs) : (s.updDcs n f).tick = s.tick := rfl
@[simp] theorem updDcs_tickFrac (s : State) (n : Nat) (f : Dcs → Dcs) : (s.updDcs n f).tickFrac = s.tickFrac := rfl
@[simp] theorem updDcs_pwr (s : State) (n : Nat) (f : Dcs → Dcs) : (s.updDcs n f).pwr = s.pwr := rfl
@[simp] theorem updDcs_sweep (s : State) (n : Nat) (f : Dcs → Dcs) : (s.updDcs n f).sweep = s.sweep := rfl
@[simp] theorem updDcs_csq (s : State) (n : Nat) (f : Dcs → Dcs) : (s.updDcs n f).csq = s.csq := rfl
@[simp] theorem updDcs_host (s : State) (n : Nat) (f : Dcs → Dcs) : (s.updDcs n f).host = s.host := rfl
@[simp] theorem updDcs_stg (s : State) (n : Nat) (f : Dcs → Dcs) : (s.updDcs n f).stg = s.stg := rfl
@[simp] theorem updDcs_chans (s : State) (n : Nat) (f : Dcs → Dcs) : (s.updDcs n f).chans = s.chans := rfl
@[simp] theorem updDcs_lgs (s : State) (n : Nat) (f : Dcs → Dcs) : (s.updDcs n f).lgs = s.lgs := rfl
@[simp] theorem updDcs_pmu (s : State) (n : Nat) (f : Dcs → Dcs) : (s.updDcs n f).pmu = s.pmu := rfl
@[simp] theorem updDcs_sectors (s : State) (n : Nat) (f : Dcs → Dcs) : (s.updDcs n f).sectors = s.sectors := rfl
@[simp] theorem updDcs_sites (s : State) (n : Nat) (f : Dcs → Dcs) : (s.updDcs n f).sites = s.sites := rfl
@[simp] theorem updDcs_bursts (s : State) (n : Nat) (f : Dcs → Dcs) : (s.updDcs n f).bursts = s.bursts := rfl
@[simp] theorem updDcs_drainAt (s : State) (n : Nat) (f : Dcs → Dcs) : (s.updDcs n f).drainAt = s.drainAt := rfl
@[simp] theorem updDcs_streams (s : State) (n : Nat) (f : Dcs → Dcs) : (s.updDcs n f).streams = s.streams := rfl
@[simp] theorem updDcs_mergeAt (s : State) (n : Nat) (f : Dcs → Dcs) : (s.updDcs n f).mergeAt = s.mergeAt := rfl
@[simp] theorem updDcs_mergeNext (s : State) (n : Nat) (f : Dcs → Dcs) : (s.updDcs n f).mergeNext = s.mergeNext := rfl
@[simp] theorem updDcs_digs (s : State) (n : Nat) (f : Dcs → Dcs) : (s.updDcs n f).digs = s.digs := rfl
@[simp] theorem updDcs_tus (s : State) (n : Nat) (f : Dcs → Dcs) : (s.updDcs n f).tus = s.tus := rfl
@[simp] theorem updDcs_tb (s : State) (n : Nat) (f : Dcs → Dcs) : (s.updDcs n f).tb = s.tb := rfl
@[simp] theorem updDcs_awgs (s : State) (n : Nat) (f : Dcs → Dcs) : (s.updDcs n f).awgs = s.awgs := rfl
@[simp] theorem updDcs_engs (s : State) (n : Nat) (f : Dcs → Dcs) : (s.updDcs n f).engs = s.engs := rfl
@[simp] theorem updDcs_mem (s : State) (n : Nat) (f : Dcs → Dcs) : (s.updDcs n f).mem = s.mem := rfl
@[simp] theorem updDcs_flt (s : State) (n : Nat) (f : Dcs → Dcs) : (s.updDcs n f).flt = s.flt := rfl
@[simp] theorem updDcs_thm (s : State) (n : Nat) (f : Dcs → Dcs) : (s.updDcs n f).thm = s.thm := rfl
@[simp] theorem updDcs_cal (s : State) (n : Nat) (f : Dcs → Dcs) : (s.updDcs n f).cal = s.cal := rfl
@[simp] theorem updDcs_grp (s : State) (n : Nat) (f : Dcs → Dcs) : (s.updDcs n f).grp = s.grp := rfl
@[simp] theorem updDcs_aux (s : State) (n : Nat) (f : Dcs → Dcs) : (s.updDcs n f).aux = s.aux := rfl
@[simp] theorem updDcs_mnt (s : State) (n : Nat) (f : Dcs → Dcs) : (s.updDcs n f).mnt = s.mnt := rfl
@[simp] theorem updDcs_tap (s : State) (n : Nat) (f : Dcs → Dcs) : (s.updDcs n f).tap = s.tap := rfl

/-! ### updEng -/

@[simp] theorem updEng_same (s : State) (n : Nat) (f : Engine → Engine) : (s.updEng n f).eng n = f (s.eng n) :=
  Tab.get_set_same _ _ _ _

theorem updEng_other (s : State) {n m : Nat} (f : Engine → Engine) (h : m ≠ n) : (s.updEng n f).eng m = s.eng m :=
  Tab.get_set_other _ _ _ h

@[simp] theorem updEng_pending (s : State) (n : Nat) (f : Engine → Engine) : (s.updEng n f).pending = s.pending := rfl
@[simp] theorem updEng_now (s : State) (n : Nat) (f : Engine → Engine) : (s.updEng n f).now = s.now := rfl
@[simp] theorem updEng_free (s : State) (n : Nat) (f : Engine → Engine) : (s.updEng n f).free = s.free := rfl
@[simp] theorem updEng_tick (s : State) (n : Nat) (f : Engine → Engine) : (s.updEng n f).tick = s.tick := rfl
@[simp] theorem updEng_tickFrac (s : State) (n : Nat) (f : Engine → Engine) : (s.updEng n f).tickFrac = s.tickFrac := rfl
@[simp] theorem updEng_pwr (s : State) (n : Nat) (f : Engine → Engine) : (s.updEng n f).pwr = s.pwr := rfl
@[simp] theorem updEng_sweep (s : State) (n : Nat) (f : Engine → Engine) : (s.updEng n f).sweep = s.sweep := rfl
@[simp] theorem updEng_csq (s : State) (n : Nat) (f : Engine → Engine) : (s.updEng n f).csq = s.csq := rfl
@[simp] theorem updEng_host (s : State) (n : Nat) (f : Engine → Engine) : (s.updEng n f).host = s.host := rfl
@[simp] theorem updEng_stg (s : State) (n : Nat) (f : Engine → Engine) : (s.updEng n f).stg = s.stg := rfl
@[simp] theorem updEng_chans (s : State) (n : Nat) (f : Engine → Engine) : (s.updEng n f).chans = s.chans := rfl
@[simp] theorem updEng_lgs (s : State) (n : Nat) (f : Engine → Engine) : (s.updEng n f).lgs = s.lgs := rfl
@[simp] theorem updEng_pmu (s : State) (n : Nat) (f : Engine → Engine) : (s.updEng n f).pmu = s.pmu := rfl
@[simp] theorem updEng_sectors (s : State) (n : Nat) (f : Engine → Engine) : (s.updEng n f).sectors = s.sectors := rfl
@[simp] theorem updEng_sites (s : State) (n : Nat) (f : Engine → Engine) : (s.updEng n f).sites = s.sites := rfl
@[simp] theorem updEng_bursts (s : State) (n : Nat) (f : Engine → Engine) : (s.updEng n f).bursts = s.bursts := rfl
@[simp] theorem updEng_drainAt (s : State) (n : Nat) (f : Engine → Engine) : (s.updEng n f).drainAt = s.drainAt := rfl
@[simp] theorem updEng_streams (s : State) (n : Nat) (f : Engine → Engine) : (s.updEng n f).streams = s.streams := rfl
@[simp] theorem updEng_mergeAt (s : State) (n : Nat) (f : Engine → Engine) : (s.updEng n f).mergeAt = s.mergeAt := rfl
@[simp] theorem updEng_mergeNext (s : State) (n : Nat) (f : Engine → Engine) : (s.updEng n f).mergeNext = s.mergeNext := rfl
@[simp] theorem updEng_digs (s : State) (n : Nat) (f : Engine → Engine) : (s.updEng n f).digs = s.digs := rfl
@[simp] theorem updEng_tus (s : State) (n : Nat) (f : Engine → Engine) : (s.updEng n f).tus = s.tus := rfl
@[simp] theorem updEng_tb (s : State) (n : Nat) (f : Engine → Engine) : (s.updEng n f).tb = s.tb := rfl
@[simp] theorem updEng_awgs (s : State) (n : Nat) (f : Engine → Engine) : (s.updEng n f).awgs = s.awgs := rfl
@[simp] theorem updEng_dcss (s : State) (n : Nat) (f : Engine → Engine) : (s.updEng n f).dcss = s.dcss := rfl
@[simp] theorem updEng_mem (s : State) (n : Nat) (f : Engine → Engine) : (s.updEng n f).mem = s.mem := rfl
@[simp] theorem updEng_flt (s : State) (n : Nat) (f : Engine → Engine) : (s.updEng n f).flt = s.flt := rfl
@[simp] theorem updEng_thm (s : State) (n : Nat) (f : Engine → Engine) : (s.updEng n f).thm = s.thm := rfl
@[simp] theorem updEng_cal (s : State) (n : Nat) (f : Engine → Engine) : (s.updEng n f).cal = s.cal := rfl
@[simp] theorem updEng_grp (s : State) (n : Nat) (f : Engine → Engine) : (s.updEng n f).grp = s.grp := rfl
@[simp] theorem updEng_aux (s : State) (n : Nat) (f : Engine → Engine) : (s.updEng n f).aux = s.aux := rfl
@[simp] theorem updEng_mnt (s : State) (n : Nat) (f : Engine → Engine) : (s.updEng n f).mnt = s.mnt := rfl
@[simp] theorem updEng_tap (s : State) (n : Nat) (f : Engine → Engine) : (s.updEng n f).tap = s.tap := rfl

/-! ### updCtx -/

@[simp] theorem updCtx_same (s : State) (n : Nat) (f : Ctx → Ctx) : (s.updCtx n f).ctx n = f (s.ctx n) :=
  Tab.get_set_same _ _ _ _

theorem updCtx_other (s : State) {n m : Nat} (f : Ctx → Ctx) (h : m ≠ n) : (s.updCtx n f).ctx m = s.ctx m :=
  Tab.get_set_other _ _ _ h

@[simp] theorem updCtx_pending (s : State) (n : Nat) (f : Ctx → Ctx) : (s.updCtx n f).pending = s.pending := rfl
@[simp] theorem updCtx_now (s : State) (n : Nat) (f : Ctx → Ctx) : (s.updCtx n f).now = s.now := rfl
@[simp] theorem updCtx_free (s : State) (n : Nat) (f : Ctx → Ctx) : (s.updCtx n f).free = s.free := rfl
@[simp] theorem updCtx_tick (s : State) (n : Nat) (f : Ctx → Ctx) : (s.updCtx n f).tick = s.tick := rfl
@[simp] theorem updCtx_tickFrac (s : State) (n : Nat) (f : Ctx → Ctx) : (s.updCtx n f).tickFrac = s.tickFrac := rfl
@[simp] theorem updCtx_pwr (s : State) (n : Nat) (f : Ctx → Ctx) : (s.updCtx n f).pwr = s.pwr := rfl
@[simp] theorem updCtx_sweep (s : State) (n : Nat) (f : Ctx → Ctx) : (s.updCtx n f).sweep = s.sweep := rfl
@[simp] theorem updCtx_host (s : State) (n : Nat) (f : Ctx → Ctx) : (s.updCtx n f).host = s.host := rfl
@[simp] theorem updCtx_stg (s : State) (n : Nat) (f : Ctx → Ctx) : (s.updCtx n f).stg = s.stg := rfl
@[simp] theorem updCtx_chans (s : State) (n : Nat) (f : Ctx → Ctx) : (s.updCtx n f).chans = s.chans := rfl
@[simp] theorem updCtx_lgs (s : State) (n : Nat) (f : Ctx → Ctx) : (s.updCtx n f).lgs = s.lgs := rfl
@[simp] theorem updCtx_pmu (s : State) (n : Nat) (f : Ctx → Ctx) : (s.updCtx n f).pmu = s.pmu := rfl
@[simp] theorem updCtx_sectors (s : State) (n : Nat) (f : Ctx → Ctx) : (s.updCtx n f).sectors = s.sectors := rfl
@[simp] theorem updCtx_sites (s : State) (n : Nat) (f : Ctx → Ctx) : (s.updCtx n f).sites = s.sites := rfl
@[simp] theorem updCtx_bursts (s : State) (n : Nat) (f : Ctx → Ctx) : (s.updCtx n f).bursts = s.bursts := rfl
@[simp] theorem updCtx_drainAt (s : State) (n : Nat) (f : Ctx → Ctx) : (s.updCtx n f).drainAt = s.drainAt := rfl
@[simp] theorem updCtx_streams (s : State) (n : Nat) (f : Ctx → Ctx) : (s.updCtx n f).streams = s.streams := rfl
@[simp] theorem updCtx_mergeAt (s : State) (n : Nat) (f : Ctx → Ctx) : (s.updCtx n f).mergeAt = s.mergeAt := rfl
@[simp] theorem updCtx_mergeNext (s : State) (n : Nat) (f : Ctx → Ctx) : (s.updCtx n f).mergeNext = s.mergeNext := rfl
@[simp] theorem updCtx_digs (s : State) (n : Nat) (f : Ctx → Ctx) : (s.updCtx n f).digs = s.digs := rfl
@[simp] theorem updCtx_tus (s : State) (n : Nat) (f : Ctx → Ctx) : (s.updCtx n f).tus = s.tus := rfl
@[simp] theorem updCtx_tb (s : State) (n : Nat) (f : Ctx → Ctx) : (s.updCtx n f).tb = s.tb := rfl
@[simp] theorem updCtx_awgs (s : State) (n : Nat) (f : Ctx → Ctx) : (s.updCtx n f).awgs = s.awgs := rfl
@[simp] theorem updCtx_dcss (s : State) (n : Nat) (f : Ctx → Ctx) : (s.updCtx n f).dcss = s.dcss := rfl
@[simp] theorem updCtx_engs (s : State) (n : Nat) (f : Ctx → Ctx) : (s.updCtx n f).engs = s.engs := rfl
@[simp] theorem updCtx_mem (s : State) (n : Nat) (f : Ctx → Ctx) : (s.updCtx n f).mem = s.mem := rfl
@[simp] theorem updCtx_flt (s : State) (n : Nat) (f : Ctx → Ctx) : (s.updCtx n f).flt = s.flt := rfl
@[simp] theorem updCtx_thm (s : State) (n : Nat) (f : Ctx → Ctx) : (s.updCtx n f).thm = s.thm := rfl
@[simp] theorem updCtx_cal (s : State) (n : Nat) (f : Ctx → Ctx) : (s.updCtx n f).cal = s.cal := rfl
@[simp] theorem updCtx_grp (s : State) (n : Nat) (f : Ctx → Ctx) : (s.updCtx n f).grp = s.grp := rfl
@[simp] theorem updCtx_aux (s : State) (n : Nat) (f : Ctx → Ctx) : (s.updCtx n f).aux = s.aux := rfl
@[simp] theorem updCtx_mnt (s : State) (n : Nat) (f : Ctx → Ctx) : (s.updCtx n f).mnt = s.mnt := rfl
@[simp] theorem updCtx_tap (s : State) (n : Nat) (f : Ctx → Ctx) : (s.updCtx n f).tap = s.tap := rfl

/-! ### updSensor -/

@[simp] theorem updSensor_same (s : State) (n : Nat) (f : Sensor → Sensor) : (s.updSensor n f).sensor n = f (s.sensor n) :=
  Tab.get_set_same _ _ _ _

theorem updSensor_other (s : State) {n m : Nat} (f : Sensor → Sensor) (h : m ≠ n) : (s.updSensor n f).sensor m = s.sensor m :=
  Tab.get_set_other _ _ _ h

@[simp] theorem updSensor_pending (s : State) (n : Nat) (f : Sensor → Sensor) : (s.updSensor n f).pending = s.pending := rfl
@[simp] theorem updSensor_now (s : State) (n : Nat) (f : Sensor → Sensor) : (s.updSensor n f).now = s.now := rfl
@[simp] theorem updSensor_free (s : State) (n : Nat) (f : Sensor → Sensor) : (s.updSensor n f).free = s.free := rfl
@[simp] theorem updSensor_tick (s : State) (n : Nat) (f : Sensor → Sensor) : (s.updSensor n f).tick = s.tick := rfl
@[simp] theorem updSensor_tickFrac (s : State) (n : Nat) (f : Sensor → Sensor) : (s.updSensor n f).tickFrac = s.tickFrac := rfl
@[simp] theorem updSensor_pwr (s : State) (n : Nat) (f : Sensor → Sensor) : (s.updSensor n f).pwr = s.pwr := rfl
@[simp] theorem updSensor_sweep (s : State) (n : Nat) (f : Sensor → Sensor) : (s.updSensor n f).sweep = s.sweep := rfl
@[simp] theorem updSensor_csq (s : State) (n : Nat) (f : Sensor → Sensor) : (s.updSensor n f).csq = s.csq := rfl
@[simp] theorem updSensor_host (s : State) (n : Nat) (f : Sensor → Sensor) : (s.updSensor n f).host = s.host := rfl
@[simp] theorem updSensor_stg (s : State) (n : Nat) (f : Sensor → Sensor) : (s.updSensor n f).stg = s.stg := rfl
@[simp] theorem updSensor_chans (s : State) (n : Nat) (f : Sensor → Sensor) : (s.updSensor n f).chans = s.chans := rfl
@[simp] theorem updSensor_lgs (s : State) (n : Nat) (f : Sensor → Sensor) : (s.updSensor n f).lgs = s.lgs := rfl
@[simp] theorem updSensor_pmu (s : State) (n : Nat) (f : Sensor → Sensor) : (s.updSensor n f).pmu = s.pmu := rfl
@[simp] theorem updSensor_sectors (s : State) (n : Nat) (f : Sensor → Sensor) : (s.updSensor n f).sectors = s.sectors := rfl
@[simp] theorem updSensor_sites (s : State) (n : Nat) (f : Sensor → Sensor) : (s.updSensor n f).sites = s.sites := rfl
@[simp] theorem updSensor_bursts (s : State) (n : Nat) (f : Sensor → Sensor) : (s.updSensor n f).bursts = s.bursts := rfl
@[simp] theorem updSensor_drainAt (s : State) (n : Nat) (f : Sensor → Sensor) : (s.updSensor n f).drainAt = s.drainAt := rfl
@[simp] theorem updSensor_streams (s : State) (n : Nat) (f : Sensor → Sensor) : (s.updSensor n f).streams = s.streams := rfl
@[simp] theorem updSensor_mergeAt (s : State) (n : Nat) (f : Sensor → Sensor) : (s.updSensor n f).mergeAt = s.mergeAt := rfl
@[simp] theorem updSensor_mergeNext (s : State) (n : Nat) (f : Sensor → Sensor) : (s.updSensor n f).mergeNext = s.mergeNext := rfl
@[simp] theorem updSensor_digs (s : State) (n : Nat) (f : Sensor → Sensor) : (s.updSensor n f).digs = s.digs := rfl
@[simp] theorem updSensor_tus (s : State) (n : Nat) (f : Sensor → Sensor) : (s.updSensor n f).tus = s.tus := rfl
@[simp] theorem updSensor_tb (s : State) (n : Nat) (f : Sensor → Sensor) : (s.updSensor n f).tb = s.tb := rfl
@[simp] theorem updSensor_awgs (s : State) (n : Nat) (f : Sensor → Sensor) : (s.updSensor n f).awgs = s.awgs := rfl
@[simp] theorem updSensor_dcss (s : State) (n : Nat) (f : Sensor → Sensor) : (s.updSensor n f).dcss = s.dcss := rfl
@[simp] theorem updSensor_engs (s : State) (n : Nat) (f : Sensor → Sensor) : (s.updSensor n f).engs = s.engs := rfl
@[simp] theorem updSensor_mem (s : State) (n : Nat) (f : Sensor → Sensor) : (s.updSensor n f).mem = s.mem := rfl
@[simp] theorem updSensor_flt (s : State) (n : Nat) (f : Sensor → Sensor) : (s.updSensor n f).flt = s.flt := rfl
@[simp] theorem updSensor_cal (s : State) (n : Nat) (f : Sensor → Sensor) : (s.updSensor n f).cal = s.cal := rfl
@[simp] theorem updSensor_grp (s : State) (n : Nat) (f : Sensor → Sensor) : (s.updSensor n f).grp = s.grp := rfl
@[simp] theorem updSensor_aux (s : State) (n : Nat) (f : Sensor → Sensor) : (s.updSensor n f).aux = s.aux := rfl
@[simp] theorem updSensor_mnt (s : State) (n : Nat) (f : Sensor → Sensor) : (s.updSensor n f).mnt = s.mnt := rfl
@[simp] theorem updSensor_tap (s : State) (n : Nat) (f : Sensor → Sensor) : (s.updSensor n f).tap = s.tap := rfl

/-! ### updMemChan -/

@[simp] theorem updMemChan_same (s : State) (n : Nat) (f : MemChan → MemChan) : (s.updMemChan n f).memChan n = f (s.memChan n) :=
  Tab.get_set_same _ _ _ _

theorem updMemChan_other (s : State) {n m : Nat} (f : MemChan → MemChan) (h : m ≠ n) : (s.updMemChan n f).memChan m = s.memChan m :=
  Tab.get_set_other _ _ _ h

@[simp] theorem updMemChan_pending (s : State) (n : Nat) (f : MemChan → MemChan) : (s.updMemChan n f).pending = s.pending := rfl
@[simp] theorem updMemChan_now (s : State) (n : Nat) (f : MemChan → MemChan) : (s.updMemChan n f).now = s.now := rfl
@[simp] theorem updMemChan_free (s : State) (n : Nat) (f : MemChan → MemChan) : (s.updMemChan n f).free = s.free := rfl
@[simp] theorem updMemChan_tick (s : State) (n : Nat) (f : MemChan → MemChan) : (s.updMemChan n f).tick = s.tick := rfl
@[simp] theorem updMemChan_tickFrac (s : State) (n : Nat) (f : MemChan → MemChan) : (s.updMemChan n f).tickFrac = s.tickFrac := rfl
@[simp] theorem updMemChan_pwr (s : State) (n : Nat) (f : MemChan → MemChan) : (s.updMemChan n f).pwr = s.pwr := rfl
@[simp] theorem updMemChan_sweep (s : State) (n : Nat) (f : MemChan → MemChan) : (s.updMemChan n f).sweep = s.sweep := rfl
@[simp] theorem updMemChan_csq (s : State) (n : Nat) (f : MemChan → MemChan) : (s.updMemChan n f).csq = s.csq := rfl
@[simp] theorem updMemChan_host (s : State) (n : Nat) (f : MemChan → MemChan) : (s.updMemChan n f).host = s.host := rfl
@[simp] theorem updMemChan_stg (s : State) (n : Nat) (f : MemChan → MemChan) : (s.updMemChan n f).stg = s.stg := rfl
@[simp] theorem updMemChan_chans (s : State) (n : Nat) (f : MemChan → MemChan) : (s.updMemChan n f).chans = s.chans := rfl
@[simp] theorem updMemChan_lgs (s : State) (n : Nat) (f : MemChan → MemChan) : (s.updMemChan n f).lgs = s.lgs := rfl
@[simp] theorem updMemChan_pmu (s : State) (n : Nat) (f : MemChan → MemChan) : (s.updMemChan n f).pmu = s.pmu := rfl
@[simp] theorem updMemChan_sectors (s : State) (n : Nat) (f : MemChan → MemChan) : (s.updMemChan n f).sectors = s.sectors := rfl
@[simp] theorem updMemChan_sites (s : State) (n : Nat) (f : MemChan → MemChan) : (s.updMemChan n f).sites = s.sites := rfl
@[simp] theorem updMemChan_bursts (s : State) (n : Nat) (f : MemChan → MemChan) : (s.updMemChan n f).bursts = s.bursts := rfl
@[simp] theorem updMemChan_drainAt (s : State) (n : Nat) (f : MemChan → MemChan) : (s.updMemChan n f).drainAt = s.drainAt := rfl
@[simp] theorem updMemChan_streams (s : State) (n : Nat) (f : MemChan → MemChan) : (s.updMemChan n f).streams = s.streams := rfl
@[simp] theorem updMemChan_mergeAt (s : State) (n : Nat) (f : MemChan → MemChan) : (s.updMemChan n f).mergeAt = s.mergeAt := rfl
@[simp] theorem updMemChan_mergeNext (s : State) (n : Nat) (f : MemChan → MemChan) : (s.updMemChan n f).mergeNext = s.mergeNext := rfl
@[simp] theorem updMemChan_digs (s : State) (n : Nat) (f : MemChan → MemChan) : (s.updMemChan n f).digs = s.digs := rfl
@[simp] theorem updMemChan_tus (s : State) (n : Nat) (f : MemChan → MemChan) : (s.updMemChan n f).tus = s.tus := rfl
@[simp] theorem updMemChan_tb (s : State) (n : Nat) (f : MemChan → MemChan) : (s.updMemChan n f).tb = s.tb := rfl
@[simp] theorem updMemChan_awgs (s : State) (n : Nat) (f : MemChan → MemChan) : (s.updMemChan n f).awgs = s.awgs := rfl
@[simp] theorem updMemChan_dcss (s : State) (n : Nat) (f : MemChan → MemChan) : (s.updMemChan n f).dcss = s.dcss := rfl
@[simp] theorem updMemChan_engs (s : State) (n : Nat) (f : MemChan → MemChan) : (s.updMemChan n f).engs = s.engs := rfl
@[simp] theorem updMemChan_flt (s : State) (n : Nat) (f : MemChan → MemChan) : (s.updMemChan n f).flt = s.flt := rfl
@[simp] theorem updMemChan_thm (s : State) (n : Nat) (f : MemChan → MemChan) : (s.updMemChan n f).thm = s.thm := rfl
@[simp] theorem updMemChan_cal (s : State) (n : Nat) (f : MemChan → MemChan) : (s.updMemChan n f).cal = s.cal := rfl
@[simp] theorem updMemChan_grp (s : State) (n : Nat) (f : MemChan → MemChan) : (s.updMemChan n f).grp = s.grp := rfl
@[simp] theorem updMemChan_aux (s : State) (n : Nat) (f : MemChan → MemChan) : (s.updMemChan n f).aux = s.aux := rfl
@[simp] theorem updMemChan_mnt (s : State) (n : Nat) (f : MemChan → MemChan) : (s.updMemChan n f).mnt = s.mnt := rfl
@[simp] theorem updMemChan_tap (s : State) (n : Nat) (f : MemChan → MemChan) : (s.updMemChan n f).tap = s.tap := rfl

/-! ### updSet -/

@[simp] theorem updSet_same (s : State) (n : Nat) (f : StagedSet → StagedSet) : (s.updSet n f).set n = f (s.set n) :=
  Tab.get_set_same _ _ _ _

theorem updSet_other (s : State) {n m : Nat} (f : StagedSet → StagedSet) (h : m ≠ n) : (s.updSet n f).set m = s.set m :=
  Tab.get_set_other _ _ _ h

@[simp] theorem updSet_pending (s : State) (n : Nat) (f : StagedSet → StagedSet) : (s.updSet n f).pending = s.pending := rfl
@[simp] theorem updSet_now (s : State) (n : Nat) (f : StagedSet → StagedSet) : (s.updSet n f).now = s.now := rfl
@[simp] theorem updSet_free (s : State) (n : Nat) (f : StagedSet → StagedSet) : (s.updSet n f).free = s.free := rfl
@[simp] theorem updSet_tick (s : State) (n : Nat) (f : StagedSet → StagedSet) : (s.updSet n f).tick = s.tick := rfl
@[simp] theorem updSet_tickFrac (s : State) (n : Nat) (f : StagedSet → StagedSet) : (s.updSet n f).tickFrac = s.tickFrac := rfl
@[simp] theorem updSet_pwr (s : State) (n : Nat) (f : StagedSet → StagedSet) : (s.updSet n f).pwr = s.pwr := rfl
@[simp] theorem updSet_sweep (s : State) (n : Nat) (f : StagedSet → StagedSet) : (s.updSet n f).sweep = s.sweep := rfl
@[simp] theorem updSet_csq (s : State) (n : Nat) (f : StagedSet → StagedSet) : (s.updSet n f).csq = s.csq := rfl
@[simp] theorem updSet_host (s : State) (n : Nat) (f : StagedSet → StagedSet) : (s.updSet n f).host = s.host := rfl
@[simp] theorem updSet_chans (s : State) (n : Nat) (f : StagedSet → StagedSet) : (s.updSet n f).chans = s.chans := rfl
@[simp] theorem updSet_lgs (s : State) (n : Nat) (f : StagedSet → StagedSet) : (s.updSet n f).lgs = s.lgs := rfl
@[simp] theorem updSet_pmu (s : State) (n : Nat) (f : StagedSet → StagedSet) : (s.updSet n f).pmu = s.pmu := rfl
@[simp] theorem updSet_sectors (s : State) (n : Nat) (f : StagedSet → StagedSet) : (s.updSet n f).sectors = s.sectors := rfl
@[simp] theorem updSet_sites (s : State) (n : Nat) (f : StagedSet → StagedSet) : (s.updSet n f).sites = s.sites := rfl
@[simp] theorem updSet_bursts (s : State) (n : Nat) (f : StagedSet → StagedSet) : (s.updSet n f).bursts = s.bursts := rfl
@[simp] theorem updSet_drainAt (s : State) (n : Nat) (f : StagedSet → StagedSet) : (s.updSet n f).drainAt = s.drainAt := rfl
@[simp] theorem updSet_streams (s : State) (n : Nat) (f : StagedSet → StagedSet) : (s.updSet n f).streams = s.streams := rfl
@[simp] theorem updSet_mergeAt (s : State) (n : Nat) (f : StagedSet → StagedSet) : (s.updSet n f).mergeAt = s.mergeAt := rfl
@[simp] theorem updSet_mergeNext (s : State) (n : Nat) (f : StagedSet → StagedSet) : (s.updSet n f).mergeNext = s.mergeNext := rfl
@[simp] theorem updSet_digs (s : State) (n : Nat) (f : StagedSet → StagedSet) : (s.updSet n f).digs = s.digs := rfl
@[simp] theorem updSet_tus (s : State) (n : Nat) (f : StagedSet → StagedSet) : (s.updSet n f).tus = s.tus := rfl
@[simp] theorem updSet_tb (s : State) (n : Nat) (f : StagedSet → StagedSet) : (s.updSet n f).tb = s.tb := rfl
@[simp] theorem updSet_awgs (s : State) (n : Nat) (f : StagedSet → StagedSet) : (s.updSet n f).awgs = s.awgs := rfl
@[simp] theorem updSet_dcss (s : State) (n : Nat) (f : StagedSet → StagedSet) : (s.updSet n f).dcss = s.dcss := rfl
@[simp] theorem updSet_engs (s : State) (n : Nat) (f : StagedSet → StagedSet) : (s.updSet n f).engs = s.engs := rfl
@[simp] theorem updSet_mem (s : State) (n : Nat) (f : StagedSet → StagedSet) : (s.updSet n f).mem = s.mem := rfl
@[simp] theorem updSet_flt (s : State) (n : Nat) (f : StagedSet → StagedSet) : (s.updSet n f).flt = s.flt := rfl
@[simp] theorem updSet_thm (s : State) (n : Nat) (f : StagedSet → StagedSet) : (s.updSet n f).thm = s.thm := rfl
@[simp] theorem updSet_cal (s : State) (n : Nat) (f : StagedSet → StagedSet) : (s.updSet n f).cal = s.cal := rfl
@[simp] theorem updSet_grp (s : State) (n : Nat) (f : StagedSet → StagedSet) : (s.updSet n f).grp = s.grp := rfl
@[simp] theorem updSet_aux (s : State) (n : Nat) (f : StagedSet → StagedSet) : (s.updSet n f).aux = s.aux := rfl
@[simp] theorem updSet_mnt (s : State) (n : Nat) (f : StagedSet → StagedSet) : (s.updSet n f).mnt = s.mnt := rfl
@[simp] theorem updSet_tap (s : State) (n : Nat) (f : StagedSet → StagedSet) : (s.updSet n f).tap = s.tap := rfl

/-! ### updSlot -/

@[simp] theorem updSlot_pending (s : State) (id : Nat) (f : Slot → Slot) : (s.updSlot id f).pending = s.pending := by
  unfold State.updSlot; split <;> rfl
@[simp] theorem updSlot_now (s : State) (id : Nat) (f : Slot → Slot) : (s.updSlot id f).now = s.now := by
  unfold State.updSlot; split <;> rfl
@[simp] theorem updSlot_free (s : State) (id : Nat) (f : Slot → Slot) : (s.updSlot id f).free = s.free := by
  unfold State.updSlot; split <;> rfl
@[simp] theorem updSlot_tick (s : State) (id : Nat) (f : Slot → Slot) : (s.updSlot id f).tick = s.tick := by
  unfold State.updSlot; split <;> rfl
@[simp] theorem updSlot_tickFrac (s : State) (id : Nat) (f : Slot → Slot) : (s.updSlot id f).tickFrac = s.tickFrac := by
  unfold State.updSlot; split <;> rfl
@[simp] theorem updSlot_pwr (s : State) (id : Nat) (f : Slot → Slot) : (s.updSlot id f).pwr = s.pwr := by
  unfold State.updSlot; split <;> rfl
@[simp] theorem updSlot_sweep (s : State) (id : Nat) (f : Slot → Slot) : (s.updSlot id f).sweep = s.sweep := by
  unfold State.updSlot; split <;> rfl
@[simp] theorem updSlot_host (s : State) (id : Nat) (f : Slot → Slot) : (s.updSlot id f).host = s.host := by
  unfold State.updSlot; split <;> rfl
@[simp] theorem updSlot_stg (s : State) (id : Nat) (f : Slot → Slot) : (s.updSlot id f).stg = s.stg := by
  unfold State.updSlot; split <;> rfl
@[simp] theorem updSlot_chans (s : State) (id : Nat) (f : Slot → Slot) : (s.updSlot id f).chans = s.chans := by
  unfold State.updSlot; split <;> rfl
@[simp] theorem updSlot_lgs (s : State) (id : Nat) (f : Slot → Slot) : (s.updSlot id f).lgs = s.lgs := by
  unfold State.updSlot; split <;> rfl
@[simp] theorem updSlot_pmu (s : State) (id : Nat) (f : Slot → Slot) : (s.updSlot id f).pmu = s.pmu := by
  unfold State.updSlot; split <;> rfl
@[simp] theorem updSlot_sectors (s : State) (id : Nat) (f : Slot → Slot) : (s.updSlot id f).sectors = s.sectors := by
  unfold State.updSlot; split <;> rfl
@[simp] theorem updSlot_sites (s : State) (id : Nat) (f : Slot → Slot) : (s.updSlot id f).sites = s.sites := by
  unfold State.updSlot; split <;> rfl
@[simp] theorem updSlot_bursts (s : State) (id : Nat) (f : Slot → Slot) : (s.updSlot id f).bursts = s.bursts := by
  unfold State.updSlot; split <;> rfl
@[simp] theorem updSlot_drainAt (s : State) (id : Nat) (f : Slot → Slot) : (s.updSlot id f).drainAt = s.drainAt := by
  unfold State.updSlot; split <;> rfl
@[simp] theorem updSlot_streams (s : State) (id : Nat) (f : Slot → Slot) : (s.updSlot id f).streams = s.streams := by
  unfold State.updSlot; split <;> rfl
@[simp] theorem updSlot_mergeAt (s : State) (id : Nat) (f : Slot → Slot) : (s.updSlot id f).mergeAt = s.mergeAt := by
  unfold State.updSlot; split <;> rfl
@[simp] theorem updSlot_mergeNext (s : State) (id : Nat) (f : Slot → Slot) : (s.updSlot id f).mergeNext = s.mergeNext := by
  unfold State.updSlot; split <;> rfl
@[simp] theorem updSlot_digs (s : State) (id : Nat) (f : Slot → Slot) : (s.updSlot id f).digs = s.digs := by
  unfold State.updSlot; split <;> rfl
@[simp] theorem updSlot_tus (s : State) (id : Nat) (f : Slot → Slot) : (s.updSlot id f).tus = s.tus := by
  unfold State.updSlot; split <;> rfl
@[simp] theorem updSlot_tb (s : State) (id : Nat) (f : Slot → Slot) : (s.updSlot id f).tb = s.tb := by
  unfold State.updSlot; split <;> rfl
@[simp] theorem updSlot_awgs (s : State) (id : Nat) (f : Slot → Slot) : (s.updSlot id f).awgs = s.awgs := by
  unfold State.updSlot; split <;> rfl
@[simp] theorem updSlot_dcss (s : State) (id : Nat) (f : Slot → Slot) : (s.updSlot id f).dcss = s.dcss := by
  unfold State.updSlot; split <;> rfl
@[simp] theorem updSlot_engs (s : State) (id : Nat) (f : Slot → Slot) : (s.updSlot id f).engs = s.engs := by
  unfold State.updSlot; split <;> rfl
@[simp] theorem updSlot_mem (s : State) (id : Nat) (f : Slot → Slot) : (s.updSlot id f).mem = s.mem := by
  unfold State.updSlot; split <;> rfl
@[simp] theorem updSlot_flt (s : State) (id : Nat) (f : Slot → Slot) : (s.updSlot id f).flt = s.flt := by
  unfold State.updSlot; split <;> rfl
@[simp] theorem updSlot_thm (s : State) (id : Nat) (f : Slot → Slot) : (s.updSlot id f).thm = s.thm := by
  unfold State.updSlot; split <;> rfl
@[simp] theorem updSlot_cal (s : State) (id : Nat) (f : Slot → Slot) : (s.updSlot id f).cal = s.cal := by
  unfold State.updSlot; split <;> rfl
@[simp] theorem updSlot_grp (s : State) (id : Nat) (f : Slot → Slot) : (s.updSlot id f).grp = s.grp := by
  unfold State.updSlot; split <;> rfl
@[simp] theorem updSlot_aux (s : State) (id : Nat) (f : Slot → Slot) : (s.updSlot id f).aux = s.aux := by
  unfold State.updSlot; split <;> rfl
@[simp] theorem updSlot_mnt (s : State) (id : Nat) (f : Slot → Slot) : (s.updSlot id f).mnt = s.mnt := by
  unfold State.updSlot; split <;> rfl
@[simp] theorem updSlot_tap (s : State) (id : Nat) (f : Slot → Slot) : (s.updSlot id f).tap = s.tap := by
  unfold State.updSlot; split <;> rfl

/-! ### updBurst -/

@[simp] theorem updBurst_pending (s : State) (id : Nat) (f : Burst → Burst) : (s.updBurst id f).pending = s.pending := by
  unfold State.updBurst; split <;> rfl
@[simp] theorem updBurst_now (s : State) (id : Nat) (f : Burst → Burst) : (s.updBurst id f).now = s.now := by
  unfold State.updBurst; split <;> rfl
@[simp] theorem updBurst_free (s : State) (id : Nat) (f : Burst → Burst) : (s.updBurst id f).free = s.free := by
  unfold State.updBurst; split <;> rfl
@[simp] theorem updBurst_tick (s : State) (id : Nat) (f : Burst → Burst) : (s.updBurst id f).tick = s.tick := by
  unfold State.updBurst; split <;> rfl
@[simp] theorem updBurst_tickFrac (s : State) (id : Nat) (f : Burst → Burst) : (s.updBurst id f).tickFrac = s.tickFrac := by
  unfold State.updBurst; split <;> rfl
@[simp] theorem updBurst_pwr (s : State) (id : Nat) (f : Burst → Burst) : (s.updBurst id f).pwr = s.pwr := by
  unfold State.updBurst; split <;> rfl
@[simp] theorem updBurst_sweep (s : State) (id : Nat) (f : Burst → Burst) : (s.updBurst id f).sweep = s.sweep := by
  unfold State.updBurst; split <;> rfl
@[simp] theorem updBurst_csq (s : State) (id : Nat) (f : Burst → Burst) : (s.updBurst id f).csq = s.csq := by
  unfold State.updBurst; split <;> rfl
@[simp] theorem updBurst_host (s : State) (id : Nat) (f : Burst → Burst) : (s.updBurst id f).host = s.host := by
  unfold State.updBurst; split <;> rfl
@[simp] theorem updBurst_stg (s : State) (id : Nat) (f : Burst → Burst) : (s.updBurst id f).stg = s.stg := by
  unfold State.updBurst; split <;> rfl
@[simp] theorem updBurst_chans (s : State) (id : Nat) (f : Burst → Burst) : (s.updBurst id f).chans = s.chans := by
  unfold State.updBurst; split <;> rfl
@[simp] theorem updBurst_lgs (s : State) (id : Nat) (f : Burst → Burst) : (s.updBurst id f).lgs = s.lgs := by
  unfold State.updBurst; split <;> rfl
@[simp] theorem updBurst_pmu (s : State) (id : Nat) (f : Burst → Burst) : (s.updBurst id f).pmu = s.pmu := by
  unfold State.updBurst; split <;> rfl
@[simp] theorem updBurst_sectors (s : State) (id : Nat) (f : Burst → Burst) : (s.updBurst id f).sectors = s.sectors := by
  unfold State.updBurst; split <;> rfl
@[simp] theorem updBurst_sites (s : State) (id : Nat) (f : Burst → Burst) : (s.updBurst id f).sites = s.sites := by
  unfold State.updBurst; split <;> rfl
@[simp] theorem updBurst_drainAt (s : State) (id : Nat) (f : Burst → Burst) : (s.updBurst id f).drainAt = s.drainAt := by
  unfold State.updBurst; split <;> rfl
@[simp] theorem updBurst_streams (s : State) (id : Nat) (f : Burst → Burst) : (s.updBurst id f).streams = s.streams := by
  unfold State.updBurst; split <;> rfl
@[simp] theorem updBurst_mergeAt (s : State) (id : Nat) (f : Burst → Burst) : (s.updBurst id f).mergeAt = s.mergeAt := by
  unfold State.updBurst; split <;> rfl
@[simp] theorem updBurst_mergeNext (s : State) (id : Nat) (f : Burst → Burst) : (s.updBurst id f).mergeNext = s.mergeNext := by
  unfold State.updBurst; split <;> rfl
@[simp] theorem updBurst_digs (s : State) (id : Nat) (f : Burst → Burst) : (s.updBurst id f).digs = s.digs := by
  unfold State.updBurst; split <;> rfl
@[simp] theorem updBurst_tus (s : State) (id : Nat) (f : Burst → Burst) : (s.updBurst id f).tus = s.tus := by
  unfold State.updBurst; split <;> rfl
@[simp] theorem updBurst_tb (s : State) (id : Nat) (f : Burst → Burst) : (s.updBurst id f).tb = s.tb := by
  unfold State.updBurst; split <;> rfl
@[simp] theorem updBurst_awgs (s : State) (id : Nat) (f : Burst → Burst) : (s.updBurst id f).awgs = s.awgs := by
  unfold State.updBurst; split <;> rfl
@[simp] theorem updBurst_dcss (s : State) (id : Nat) (f : Burst → Burst) : (s.updBurst id f).dcss = s.dcss := by
  unfold State.updBurst; split <;> rfl
@[simp] theorem updBurst_engs (s : State) (id : Nat) (f : Burst → Burst) : (s.updBurst id f).engs = s.engs := by
  unfold State.updBurst; split <;> rfl
@[simp] theorem updBurst_mem (s : State) (id : Nat) (f : Burst → Burst) : (s.updBurst id f).mem = s.mem := by
  unfold State.updBurst; split <;> rfl
@[simp] theorem updBurst_flt (s : State) (id : Nat) (f : Burst → Burst) : (s.updBurst id f).flt = s.flt := by
  unfold State.updBurst; split <;> rfl
@[simp] theorem updBurst_thm (s : State) (id : Nat) (f : Burst → Burst) : (s.updBurst id f).thm = s.thm := by
  unfold State.updBurst; split <;> rfl
@[simp] theorem updBurst_cal (s : State) (id : Nat) (f : Burst → Burst) : (s.updBurst id f).cal = s.cal := by
  unfold State.updBurst; split <;> rfl
@[simp] theorem updBurst_grp (s : State) (id : Nat) (f : Burst → Burst) : (s.updBurst id f).grp = s.grp := by
  unfold State.updBurst; split <;> rfl
@[simp] theorem updBurst_aux (s : State) (id : Nat) (f : Burst → Burst) : (s.updBurst id f).aux = s.aux := by
  unfold State.updBurst; split <;> rfl
@[simp] theorem updBurst_mnt (s : State) (id : Nat) (f : Burst → Burst) : (s.updBurst id f).mnt = s.mnt := by
  unfold State.updBurst; split <;> rfl
@[simp] theorem updBurst_tap (s : State) (id : Nat) (f : Burst → Burst) : (s.updBurst id f).tap = s.tap := by
  unfold State.updBurst; split <;> rfl

/-! ### updWg -/

@[simp] theorem updWg_pending (s : State) (n g : Nat) (f : WinGen → WinGen) : (s.updWg n g f).pending = s.pending := rfl
@[simp] theorem updWg_now (s : State) (n g : Nat) (f : WinGen → WinGen) : (s.updWg n g f).now = s.now := rfl
@[simp] theorem updWg_free (s : State) (n g : Nat) (f : WinGen → WinGen) : (s.updWg n g f).free = s.free := rfl
@[simp] theorem updWg_tick (s : State) (n g : Nat) (f : WinGen → WinGen) : (s.updWg n g f).tick = s.tick := rfl
@[simp] theorem updWg_tickFrac (s : State) (n g : Nat) (f : WinGen → WinGen) : (s.updWg n g f).tickFrac = s.tickFrac := rfl
@[simp] theorem updWg_pwr (s : State) (n g : Nat) (f : WinGen → WinGen) : (s.updWg n g f).pwr = s.pwr := rfl
@[simp] theorem updWg_sweep (s : State) (n g : Nat) (f : WinGen → WinGen) : (s.updWg n g f).sweep = s.sweep := rfl
@[simp] theorem updWg_csq (s : State) (n g : Nat) (f : WinGen → WinGen) : (s.updWg n g f).csq = s.csq := rfl
@[simp] theorem updWg_host (s : State) (n g : Nat) (f : WinGen → WinGen) : (s.updWg n g f).host = s.host := rfl
@[simp] theorem updWg_stg (s : State) (n g : Nat) (f : WinGen → WinGen) : (s.updWg n g f).stg = s.stg := rfl
@[simp] theorem updWg_chans (s : State) (n g : Nat) (f : WinGen → WinGen) : (s.updWg n g f).chans = s.chans := rfl
@[simp] theorem updWg_lgs (s : State) (n g : Nat) (f : WinGen → WinGen) : (s.updWg n g f).lgs = s.lgs := rfl
@[simp] theorem updWg_pmu (s : State) (n g : Nat) (f : WinGen → WinGen) : (s.updWg n g f).pmu = s.pmu := rfl
@[simp] theorem updWg_sites (s : State) (n g : Nat) (f : WinGen → WinGen) : (s.updWg n g f).sites = s.sites := rfl
@[simp] theorem updWg_bursts (s : State) (n g : Nat) (f : WinGen → WinGen) : (s.updWg n g f).bursts = s.bursts := rfl
@[simp] theorem updWg_drainAt (s : State) (n g : Nat) (f : WinGen → WinGen) : (s.updWg n g f).drainAt = s.drainAt := rfl
@[simp] theorem updWg_streams (s : State) (n g : Nat) (f : WinGen → WinGen) : (s.updWg n g f).streams = s.streams := rfl
@[simp] theorem updWg_mergeAt (s : State) (n g : Nat) (f : WinGen → WinGen) : (s.updWg n g f).mergeAt = s.mergeAt := rfl
@[simp] theorem updWg_mergeNext (s : State) (n g : Nat) (f : WinGen → WinGen) : (s.updWg n g f).mergeNext = s.mergeNext := rfl
@[simp] theorem updWg_digs (s : State) (n g : Nat) (f : WinGen → WinGen) : (s.updWg n g f).digs = s.digs := rfl
@[simp] theorem updWg_tus (s : State) (n g : Nat) (f : WinGen → WinGen) : (s.updWg n g f).tus = s.tus := rfl
@[simp] theorem updWg_tb (s : State) (n g : Nat) (f : WinGen → WinGen) : (s.updWg n g f).tb = s.tb := rfl
@[simp] theorem updWg_awgs (s : State) (n g : Nat) (f : WinGen → WinGen) : (s.updWg n g f).awgs = s.awgs := rfl
@[simp] theorem updWg_dcss (s : State) (n g : Nat) (f : WinGen → WinGen) : (s.updWg n g f).dcss = s.dcss := rfl
@[simp] theorem updWg_engs (s : State) (n g : Nat) (f : WinGen → WinGen) : (s.updWg n g f).engs = s.engs := rfl
@[simp] theorem updWg_mem (s : State) (n g : Nat) (f : WinGen → WinGen) : (s.updWg n g f).mem = s.mem := rfl
@[simp] theorem updWg_flt (s : State) (n g : Nat) (f : WinGen → WinGen) : (s.updWg n g f).flt = s.flt := rfl
@[simp] theorem updWg_thm (s : State) (n g : Nat) (f : WinGen → WinGen) : (s.updWg n g f).thm = s.thm := rfl
@[simp] theorem updWg_cal (s : State) (n g : Nat) (f : WinGen → WinGen) : (s.updWg n g f).cal = s.cal := rfl
@[simp] theorem updWg_grp (s : State) (n g : Nat) (f : WinGen → WinGen) : (s.updWg n g f).grp = s.grp := rfl
@[simp] theorem updWg_aux (s : State) (n g : Nat) (f : WinGen → WinGen) : (s.updWg n g f).aux = s.aux := rfl
@[simp] theorem updWg_mnt (s : State) (n g : Nat) (f : WinGen → WinGen) : (s.updWg n g f).mnt = s.mnt := rfl
@[simp] theorem updWg_tap (s : State) (n g : Nat) (f : WinGen → WinGen) : (s.updWg n g f).tap = s.tap := rfl

/-! ### leaveCtx -/

@[simp] theorem leaveCtx_pending (s : State) (c id : Nat) : (leaveCtx s c id).pending = s.pending := rfl
@[simp] theorem leaveCtx_now (s : State) (c id : Nat) : (leaveCtx s c id).now = s.now := rfl
@[simp] theorem leaveCtx_free (s : State) (c id : Nat) : (leaveCtx s c id).free = s.free := rfl
@[simp] theorem leaveCtx_tick (s : State) (c id : Nat) : (leaveCtx s c id).tick = s.tick := rfl
@[simp] theorem leaveCtx_tickFrac (s : State) (c id : Nat) : (leaveCtx s c id).tickFrac = s.tickFrac := rfl
@[simp] theorem leaveCtx_pwr (s : State) (c id : Nat) : (leaveCtx s c id).pwr = s.pwr := rfl
@[simp] theorem leaveCtx_sweep (s : State) (c id : Nat) : (leaveCtx s c id).sweep = s.sweep := rfl
@[simp] theorem leaveCtx_host (s : State) (c id : Nat) : (leaveCtx s c id).host = s.host := rfl
@[simp] theorem leaveCtx_stg (s : State) (c id : Nat) : (leaveCtx s c id).stg = s.stg := rfl
@[simp] theorem leaveCtx_chans (s : State) (c id : Nat) : (leaveCtx s c id).chans = s.chans := rfl
@[simp] theorem leaveCtx_lgs (s : State) (c id : Nat) : (leaveCtx s c id).lgs = s.lgs := rfl
@[simp] theorem leaveCtx_pmu (s : State) (c id : Nat) : (leaveCtx s c id).pmu = s.pmu := rfl
@[simp] theorem leaveCtx_sectors (s : State) (c id : Nat) : (leaveCtx s c id).sectors = s.sectors := rfl
@[simp] theorem leaveCtx_sites (s : State) (c id : Nat) : (leaveCtx s c id).sites = s.sites := rfl
@[simp] theorem leaveCtx_bursts (s : State) (c id : Nat) : (leaveCtx s c id).bursts = s.bursts := rfl
@[simp] theorem leaveCtx_drainAt (s : State) (c id : Nat) : (leaveCtx s c id).drainAt = s.drainAt := rfl
@[simp] theorem leaveCtx_streams (s : State) (c id : Nat) : (leaveCtx s c id).streams = s.streams := rfl
@[simp] theorem leaveCtx_mergeAt (s : State) (c id : Nat) : (leaveCtx s c id).mergeAt = s.mergeAt := rfl
@[simp] theorem leaveCtx_mergeNext (s : State) (c id : Nat) : (leaveCtx s c id).mergeNext = s.mergeNext := rfl
@[simp] theorem leaveCtx_digs (s : State) (c id : Nat) : (leaveCtx s c id).digs = s.digs := rfl
@[simp] theorem leaveCtx_tus (s : State) (c id : Nat) : (leaveCtx s c id).tus = s.tus := rfl
@[simp] theorem leaveCtx_tb (s : State) (c id : Nat) : (leaveCtx s c id).tb = s.tb := rfl
@[simp] theorem leaveCtx_awgs (s : State) (c id : Nat) : (leaveCtx s c id).awgs = s.awgs := rfl
@[simp] theorem leaveCtx_dcss (s : State) (c id : Nat) : (leaveCtx s c id).dcss = s.dcss := rfl
@[simp] theorem leaveCtx_engs (s : State) (c id : Nat) : (leaveCtx s c id).engs = s.engs := rfl
@[simp] theorem leaveCtx_mem (s : State) (c id : Nat) : (leaveCtx s c id).mem = s.mem := rfl
@[simp] theorem leaveCtx_flt (s : State) (c id : Nat) : (leaveCtx s c id).flt = s.flt := rfl
@[simp] theorem leaveCtx_thm (s : State) (c id : Nat) : (leaveCtx s c id).thm = s.thm := rfl
@[simp] theorem leaveCtx_cal (s : State) (c id : Nat) : (leaveCtx s c id).cal = s.cal := rfl
@[simp] theorem leaveCtx_grp (s : State) (c id : Nat) : (leaveCtx s c id).grp = s.grp := rfl
@[simp] theorem leaveCtx_aux (s : State) (c id : Nat) : (leaveCtx s c id).aux = s.aux := rfl
@[simp] theorem leaveCtx_mnt (s : State) (c id : Nat) : (leaveCtx s c id).mnt = s.mnt := rfl
@[simp] theorem leaveCtx_tap (s : State) (c id : Nat) : (leaveCtx s c id).tap = s.tap := rfl

/-! ### park -/

@[simp] theorem park_pending (s : State) (id : Nat) (w : Wait) : (park s id w).pending = s.pending := by
  unfold park; split; · split <;> simp
  · rfl
@[simp] theorem park_now (s : State) (id : Nat) (w : Wait) : (park s id w).now = s.now := by
  unfold park; split; · split <;> simp
  · rfl
@[simp] theorem park_free (s : State) (id : Nat) (w : Wait) : (park s id w).free = s.free := by
  unfold park; split; · split <;> simp
  · rfl
@[simp] theorem park_tick (s : State) (id : Nat) (w : Wait) : (park s id w).tick = s.tick := by
  unfold park; split; · split <;> simp
  · rfl
@[simp] theorem park_tickFrac (s : State) (id : Nat) (w : Wait) : (park s id w).tickFrac = s.tickFrac := by
  unfold park; split; · split <;> simp
  · rfl
@[simp] theorem park_pwr (s : State) (id : Nat) (w : Wait) : (park s id w).pwr = s.pwr := by
  unfold park; split; · split <;> simp
  · rfl
@[simp] theorem park_sweep (s : State) (id : Nat) (w : Wait) : (park s id w).sweep = s.sweep := by
  unfold park; split; · split <;> simp
  · rfl
@[simp] theorem park_host (s : State) (id : Nat) (w : Wait) : (park s id w).host = s.host := by
  unfold park; split; · split <;> simp
  · rfl
@[simp] theorem park_stg (s : State) (id : Nat) (w : Wait) : (park s id w).stg = s.stg := by
  unfold park; split; · split <;> simp
  · rfl
@[simp] theorem park_chans (s : State) (id : Nat) (w : Wait) : (park s id w).chans = s.chans := by
  unfold park; split; · split <;> simp
  · rfl
@[simp] theorem park_lgs (s : State) (id : Nat) (w : Wait) : (park s id w).lgs = s.lgs := by
  unfold park; split; · split <;> simp
  · rfl
@[simp] theorem park_pmu (s : State) (id : Nat) (w : Wait) : (park s id w).pmu = s.pmu := by
  unfold park; split; · split <;> simp
  · rfl
@[simp] theorem park_sectors (s : State) (id : Nat) (w : Wait) : (park s id w).sectors = s.sectors := by
  unfold park; split; · split <;> simp
  · rfl
@[simp] theorem park_sites (s : State) (id : Nat) (w : Wait) : (park s id w).sites = s.sites := by
  unfold park; split; · split <;> simp
  · rfl
@[simp] theorem park_bursts (s : State) (id : Nat) (w : Wait) : (park s id w).bursts = s.bursts := by
  unfold park; split; · split <;> simp
  · rfl
@[simp] theorem park_drainAt (s : State) (id : Nat) (w : Wait) : (park s id w).drainAt = s.drainAt := by
  unfold park; split; · split <;> simp
  · rfl
@[simp] theorem park_streams (s : State) (id : Nat) (w : Wait) : (park s id w).streams = s.streams := by
  unfold park; split; · split <;> simp
  · rfl
@[simp] theorem park_mergeAt (s : State) (id : Nat) (w : Wait) : (park s id w).mergeAt = s.mergeAt := by
  unfold park; split; · split <;> simp
  · rfl
@[simp] theorem park_mergeNext (s : State) (id : Nat) (w : Wait) : (park s id w).mergeNext = s.mergeNext := by
  unfold park; split; · split <;> simp
  · rfl
@[simp] theorem park_digs (s : State) (id : Nat) (w : Wait) : (park s id w).digs = s.digs := by
  unfold park; split; · split <;> simp
  · rfl
@[simp] theorem park_tus (s : State) (id : Nat) (w : Wait) : (park s id w).tus = s.tus := by
  unfold park; split; · split <;> simp
  · rfl
@[simp] theorem park_tb (s : State) (id : Nat) (w : Wait) : (park s id w).tb = s.tb := by
  unfold park; split; · split <;> simp
  · rfl
@[simp] theorem park_awgs (s : State) (id : Nat) (w : Wait) : (park s id w).awgs = s.awgs := by
  unfold park; split; · split <;> simp
  · rfl
@[simp] theorem park_dcss (s : State) (id : Nat) (w : Wait) : (park s id w).dcss = s.dcss := by
  unfold park; split; · split <;> simp
  · rfl
@[simp] theorem park_engs (s : State) (id : Nat) (w : Wait) : (park s id w).engs = s.engs := by
  unfold park; split; · split <;> simp
  · rfl
@[simp] theorem park_mem (s : State) (id : Nat) (w : Wait) : (park s id w).mem = s.mem := by
  unfold park; split; · split <;> simp
  · rfl
@[simp] theorem park_flt (s : State) (id : Nat) (w : Wait) : (park s id w).flt = s.flt := by
  unfold park; split; · split <;> simp
  · rfl
@[simp] theorem park_thm (s : State) (id : Nat) (w : Wait) : (park s id w).thm = s.thm := by
  unfold park; split; · split <;> simp
  · rfl
@[simp] theorem park_cal (s : State) (id : Nat) (w : Wait) : (park s id w).cal = s.cal := by
  unfold park; split; · split <;> simp
  · rfl
@[simp] theorem park_grp (s : State) (id : Nat) (w : Wait) : (park s id w).grp = s.grp := by
  unfold park; split; · split <;> simp
  · rfl
@[simp] theorem park_aux (s : State) (id : Nat) (w : Wait) : (park s id w).aux = s.aux := by
  unfold park; split; · split <;> simp
  · rfl
@[simp] theorem park_mnt (s : State) (id : Nat) (w : Wait) : (park s id w).mnt = s.mnt := by
  unfold park; split; · split <;> simp
  · rfl
@[simp] theorem park_tap (s : State) (id : Nat) (w : Wait) : (park s id w).tap = s.tap := by
  unfold park; split; · split <;> simp
  · rfl

/-! ### setRing -/

@[simp] theorem setRing_pending (s : State) (k : RingKind) (n : Nat) (r : Ring) : (s.setRing k n r).pending = s.pending := by cases k <;> rfl
@[simp] theorem setRing_now (s : State) (k : RingKind) (n : Nat) (r : Ring) : (s.setRing k n r).now = s.now := by cases k <;> rfl
@[simp] theorem setRing_free (s : State) (k : RingKind) (n : Nat) (r : Ring) : (s.setRing k n r).free = s.free := by cases k <;> rfl
@[simp] theorem setRing_tick (s : State) (k : RingKind) (n : Nat) (r : Ring) : (s.setRing k n r).tick = s.tick := by cases k <;> rfl
@[simp] theorem setRing_tickFrac (s : State) (k : RingKind) (n : Nat) (r : Ring) : (s.setRing k n r).tickFrac = s.tickFrac := by cases k <;> rfl
@[simp] theorem setRing_pwr (s : State) (k : RingKind) (n : Nat) (r : Ring) : (s.setRing k n r).pwr = s.pwr := by cases k <;> rfl
@[simp] theorem setRing_sweep (s : State) (k : RingKind) (n : Nat) (r : Ring) : (s.setRing k n r).sweep = s.sweep := by cases k <;> rfl
@[simp] theorem setRing_csq (s : State) (k : RingKind) (n : Nat) (r : Ring) : (s.setRing k n r).csq = s.csq := by cases k <;> rfl
@[simp] theorem setRing_stg (s : State) (k : RingKind) (n : Nat) (r : Ring) : (s.setRing k n r).stg = s.stg := by cases k <;> rfl
@[simp] theorem setRing_chans (s : State) (k : RingKind) (n : Nat) (r : Ring) : (s.setRing k n r).chans = s.chans := by cases k <;> rfl
@[simp] theorem setRing_lgs (s : State) (k : RingKind) (n : Nat) (r : Ring) : (s.setRing k n r).lgs = s.lgs := by cases k <;> rfl
@[simp] theorem setRing_pmu (s : State) (k : RingKind) (n : Nat) (r : Ring) : (s.setRing k n r).pmu = s.pmu := by cases k <;> rfl
@[simp] theorem setRing_sectors (s : State) (k : RingKind) (n : Nat) (r : Ring) : (s.setRing k n r).sectors = s.sectors := by cases k <;> rfl
@[simp] theorem setRing_sites (s : State) (k : RingKind) (n : Nat) (r : Ring) : (s.setRing k n r).sites = s.sites := by cases k <;> rfl
@[simp] theorem setRing_bursts (s : State) (k : RingKind) (n : Nat) (r : Ring) : (s.setRing k n r).bursts = s.bursts := by cases k <;> rfl
@[simp] theorem setRing_drainAt (s : State) (k : RingKind) (n : Nat) (r : Ring) : (s.setRing k n r).drainAt = s.drainAt := by cases k <;> rfl
@[simp] theorem setRing_streams (s : State) (k : RingKind) (n : Nat) (r : Ring) : (s.setRing k n r).streams = s.streams := by cases k <;> rfl
@[simp] theorem setRing_mergeAt (s : State) (k : RingKind) (n : Nat) (r : Ring) : (s.setRing k n r).mergeAt = s.mergeAt := by cases k <;> rfl
@[simp] theorem setRing_mergeNext (s : State) (k : RingKind) (n : Nat) (r : Ring) : (s.setRing k n r).mergeNext = s.mergeNext := by cases k <;> rfl
@[simp] theorem setRing_digs (s : State) (k : RingKind) (n : Nat) (r : Ring) : (s.setRing k n r).digs = s.digs := by cases k <;> rfl
@[simp] theorem setRing_tus (s : State) (k : RingKind) (n : Nat) (r : Ring) : (s.setRing k n r).tus = s.tus := by cases k <;> rfl
@[simp] theorem setRing_tb (s : State) (k : RingKind) (n : Nat) (r : Ring) : (s.setRing k n r).tb = s.tb := by cases k <;> rfl
@[simp] theorem setRing_awgs (s : State) (k : RingKind) (n : Nat) (r : Ring) : (s.setRing k n r).awgs = s.awgs := by cases k <;> rfl
@[simp] theorem setRing_dcss (s : State) (k : RingKind) (n : Nat) (r : Ring) : (s.setRing k n r).dcss = s.dcss := by cases k <;> rfl
@[simp] theorem setRing_engs (s : State) (k : RingKind) (n : Nat) (r : Ring) : (s.setRing k n r).engs = s.engs := by cases k <;> rfl
@[simp] theorem setRing_mem (s : State) (k : RingKind) (n : Nat) (r : Ring) : (s.setRing k n r).mem = s.mem := by cases k <;> rfl
@[simp] theorem setRing_flt (s : State) (k : RingKind) (n : Nat) (r : Ring) : (s.setRing k n r).flt = s.flt := by cases k <;> rfl
@[simp] theorem setRing_thm (s : State) (k : RingKind) (n : Nat) (r : Ring) : (s.setRing k n r).thm = s.thm := by cases k <;> rfl
@[simp] theorem setRing_cal (s : State) (k : RingKind) (n : Nat) (r : Ring) : (s.setRing k n r).cal = s.cal := by cases k <;> rfl
@[simp] theorem setRing_grp (s : State) (k : RingKind) (n : Nat) (r : Ring) : (s.setRing k n r).grp = s.grp := by cases k <;> rfl
@[simp] theorem setRing_aux (s : State) (k : RingKind) (n : Nat) (r : Ring) : (s.setRing k n r).aux = s.aux := by cases k <;> rfl
@[simp] theorem setRing_mnt (s : State) (k : RingKind) (n : Nat) (r : Ring) : (s.setRing k n r).mnt = s.mnt := by cases k <;> rfl
@[simp] theorem setRing_tap (s : State) (k : RingKind) (n : Nat) (r : Ring) : (s.setRing k n r).tap = s.tap := by cases k <;> rfl

/-! ### updRing -/

@[simp] theorem updRing_pending (s : State) (k : RingKind) (n : Nat) (f : Ring → Ring) : (s.updRing k n f).pending = s.pending := setRing_pending s k n _
@[simp] theorem updRing_now (s : State) (k : RingKind) (n : Nat) (f : Ring → Ring) : (s.updRing k n f).now = s.now := setRing_now s k n _
@[simp] theorem updRing_free (s : State) (k : RingKind) (n : Nat) (f : Ring → Ring) : (s.updRing k n f).free = s.free := setRing_free s k n _
@[simp] theorem updRing_tick (s : State) (k : RingKind) (n : Nat) (f : Ring → Ring) : (s.updRing k n f).tick = s.tick := setRing_tick s k n _
@[simp] theorem updRing_tickFrac (s : State) (k : RingKind) (n : Nat) (f : Ring → Ring) : (s.updRing k n f).tickFrac = s.tickFrac := setRing_tickFrac s k n _
@[simp] theorem updRing_pwr (s : State) (k : RingKind) (n : Nat) (f : Ring → Ring) : (s.updRing k n f).pwr = s.pwr := setRing_pwr s k n _
@[simp] theorem updRing_sweep (s : State) (k : RingKind) (n : Nat) (f : Ring → Ring) : (s.updRing k n f).sweep = s.sweep := setRing_sweep s k n _
@[simp] theorem updRing_csq (s : State) (k : RingKind) (n : Nat) (f : Ring → Ring) : (s.updRing k n f).csq = s.csq := setRing_csq s k n _
@[simp] theorem updRing_stg (s : State) (k : RingKind) (n : Nat) (f : Ring → Ring) : (s.updRing k n f).stg = s.stg := setRing_stg s k n _
@[simp] theorem updRing_chans (s : State) (k : RingKind) (n : Nat) (f : Ring → Ring) : (s.updRing k n f).chans = s.chans := setRing_chans s k n _
@[simp] theorem updRing_lgs (s : State) (k : RingKind) (n : Nat) (f : Ring → Ring) : (s.updRing k n f).lgs = s.lgs := setRing_lgs s k n _
@[simp] theorem updRing_pmu (s : State) (k : RingKind) (n : Nat) (f : Ring → Ring) : (s.updRing k n f).pmu = s.pmu := setRing_pmu s k n _
@[simp] theorem updRing_sectors (s : State) (k : RingKind) (n : Nat) (f : Ring → Ring) : (s.updRing k n f).sectors = s.sectors := setRing_sectors s k n _
@[simp] theorem updRing_sites (s : State) (k : RingKind) (n : Nat) (f : Ring → Ring) : (s.updRing k n f).sites = s.sites := setRing_sites s k n _
@[simp] theorem updRing_bursts (s : State) (k : RingKind) (n : Nat) (f : Ring → Ring) : (s.updRing k n f).bursts = s.bursts := setRing_bursts s k n _
@[simp] theorem updRing_drainAt (s : State) (k : RingKind) (n : Nat) (f : Ring → Ring) : (s.updRing k n f).drainAt = s.drainAt := setRing_drainAt s k n _
@[simp] theorem updRing_streams (s : State) (k : RingKind) (n : Nat) (f : Ring → Ring) : (s.updRing k n f).streams = s.streams := setRing_streams s k n _
@[simp] theorem updRing_mergeAt (s : State) (k : RingKind) (n : Nat) (f : Ring → Ring) : (s.updRing k n f).mergeAt = s.mergeAt := setRing_mergeAt s k n _
@[simp] theorem updRing_mergeNext (s : State) (k : RingKind) (n : Nat) (f : Ring → Ring) : (s.updRing k n f).mergeNext = s.mergeNext := setRing_mergeNext s k n _
@[simp] theorem updRing_digs (s : State) (k : RingKind) (n : Nat) (f : Ring → Ring) : (s.updRing k n f).digs = s.digs := setRing_digs s k n _
@[simp] theorem updRing_tus (s : State) (k : RingKind) (n : Nat) (f : Ring → Ring) : (s.updRing k n f).tus = s.tus := setRing_tus s k n _
@[simp] theorem updRing_tb (s : State) (k : RingKind) (n : Nat) (f : Ring → Ring) : (s.updRing k n f).tb = s.tb := setRing_tb s k n _
@[simp] theorem updRing_awgs (s : State) (k : RingKind) (n : Nat) (f : Ring → Ring) : (s.updRing k n f).awgs = s.awgs := setRing_awgs s k n _
@[simp] theorem updRing_dcss (s : State) (k : RingKind) (n : Nat) (f : Ring → Ring) : (s.updRing k n f).dcss = s.dcss := setRing_dcss s k n _
@[simp] theorem updRing_engs (s : State) (k : RingKind) (n : Nat) (f : Ring → Ring) : (s.updRing k n f).engs = s.engs := setRing_engs s k n _
@[simp] theorem updRing_mem (s : State) (k : RingKind) (n : Nat) (f : Ring → Ring) : (s.updRing k n f).mem = s.mem := setRing_mem s k n _
@[simp] theorem updRing_flt (s : State) (k : RingKind) (n : Nat) (f : Ring → Ring) : (s.updRing k n f).flt = s.flt := setRing_flt s k n _
@[simp] theorem updRing_thm (s : State) (k : RingKind) (n : Nat) (f : Ring → Ring) : (s.updRing k n f).thm = s.thm := setRing_thm s k n _
@[simp] theorem updRing_cal (s : State) (k : RingKind) (n : Nat) (f : Ring → Ring) : (s.updRing k n f).cal = s.cal := setRing_cal s k n _
@[simp] theorem updRing_grp (s : State) (k : RingKind) (n : Nat) (f : Ring → Ring) : (s.updRing k n f).grp = s.grp := setRing_grp s k n _
@[simp] theorem updRing_aux (s : State) (k : RingKind) (n : Nat) (f : Ring → Ring) : (s.updRing k n f).aux = s.aux := setRing_aux s k n _
@[simp] theorem updRing_mnt (s : State) (k : RingKind) (n : Nat) (f : Ring → Ring) : (s.updRing k n f).mnt = s.mnt := setRing_mnt s k n _
@[simp] theorem updRing_tap (s : State) (k : RingKind) (n : Nat) (f : Ring → Ring) : (s.updRing k n f).tap = s.tap := setRing_tap s k n _

/-! ### emit -/

@[simp] theorem emit_pending (s : State) (m : HMsg) : (emit s m).pending = s.pending := by unfold emit; split <;> rfl
@[simp] theorem emit_now (s : State) (m : HMsg) : (emit s m).now = s.now := by unfold emit; split <;> rfl
@[simp] theorem emit_free (s : State) (m : HMsg) : (emit s m).free = s.free := by unfold emit; split <;> rfl
@[simp] theorem emit_tick (s : State) (m : HMsg) : (emit s m).tick = s.tick := by unfold emit; split <;> rfl
@[simp] theorem emit_tickFrac (s : State) (m : HMsg) : (emit s m).tickFrac = s.tickFrac := by unfold emit; split <;> rfl
@[simp] theorem emit_pwr (s : State) (m : HMsg) : (emit s m).pwr = s.pwr := by unfold emit; split <;> rfl
@[simp] theorem emit_sweep (s : State) (m : HMsg) : (emit s m).sweep = s.sweep := by unfold emit; split <;> rfl
@[simp] theorem emit_csq (s : State) (m : HMsg) : (emit s m).csq = s.csq := by unfold emit; split <;> rfl
@[simp] theorem emit_stg (s : State) (m : HMsg) : (emit s m).stg = s.stg := by unfold emit; split <;> rfl
@[simp] theorem emit_chans (s : State) (m : HMsg) : (emit s m).chans = s.chans := by unfold emit; split <;> rfl
@[simp] theorem emit_lgs (s : State) (m : HMsg) : (emit s m).lgs = s.lgs := by unfold emit; split <;> rfl
@[simp] theorem emit_pmu (s : State) (m : HMsg) : (emit s m).pmu = s.pmu := by unfold emit; split <;> rfl
@[simp] theorem emit_sectors (s : State) (m : HMsg) : (emit s m).sectors = s.sectors := by unfold emit; split <;> rfl
@[simp] theorem emit_sites (s : State) (m : HMsg) : (emit s m).sites = s.sites := by unfold emit; split <;> rfl
@[simp] theorem emit_bursts (s : State) (m : HMsg) : (emit s m).bursts = s.bursts := by unfold emit; split <;> rfl
@[simp] theorem emit_drainAt (s : State) (m : HMsg) : (emit s m).drainAt = s.drainAt := by unfold emit; split <;> rfl
@[simp] theorem emit_streams (s : State) (m : HMsg) : (emit s m).streams = s.streams := by unfold emit; split <;> rfl
@[simp] theorem emit_mergeAt (s : State) (m : HMsg) : (emit s m).mergeAt = s.mergeAt := by unfold emit; split <;> rfl
@[simp] theorem emit_mergeNext (s : State) (m : HMsg) : (emit s m).mergeNext = s.mergeNext := by unfold emit; split <;> rfl
@[simp] theorem emit_digs (s : State) (m : HMsg) : (emit s m).digs = s.digs := by unfold emit; split <;> rfl
@[simp] theorem emit_tus (s : State) (m : HMsg) : (emit s m).tus = s.tus := by unfold emit; split <;> rfl
@[simp] theorem emit_tb (s : State) (m : HMsg) : (emit s m).tb = s.tb := by unfold emit; split <;> rfl
@[simp] theorem emit_awgs (s : State) (m : HMsg) : (emit s m).awgs = s.awgs := by unfold emit; split <;> rfl
@[simp] theorem emit_dcss (s : State) (m : HMsg) : (emit s m).dcss = s.dcss := by unfold emit; split <;> rfl
@[simp] theorem emit_engs (s : State) (m : HMsg) : (emit s m).engs = s.engs := by unfold emit; split <;> rfl
@[simp] theorem emit_mem (s : State) (m : HMsg) : (emit s m).mem = s.mem := by unfold emit; split <;> rfl
@[simp] theorem emit_flt (s : State) (m : HMsg) : (emit s m).flt = s.flt := by unfold emit; split <;> rfl
@[simp] theorem emit_thm (s : State) (m : HMsg) : (emit s m).thm = s.thm := by unfold emit; split <;> rfl
@[simp] theorem emit_cal (s : State) (m : HMsg) : (emit s m).cal = s.cal := by unfold emit; split <;> rfl
@[simp] theorem emit_grp (s : State) (m : HMsg) : (emit s m).grp = s.grp := by unfold emit; split <;> rfl
@[simp] theorem emit_aux (s : State) (m : HMsg) : (emit s m).aux = s.aux := by unfold emit; split <;> rfl
@[simp] theorem emit_mnt (s : State) (m : HMsg) : (emit s m).mnt = s.mnt := by unfold emit; split <;> rfl
@[simp] theorem emit_tap (s : State) (m : HMsg) : (emit s m).tap = s.tap := by unfold emit; split <;> rfl

/-! ### signal -/

@[simp] theorem signal_pending (s : State) (v : Nat) : (signal s v).pending = s.pending := by
  unfold signal; split; · simp
  · rfl
@[simp] theorem signal_now (s : State) (v : Nat) : (signal s v).now = s.now := by
  unfold signal; split; · simp
  · rfl
@[simp] theorem signal_free (s : State) (v : Nat) : (signal s v).free = s.free := by
  unfold signal; split; · simp
  · rfl
@[simp] theorem signal_tick (s : State) (v : Nat) : (signal s v).tick = s.tick := by
  unfold signal; split; · simp
  · rfl
@[simp] theorem signal_tickFrac (s : State) (v : Nat) : (signal s v).tickFrac = s.tickFrac := by
  unfold signal; split; · simp
  · rfl
@[simp] theorem signal_pwr (s : State) (v : Nat) : (signal s v).pwr = s.pwr := by
  unfold signal; split; · simp
  · rfl
@[simp] theorem signal_sweep (s : State) (v : Nat) : (signal s v).sweep = s.sweep := by
  unfold signal; split; · simp
  · rfl
@[simp] theorem signal_csq (s : State) (v : Nat) : (signal s v).csq = s.csq := by
  unfold signal; split; · simp
  · rfl
@[simp] theorem signal_stg (s : State) (v : Nat) : (signal s v).stg = s.stg := by
  unfold signal; split; · simp
  · rfl
@[simp] theorem signal_chans (s : State) (v : Nat) : (signal s v).chans = s.chans := by
  unfold signal; split; · simp
  · rfl
@[simp] theorem signal_lgs (s : State) (v : Nat) : (signal s v).lgs = s.lgs := by
  unfold signal; split; · simp
  · rfl
@[simp] theorem signal_pmu (s : State) (v : Nat) : (signal s v).pmu = s.pmu := by
  unfold signal; split; · simp
  · rfl
@[simp] theorem signal_sectors (s : State) (v : Nat) : (signal s v).sectors = s.sectors := by
  unfold signal; split; · simp
  · rfl
@[simp] theorem signal_sites (s : State) (v : Nat) : (signal s v).sites = s.sites := by
  unfold signal; split; · simp
  · rfl
@[simp] theorem signal_bursts (s : State) (v : Nat) : (signal s v).bursts = s.bursts := by
  unfold signal; split; · simp
  · rfl
@[simp] theorem signal_drainAt (s : State) (v : Nat) : (signal s v).drainAt = s.drainAt := by
  unfold signal; split; · simp
  · rfl
@[simp] theorem signal_streams (s : State) (v : Nat) : (signal s v).streams = s.streams := by
  unfold signal; split; · simp
  · rfl
@[simp] theorem signal_mergeAt (s : State) (v : Nat) : (signal s v).mergeAt = s.mergeAt := by
  unfold signal; split; · simp
  · rfl
@[simp] theorem signal_mergeNext (s : State) (v : Nat) : (signal s v).mergeNext = s.mergeNext := by
  unfold signal; split; · simp
  · rfl
@[simp] theorem signal_digs (s : State) (v : Nat) : (signal s v).digs = s.digs := by
  unfold signal; split; · simp
  · rfl
@[simp] theorem signal_tus (s : State) (v : Nat) : (signal s v).tus = s.tus := by
  unfold signal; split; · simp
  · rfl
@[simp] theorem signal_tb (s : State) (v : Nat) : (signal s v).tb = s.tb := by
  unfold signal; split; · simp
  · rfl
@[simp] theorem signal_awgs (s : State) (v : Nat) : (signal s v).awgs = s.awgs := by
  unfold signal; split; · simp
  · rfl
@[simp] theorem signal_dcss (s : State) (v : Nat) : (signal s v).dcss = s.dcss := by
  unfold signal; split; · simp
  · rfl
@[simp] theorem signal_engs (s : State) (v : Nat) : (signal s v).engs = s.engs := by
  unfold signal; split; · simp
  · rfl
@[simp] theorem signal_mem (s : State) (v : Nat) : (signal s v).mem = s.mem := by
  unfold signal; split; · simp
  · rfl
@[simp] theorem signal_flt (s : State) (v : Nat) : (signal s v).flt = s.flt := by
  unfold signal; split; · simp
  · rfl
@[simp] theorem signal_thm (s : State) (v : Nat) : (signal s v).thm = s.thm := by
  unfold signal; split; · simp
  · rfl
@[simp] theorem signal_cal (s : State) (v : Nat) : (signal s v).cal = s.cal := by
  unfold signal; split; · simp
  · rfl
@[simp] theorem signal_grp (s : State) (v : Nat) : (signal s v).grp = s.grp := by
  unfold signal; split; · simp
  · rfl
@[simp] theorem signal_aux (s : State) (v : Nat) : (signal s v).aux = s.aux := by
  unfold signal; split; · simp
  · rfl
@[simp] theorem signal_mnt (s : State) (v : Nat) : (signal s v).mnt = s.mnt := by
  unfold signal; split; · simp
  · rfl
@[simp] theorem signal_tap (s : State) (v : Nat) : (signal s v).tap = s.tap := by
  unfold signal; split; · simp
  · rfl

/-! ### writeShadow -/

@[simp] theorem writeShadow_pending (s : State) (r : Ring) (i : Nat) : (writeShadow s r i).pending = s.pending := by
  unfold writeShadow; split <;> simp
@[simp] theorem writeShadow_now (s : State) (r : Ring) (i : Nat) : (writeShadow s r i).now = s.now := by
  unfold writeShadow; split <;> simp
@[simp] theorem writeShadow_free (s : State) (r : Ring) (i : Nat) : (writeShadow s r i).free = s.free := by
  unfold writeShadow; split <;> simp
@[simp] theorem writeShadow_tick (s : State) (r : Ring) (i : Nat) : (writeShadow s r i).tick = s.tick := by
  unfold writeShadow; split <;> simp
@[simp] theorem writeShadow_tickFrac (s : State) (r : Ring) (i : Nat) : (writeShadow s r i).tickFrac = s.tickFrac := by
  unfold writeShadow; split <;> simp
@[simp] theorem writeShadow_pwr (s : State) (r : Ring) (i : Nat) : (writeShadow s r i).pwr = s.pwr := by
  unfold writeShadow; split <;> simp
@[simp] theorem writeShadow_sweep (s : State) (r : Ring) (i : Nat) : (writeShadow s r i).sweep = s.sweep := by
  unfold writeShadow; split <;> simp
@[simp] theorem writeShadow_csq (s : State) (r : Ring) (i : Nat) : (writeShadow s r i).csq = s.csq := by
  unfold writeShadow; split <;> simp
@[simp] theorem writeShadow_stg (s : State) (r : Ring) (i : Nat) : (writeShadow s r i).stg = s.stg := by
  unfold writeShadow; split <;> simp
@[simp] theorem writeShadow_chans (s : State) (r : Ring) (i : Nat) : (writeShadow s r i).chans = s.chans := by
  unfold writeShadow; split <;> simp
@[simp] theorem writeShadow_lgs (s : State) (r : Ring) (i : Nat) : (writeShadow s r i).lgs = s.lgs := by
  unfold writeShadow; split <;> simp
@[simp] theorem writeShadow_pmu (s : State) (r : Ring) (i : Nat) : (writeShadow s r i).pmu = s.pmu := by
  unfold writeShadow; split <;> simp
@[simp] theorem writeShadow_sectors (s : State) (r : Ring) (i : Nat) : (writeShadow s r i).sectors = s.sectors := by
  unfold writeShadow; split <;> simp
@[simp] theorem writeShadow_sites (s : State) (r : Ring) (i : Nat) : (writeShadow s r i).sites = s.sites := by
  unfold writeShadow; split <;> simp
@[simp] theorem writeShadow_bursts (s : State) (r : Ring) (i : Nat) : (writeShadow s r i).bursts = s.bursts := by
  unfold writeShadow; split <;> simp
@[simp] theorem writeShadow_drainAt (s : State) (r : Ring) (i : Nat) : (writeShadow s r i).drainAt = s.drainAt := by
  unfold writeShadow; split <;> simp
@[simp] theorem writeShadow_streams (s : State) (r : Ring) (i : Nat) : (writeShadow s r i).streams = s.streams := by
  unfold writeShadow; split <;> simp
@[simp] theorem writeShadow_mergeAt (s : State) (r : Ring) (i : Nat) : (writeShadow s r i).mergeAt = s.mergeAt := by
  unfold writeShadow; split <;> simp
@[simp] theorem writeShadow_mergeNext (s : State) (r : Ring) (i : Nat) : (writeShadow s r i).mergeNext = s.mergeNext := by
  unfold writeShadow; split <;> simp
@[simp] theorem writeShadow_digs (s : State) (r : Ring) (i : Nat) : (writeShadow s r i).digs = s.digs := by
  unfold writeShadow; split <;> simp
@[simp] theorem writeShadow_tus (s : State) (r : Ring) (i : Nat) : (writeShadow s r i).tus = s.tus := by
  unfold writeShadow; split <;> simp
@[simp] theorem writeShadow_tb (s : State) (r : Ring) (i : Nat) : (writeShadow s r i).tb = s.tb := by
  unfold writeShadow; split <;> simp
@[simp] theorem writeShadow_awgs (s : State) (r : Ring) (i : Nat) : (writeShadow s r i).awgs = s.awgs := by
  unfold writeShadow; split <;> simp
@[simp] theorem writeShadow_dcss (s : State) (r : Ring) (i : Nat) : (writeShadow s r i).dcss = s.dcss := by
  unfold writeShadow; split <;> simp
@[simp] theorem writeShadow_engs (s : State) (r : Ring) (i : Nat) : (writeShadow s r i).engs = s.engs := by
  unfold writeShadow; split <;> simp
@[simp] theorem writeShadow_mem (s : State) (r : Ring) (i : Nat) : (writeShadow s r i).mem = s.mem := by
  unfold writeShadow; split <;> simp
@[simp] theorem writeShadow_flt (s : State) (r : Ring) (i : Nat) : (writeShadow s r i).flt = s.flt := by
  unfold writeShadow; split <;> simp
@[simp] theorem writeShadow_thm (s : State) (r : Ring) (i : Nat) : (writeShadow s r i).thm = s.thm := by
  unfold writeShadow; split <;> simp
@[simp] theorem writeShadow_cal (s : State) (r : Ring) (i : Nat) : (writeShadow s r i).cal = s.cal := by
  unfold writeShadow; split <;> simp
@[simp] theorem writeShadow_grp (s : State) (r : Ring) (i : Nat) : (writeShadow s r i).grp = s.grp := by
  unfold writeShadow; split <;> simp
@[simp] theorem writeShadow_aux (s : State) (r : Ring) (i : Nat) : (writeShadow s r i).aux = s.aux := by
  unfold writeShadow; split <;> simp
@[simp] theorem writeShadow_mnt (s : State) (r : Ring) (i : Nat) : (writeShadow s r i).mnt = s.mnt := by
  unfold writeShadow; split <;> simp
@[simp] theorem writeShadow_tap (s : State) (r : Ring) (i : Nat) : (writeShadow s r i).tap = s.tap := by
  unfold writeShadow; split <;> simp

/-! ### putEvent -/

@[simp] theorem putEvent_pending (s : State) (q : Nat) (e : Event) : (putEvent s q e).pending = s.pending := by simp [putEvent]
@[simp] theorem putEvent_now (s : State) (q : Nat) (e : Event) : (putEvent s q e).now = s.now := by simp [putEvent]
@[simp] theorem putEvent_free (s : State) (q : Nat) (e : Event) : (putEvent s q e).free = s.free := by simp [putEvent]
@[simp] theorem putEvent_tick (s : State) (q : Nat) (e : Event) : (putEvent s q e).tick = s.tick := by simp [putEvent]
@[simp] theorem putEvent_tickFrac (s : State) (q : Nat) (e : Event) : (putEvent s q e).tickFrac = s.tickFrac := by simp [putEvent]
@[simp] theorem putEvent_pwr (s : State) (q : Nat) (e : Event) : (putEvent s q e).pwr = s.pwr := by simp [putEvent]
@[simp] theorem putEvent_sweep (s : State) (q : Nat) (e : Event) : (putEvent s q e).sweep = s.sweep := by simp [putEvent]
@[simp] theorem putEvent_csq (s : State) (q : Nat) (e : Event) : (putEvent s q e).csq = s.csq := by simp [putEvent]
@[simp] theorem putEvent_stg (s : State) (q : Nat) (e : Event) : (putEvent s q e).stg = s.stg := by simp [putEvent]
@[simp] theorem putEvent_chans (s : State) (q : Nat) (e : Event) : (putEvent s q e).chans = s.chans := by simp [putEvent]
@[simp] theorem putEvent_lgs (s : State) (q : Nat) (e : Event) : (putEvent s q e).lgs = s.lgs := by simp [putEvent]
@[simp] theorem putEvent_pmu (s : State) (q : Nat) (e : Event) : (putEvent s q e).pmu = s.pmu := by simp [putEvent]
@[simp] theorem putEvent_sectors (s : State) (q : Nat) (e : Event) : (putEvent s q e).sectors = s.sectors := by simp [putEvent]
@[simp] theorem putEvent_sites (s : State) (q : Nat) (e : Event) : (putEvent s q e).sites = s.sites := by simp [putEvent]
@[simp] theorem putEvent_bursts (s : State) (q : Nat) (e : Event) : (putEvent s q e).bursts = s.bursts := by simp [putEvent]
@[simp] theorem putEvent_drainAt (s : State) (q : Nat) (e : Event) : (putEvent s q e).drainAt = s.drainAt := by simp [putEvent]
@[simp] theorem putEvent_streams (s : State) (q : Nat) (e : Event) : (putEvent s q e).streams = s.streams := by simp [putEvent]
@[simp] theorem putEvent_mergeAt (s : State) (q : Nat) (e : Event) : (putEvent s q e).mergeAt = s.mergeAt := by simp [putEvent]
@[simp] theorem putEvent_mergeNext (s : State) (q : Nat) (e : Event) : (putEvent s q e).mergeNext = s.mergeNext := by simp [putEvent]
@[simp] theorem putEvent_digs (s : State) (q : Nat) (e : Event) : (putEvent s q e).digs = s.digs := by simp [putEvent]
@[simp] theorem putEvent_tus (s : State) (q : Nat) (e : Event) : (putEvent s q e).tus = s.tus := by simp [putEvent]
@[simp] theorem putEvent_tb (s : State) (q : Nat) (e : Event) : (putEvent s q e).tb = s.tb := by simp [putEvent]
@[simp] theorem putEvent_awgs (s : State) (q : Nat) (e : Event) : (putEvent s q e).awgs = s.awgs := by simp [putEvent]
@[simp] theorem putEvent_dcss (s : State) (q : Nat) (e : Event) : (putEvent s q e).dcss = s.dcss := by simp [putEvent]
@[simp] theorem putEvent_engs (s : State) (q : Nat) (e : Event) : (putEvent s q e).engs = s.engs := by simp [putEvent]
@[simp] theorem putEvent_mem (s : State) (q : Nat) (e : Event) : (putEvent s q e).mem = s.mem := by simp [putEvent]
@[simp] theorem putEvent_flt (s : State) (q : Nat) (e : Event) : (putEvent s q e).flt = s.flt := by simp [putEvent]
@[simp] theorem putEvent_thm (s : State) (q : Nat) (e : Event) : (putEvent s q e).thm = s.thm := by simp [putEvent]
@[simp] theorem putEvent_cal (s : State) (q : Nat) (e : Event) : (putEvent s q e).cal = s.cal := by simp [putEvent]
@[simp] theorem putEvent_grp (s : State) (q : Nat) (e : Event) : (putEvent s q e).grp = s.grp := by simp [putEvent]
@[simp] theorem putEvent_aux (s : State) (q : Nat) (e : Event) : (putEvent s q e).aux = s.aux := by simp [putEvent]
@[simp] theorem putEvent_mnt (s : State) (q : Nat) (e : Event) : (putEvent s q e).mnt = s.mnt := by simp [putEvent]
@[simp] theorem putEvent_tap (s : State) (q : Nat) (e : Event) : (putEvent s q e).tap = s.tap := by simp [putEvent]

/-! ### loseEvent -/

@[simp] theorem loseEvent_pending (s : State) (q : Nat) : (loseEvent s q).pending = s.pending := by simp [loseEvent]
@[simp] theorem loseEvent_now (s : State) (q : Nat) : (loseEvent s q).now = s.now := by simp [loseEvent]
@[simp] theorem loseEvent_free (s : State) (q : Nat) : (loseEvent s q).free = s.free := by simp [loseEvent]
@[simp] theorem loseEvent_tick (s : State) (q : Nat) : (loseEvent s q).tick = s.tick := by simp [loseEvent]
@[simp] theorem loseEvent_tickFrac (s : State) (q : Nat) : (loseEvent s q).tickFrac = s.tickFrac := by simp [loseEvent]
@[simp] theorem loseEvent_pwr (s : State) (q : Nat) : (loseEvent s q).pwr = s.pwr := by simp [loseEvent]
@[simp] theorem loseEvent_sweep (s : State) (q : Nat) : (loseEvent s q).sweep = s.sweep := by simp [loseEvent]
@[simp] theorem loseEvent_csq (s : State) (q : Nat) : (loseEvent s q).csq = s.csq := by simp [loseEvent]
@[simp] theorem loseEvent_stg (s : State) (q : Nat) : (loseEvent s q).stg = s.stg := by simp [loseEvent]
@[simp] theorem loseEvent_chans (s : State) (q : Nat) : (loseEvent s q).chans = s.chans := by simp [loseEvent]
@[simp] theorem loseEvent_lgs (s : State) (q : Nat) : (loseEvent s q).lgs = s.lgs := by simp [loseEvent]
@[simp] theorem loseEvent_pmu (s : State) (q : Nat) : (loseEvent s q).pmu = s.pmu := by simp [loseEvent]
@[simp] theorem loseEvent_sectors (s : State) (q : Nat) : (loseEvent s q).sectors = s.sectors := by simp [loseEvent]
@[simp] theorem loseEvent_sites (s : State) (q : Nat) : (loseEvent s q).sites = s.sites := by simp [loseEvent]
@[simp] theorem loseEvent_bursts (s : State) (q : Nat) : (loseEvent s q).bursts = s.bursts := by simp [loseEvent]
@[simp] theorem loseEvent_drainAt (s : State) (q : Nat) : (loseEvent s q).drainAt = s.drainAt := by simp [loseEvent]
@[simp] theorem loseEvent_streams (s : State) (q : Nat) : (loseEvent s q).streams = s.streams := by simp [loseEvent]
@[simp] theorem loseEvent_mergeAt (s : State) (q : Nat) : (loseEvent s q).mergeAt = s.mergeAt := by simp [loseEvent]
@[simp] theorem loseEvent_mergeNext (s : State) (q : Nat) : (loseEvent s q).mergeNext = s.mergeNext := by simp [loseEvent]
@[simp] theorem loseEvent_digs (s : State) (q : Nat) : (loseEvent s q).digs = s.digs := by simp [loseEvent]
@[simp] theorem loseEvent_tus (s : State) (q : Nat) : (loseEvent s q).tus = s.tus := by simp [loseEvent]
@[simp] theorem loseEvent_tb (s : State) (q : Nat) : (loseEvent s q).tb = s.tb := by simp [loseEvent]
@[simp] theorem loseEvent_awgs (s : State) (q : Nat) : (loseEvent s q).awgs = s.awgs := by simp [loseEvent]
@[simp] theorem loseEvent_dcss (s : State) (q : Nat) : (loseEvent s q).dcss = s.dcss := by simp [loseEvent]
@[simp] theorem loseEvent_engs (s : State) (q : Nat) : (loseEvent s q).engs = s.engs := by simp [loseEvent]
@[simp] theorem loseEvent_mem (s : State) (q : Nat) : (loseEvent s q).mem = s.mem := by simp [loseEvent]
@[simp] theorem loseEvent_flt (s : State) (q : Nat) : (loseEvent s q).flt = s.flt := by simp [loseEvent]
@[simp] theorem loseEvent_thm (s : State) (q : Nat) : (loseEvent s q).thm = s.thm := by simp [loseEvent]
@[simp] theorem loseEvent_cal (s : State) (q : Nat) : (loseEvent s q).cal = s.cal := by simp [loseEvent]
@[simp] theorem loseEvent_grp (s : State) (q : Nat) : (loseEvent s q).grp = s.grp := by simp [loseEvent]
@[simp] theorem loseEvent_aux (s : State) (q : Nat) : (loseEvent s q).aux = s.aux := by simp [loseEvent]
@[simp] theorem loseEvent_mnt (s : State) (q : Nat) : (loseEvent s q).mnt = s.mnt := by simp [loseEvent]
@[simp] theorem loseEvent_tap (s : State) (q : Nat) : (loseEvent s q).tap = s.tap := by simp [loseEvent]

/-! ### postAt -/

@[simp] theorem postAt_pending (s : State) (id kind cause data : Nat) (p : Pos) : (postAt s id kind cause data p).pending = s.pending := by
  simp only [postAt]; repeat' split
  all_goals simp
@[simp] theorem postAt_now (s : State) (id kind cause data : Nat) (p : Pos) : (postAt s id kind cause data p).now = s.now := by
  simp only [postAt]; repeat' split
  all_goals simp
@[simp] theorem postAt_free (s : State) (id kind cause data : Nat) (p : Pos) : (postAt s id kind cause data p).free = s.free := by
  simp only [postAt]; repeat' split
  all_goals simp
@[simp] theorem postAt_tick (s : State) (id kind cause data : Nat) (p : Pos) : (postAt s id kind cause data p).tick = s.tick := by
  simp only [postAt]; repeat' split
  all_goals simp
@[simp] theorem postAt_tickFrac (s : State) (id kind cause data : Nat) (p : Pos) : (postAt s id kind cause data p).tickFrac = s.tickFrac := by
  simp only [postAt]; repeat' split
  all_goals simp
@[simp] theorem postAt_pwr (s : State) (id kind cause data : Nat) (p : Pos) : (postAt s id kind cause data p).pwr = s.pwr := by
  simp only [postAt]; repeat' split
  all_goals simp
@[simp] theorem postAt_sweep (s : State) (id kind cause data : Nat) (p : Pos) : (postAt s id kind cause data p).sweep = s.sweep := by
  simp only [postAt]; repeat' split
  all_goals simp
@[simp] theorem postAt_csq (s : State) (id kind cause data : Nat) (p : Pos) : (postAt s id kind cause data p).csq = s.csq := by
  simp only [postAt]; repeat' split
  all_goals simp
@[simp] theorem postAt_stg (s : State) (id kind cause data : Nat) (p : Pos) : (postAt s id kind cause data p).stg = s.stg := by
  simp only [postAt]; repeat' split
  all_goals simp
@[simp] theorem postAt_chans (s : State) (id kind cause data : Nat) (p : Pos) : (postAt s id kind cause data p).chans = s.chans := by
  simp only [postAt]; repeat' split
  all_goals simp
@[simp] theorem postAt_lgs (s : State) (id kind cause data : Nat) (p : Pos) : (postAt s id kind cause data p).lgs = s.lgs := by
  simp only [postAt]; repeat' split
  all_goals simp
@[simp] theorem postAt_pmu (s : State) (id kind cause data : Nat) (p : Pos) : (postAt s id kind cause data p).pmu = s.pmu := by
  simp only [postAt]; repeat' split
  all_goals simp
@[simp] theorem postAt_sectors (s : State) (id kind cause data : Nat) (p : Pos) : (postAt s id kind cause data p).sectors = s.sectors := by
  simp only [postAt]; repeat' split
  all_goals simp
@[simp] theorem postAt_sites (s : State) (id kind cause data : Nat) (p : Pos) : (postAt s id kind cause data p).sites = s.sites := by
  simp only [postAt]; repeat' split
  all_goals simp
@[simp] theorem postAt_bursts (s : State) (id kind cause data : Nat) (p : Pos) : (postAt s id kind cause data p).bursts = s.bursts := by
  simp only [postAt]; repeat' split
  all_goals simp
@[simp] theorem postAt_drainAt (s : State) (id kind cause data : Nat) (p : Pos) : (postAt s id kind cause data p).drainAt = s.drainAt := by
  simp only [postAt]; repeat' split
  all_goals simp
@[simp] theorem postAt_streams (s : State) (id kind cause data : Nat) (p : Pos) : (postAt s id kind cause data p).streams = s.streams := by
  simp only [postAt]; repeat' split
  all_goals simp
@[simp] theorem postAt_mergeAt (s : State) (id kind cause data : Nat) (p : Pos) : (postAt s id kind cause data p).mergeAt = s.mergeAt := by
  simp only [postAt]; repeat' split
  all_goals simp
@[simp] theorem postAt_mergeNext (s : State) (id kind cause data : Nat) (p : Pos) : (postAt s id kind cause data p).mergeNext = s.mergeNext := by
  simp only [postAt]; repeat' split
  all_goals simp
@[simp] theorem postAt_digs (s : State) (id kind cause data : Nat) (p : Pos) : (postAt s id kind cause data p).digs = s.digs := by
  simp only [postAt]; repeat' split
  all_goals simp
@[simp] theorem postAt_tus (s : State) (id kind cause data : Nat) (p : Pos) : (postAt s id kind cause data p).tus = s.tus := by
  simp only [postAt]; repeat' split
  all_goals simp
@[simp] theorem postAt_tb (s : State) (id kind cause data : Nat) (p : Pos) : (postAt s id kind cause data p).tb = s.tb := by
  simp only [postAt]; repeat' split
  all_goals simp
@[simp] theorem postAt_awgs (s : State) (id kind cause data : Nat) (p : Pos) : (postAt s id kind cause data p).awgs = s.awgs := by
  simp only [postAt]; repeat' split
  all_goals simp
@[simp] theorem postAt_dcss (s : State) (id kind cause data : Nat) (p : Pos) : (postAt s id kind cause data p).dcss = s.dcss := by
  simp only [postAt]; repeat' split
  all_goals simp
@[simp] theorem postAt_engs (s : State) (id kind cause data : Nat) (p : Pos) : (postAt s id kind cause data p).engs = s.engs := by
  simp only [postAt]; repeat' split
  all_goals simp
@[simp] theorem postAt_mem (s : State) (id kind cause data : Nat) (p : Pos) : (postAt s id kind cause data p).mem = s.mem := by
  simp only [postAt]; repeat' split
  all_goals simp
@[simp] theorem postAt_flt (s : State) (id kind cause data : Nat) (p : Pos) : (postAt s id kind cause data p).flt = s.flt := by
  simp only [postAt]; repeat' split
  all_goals simp
@[simp] theorem postAt_thm (s : State) (id kind cause data : Nat) (p : Pos) : (postAt s id kind cause data p).thm = s.thm := by
  simp only [postAt]; repeat' split
  all_goals simp
@[simp] theorem postAt_cal (s : State) (id kind cause data : Nat) (p : Pos) : (postAt s id kind cause data p).cal = s.cal := by
  simp only [postAt]; repeat' split
  all_goals simp
@[simp] theorem postAt_grp (s : State) (id kind cause data : Nat) (p : Pos) : (postAt s id kind cause data p).grp = s.grp := by
  simp only [postAt]; repeat' split
  all_goals simp
@[simp] theorem postAt_aux (s : State) (id kind cause data : Nat) (p : Pos) : (postAt s id kind cause data p).aux = s.aux := by
  simp only [postAt]; repeat' split
  all_goals simp
@[simp] theorem postAt_mnt (s : State) (id kind cause data : Nat) (p : Pos) : (postAt s id kind cause data p).mnt = s.mnt := by
  simp only [postAt]; repeat' split
  all_goals simp
@[simp] theorem postAt_tap (s : State) (id kind cause data : Nat) (p : Pos) : (postAt s id kind cause data p).tap = s.tap := by
  simp only [postAt]; repeat' split
  all_goals simp

/-! ### post -/

@[simp] theorem post_pending (s : State) (id kind cause data : Nat) : (post s id kind cause data).pending = s.pending := by simp [post]
@[simp] theorem post_now (s : State) (id kind cause data : Nat) : (post s id kind cause data).now = s.now := by simp [post]
@[simp] theorem post_free (s : State) (id kind cause data : Nat) : (post s id kind cause data).free = s.free := by simp [post]
@[simp] theorem post_tick (s : State) (id kind cause data : Nat) : (post s id kind cause data).tick = s.tick := by simp [post]
@[simp] theorem post_tickFrac (s : State) (id kind cause data : Nat) : (post s id kind cause data).tickFrac = s.tickFrac := by simp [post]
@[simp] theorem post_pwr (s : State) (id kind cause data : Nat) : (post s id kind cause data).pwr = s.pwr := by simp [post]
@[simp] theorem post_sweep (s : State) (id kind cause data : Nat) : (post s id kind cause data).sweep = s.sweep := by simp [post]
@[simp] theorem post_csq (s : State) (id kind cause data : Nat) : (post s id kind cause data).csq = s.csq := by simp [post]
@[simp] theorem post_stg (s : State) (id kind cause data : Nat) : (post s id kind cause data).stg = s.stg := by simp [post]
@[simp] theorem post_chans (s : State) (id kind cause data : Nat) : (post s id kind cause data).chans = s.chans := by simp [post]
@[simp] theorem post_lgs (s : State) (id kind cause data : Nat) : (post s id kind cause data).lgs = s.lgs := by simp [post]
@[simp] theorem post_pmu (s : State) (id kind cause data : Nat) : (post s id kind cause data).pmu = s.pmu := by simp [post]
@[simp] theorem post_sectors (s : State) (id kind cause data : Nat) : (post s id kind cause data).sectors = s.sectors := by simp [post]
@[simp] theorem post_sites (s : State) (id kind cause data : Nat) : (post s id kind cause data).sites = s.sites := by simp [post]
@[simp] theorem post_bursts (s : State) (id kind cause data : Nat) : (post s id kind cause data).bursts = s.bursts := by simp [post]
@[simp] theorem post_drainAt (s : State) (id kind cause data : Nat) : (post s id kind cause data).drainAt = s.drainAt := by simp [post]
@[simp] theorem post_streams (s : State) (id kind cause data : Nat) : (post s id kind cause data).streams = s.streams := by simp [post]
@[simp] theorem post_mergeAt (s : State) (id kind cause data : Nat) : (post s id kind cause data).mergeAt = s.mergeAt := by simp [post]
@[simp] theorem post_mergeNext (s : State) (id kind cause data : Nat) : (post s id kind cause data).mergeNext = s.mergeNext := by simp [post]
@[simp] theorem post_digs (s : State) (id kind cause data : Nat) : (post s id kind cause data).digs = s.digs := by simp [post]
@[simp] theorem post_tus (s : State) (id kind cause data : Nat) : (post s id kind cause data).tus = s.tus := by simp [post]
@[simp] theorem post_tb (s : State) (id kind cause data : Nat) : (post s id kind cause data).tb = s.tb := by simp [post]
@[simp] theorem post_awgs (s : State) (id kind cause data : Nat) : (post s id kind cause data).awgs = s.awgs := by simp [post]
@[simp] theorem post_dcss (s : State) (id kind cause data : Nat) : (post s id kind cause data).dcss = s.dcss := by simp [post]
@[simp] theorem post_engs (s : State) (id kind cause data : Nat) : (post s id kind cause data).engs = s.engs := by simp [post]
@[simp] theorem post_mem (s : State) (id kind cause data : Nat) : (post s id kind cause data).mem = s.mem := by simp [post]
@[simp] theorem post_flt (s : State) (id kind cause data : Nat) : (post s id kind cause data).flt = s.flt := by simp [post]
@[simp] theorem post_thm (s : State) (id kind cause data : Nat) : (post s id kind cause data).thm = s.thm := by simp [post]
@[simp] theorem post_cal (s : State) (id kind cause data : Nat) : (post s id kind cause data).cal = s.cal := by simp [post]
@[simp] theorem post_grp (s : State) (id kind cause data : Nat) : (post s id kind cause data).grp = s.grp := by simp [post]
@[simp] theorem post_aux (s : State) (id kind cause data : Nat) : (post s id kind cause data).aux = s.aux := by simp [post]
@[simp] theorem post_mnt (s : State) (id kind cause data : Nat) : (post s id kind cause data).mnt = s.mnt := by simp [post]
@[simp] theorem post_tap (s : State) (id kind cause data : Nat) : (post s id kind cause data).tap = s.tap := by simp [post]

/-! ### notice -/

@[simp] theorem notice_pending (s : State) (id data : Nat) : (notice s id data).pending = s.pending := by simp [notice]
@[simp] theorem notice_now (s : State) (id data : Nat) : (notice s id data).now = s.now := by simp [notice]
@[simp] theorem notice_free (s : State) (id data : Nat) : (notice s id data).free = s.free := by simp [notice]
@[simp] theorem notice_tick (s : State) (id data : Nat) : (notice s id data).tick = s.tick := by simp [notice]
@[simp] theorem notice_tickFrac (s : State) (id data : Nat) : (notice s id data).tickFrac = s.tickFrac := by simp [notice]
@[simp] theorem notice_pwr (s : State) (id data : Nat) : (notice s id data).pwr = s.pwr := by simp [notice]
@[simp] theorem notice_sweep (s : State) (id data : Nat) : (notice s id data).sweep = s.sweep := by simp [notice]
@[simp] theorem notice_csq (s : State) (id data : Nat) : (notice s id data).csq = s.csq := by simp [notice]
@[simp] theorem notice_stg (s : State) (id data : Nat) : (notice s id data).stg = s.stg := by simp [notice]
@[simp] theorem notice_chans (s : State) (id data : Nat) : (notice s id data).chans = s.chans := by simp [notice]
@[simp] theorem notice_lgs (s : State) (id data : Nat) : (notice s id data).lgs = s.lgs := by simp [notice]
@[simp] theorem notice_pmu (s : State) (id data : Nat) : (notice s id data).pmu = s.pmu := by simp [notice]
@[simp] theorem notice_sectors (s : State) (id data : Nat) : (notice s id data).sectors = s.sectors := by simp [notice]
@[simp] theorem notice_sites (s : State) (id data : Nat) : (notice s id data).sites = s.sites := by simp [notice]
@[simp] theorem notice_bursts (s : State) (id data : Nat) : (notice s id data).bursts = s.bursts := by simp [notice]
@[simp] theorem notice_drainAt (s : State) (id data : Nat) : (notice s id data).drainAt = s.drainAt := by simp [notice]
@[simp] theorem notice_streams (s : State) (id data : Nat) : (notice s id data).streams = s.streams := by simp [notice]
@[simp] theorem notice_mergeAt (s : State) (id data : Nat) : (notice s id data).mergeAt = s.mergeAt := by simp [notice]
@[simp] theorem notice_mergeNext (s : State) (id data : Nat) : (notice s id data).mergeNext = s.mergeNext := by simp [notice]
@[simp] theorem notice_digs (s : State) (id data : Nat) : (notice s id data).digs = s.digs := by simp [notice]
@[simp] theorem notice_tus (s : State) (id data : Nat) : (notice s id data).tus = s.tus := by simp [notice]
@[simp] theorem notice_tb (s : State) (id data : Nat) : (notice s id data).tb = s.tb := by simp [notice]
@[simp] theorem notice_awgs (s : State) (id data : Nat) : (notice s id data).awgs = s.awgs := by simp [notice]
@[simp] theorem notice_dcss (s : State) (id data : Nat) : (notice s id data).dcss = s.dcss := by simp [notice]
@[simp] theorem notice_engs (s : State) (id data : Nat) : (notice s id data).engs = s.engs := by simp [notice]
@[simp] theorem notice_mem (s : State) (id data : Nat) : (notice s id data).mem = s.mem := by simp [notice]
@[simp] theorem notice_flt (s : State) (id data : Nat) : (notice s id data).flt = s.flt := by simp [notice]
@[simp] theorem notice_thm (s : State) (id data : Nat) : (notice s id data).thm = s.thm := by simp [notice]
@[simp] theorem notice_cal (s : State) (id data : Nat) : (notice s id data).cal = s.cal := by simp [notice]
@[simp] theorem notice_grp (s : State) (id data : Nat) : (notice s id data).grp = s.grp := by simp [notice]
@[simp] theorem notice_aux (s : State) (id data : Nat) : (notice s id data).aux = s.aux := by simp [notice]
@[simp] theorem notice_mnt (s : State) (id data : Nat) : (notice s id data).mnt = s.mnt := by simp [notice]
@[simp] theorem notice_tap (s : State) (id data : Nat) : (notice s id data).tap = s.tap := by simp [notice]

/-! ### event -/

@[simp] theorem event_pending (s : State) (id data : Nat) : (event s id data).pending = s.pending := by simp [event]
@[simp] theorem event_now (s : State) (id data : Nat) : (event s id data).now = s.now := by simp [event]
@[simp] theorem event_free (s : State) (id data : Nat) : (event s id data).free = s.free := by simp [event]
@[simp] theorem event_tick (s : State) (id data : Nat) : (event s id data).tick = s.tick := by simp [event]
@[simp] theorem event_tickFrac (s : State) (id data : Nat) : (event s id data).tickFrac = s.tickFrac := by simp [event]
@[simp] theorem event_pwr (s : State) (id data : Nat) : (event s id data).pwr = s.pwr := by simp [event]
@[simp] theorem event_sweep (s : State) (id data : Nat) : (event s id data).sweep = s.sweep := by simp [event]
@[simp] theorem event_csq (s : State) (id data : Nat) : (event s id data).csq = s.csq := by simp [event]
@[simp] theorem event_stg (s : State) (id data : Nat) : (event s id data).stg = s.stg := by simp [event]
@[simp] theorem event_chans (s : State) (id data : Nat) : (event s id data).chans = s.chans := by simp [event]
@[simp] theorem event_lgs (s : State) (id data : Nat) : (event s id data).lgs = s.lgs := by simp [event]
@[simp] theorem event_pmu (s : State) (id data : Nat) : (event s id data).pmu = s.pmu := by simp [event]
@[simp] theorem event_sectors (s : State) (id data : Nat) : (event s id data).sectors = s.sectors := by simp [event]
@[simp] theorem event_sites (s : State) (id data : Nat) : (event s id data).sites = s.sites := by simp [event]
@[simp] theorem event_bursts (s : State) (id data : Nat) : (event s id data).bursts = s.bursts := by simp [event]
@[simp] theorem event_drainAt (s : State) (id data : Nat) : (event s id data).drainAt = s.drainAt := by simp [event]
@[simp] theorem event_streams (s : State) (id data : Nat) : (event s id data).streams = s.streams := by simp [event]
@[simp] theorem event_mergeAt (s : State) (id data : Nat) : (event s id data).mergeAt = s.mergeAt := by simp [event]
@[simp] theorem event_mergeNext (s : State) (id data : Nat) : (event s id data).mergeNext = s.mergeNext := by simp [event]
@[simp] theorem event_digs (s : State) (id data : Nat) : (event s id data).digs = s.digs := by simp [event]
@[simp] theorem event_tus (s : State) (id data : Nat) : (event s id data).tus = s.tus := by simp [event]
@[simp] theorem event_tb (s : State) (id data : Nat) : (event s id data).tb = s.tb := by simp [event]
@[simp] theorem event_awgs (s : State) (id data : Nat) : (event s id data).awgs = s.awgs := by simp [event]
@[simp] theorem event_dcss (s : State) (id data : Nat) : (event s id data).dcss = s.dcss := by simp [event]
@[simp] theorem event_engs (s : State) (id data : Nat) : (event s id data).engs = s.engs := by simp [event]
@[simp] theorem event_mem (s : State) (id data : Nat) : (event s id data).mem = s.mem := by simp [event]
@[simp] theorem event_flt (s : State) (id data : Nat) : (event s id data).flt = s.flt := by simp [event]
@[simp] theorem event_thm (s : State) (id data : Nat) : (event s id data).thm = s.thm := by simp [event]
@[simp] theorem event_cal (s : State) (id data : Nat) : (event s id data).cal = s.cal := by simp [event]
@[simp] theorem event_grp (s : State) (id data : Nat) : (event s id data).grp = s.grp := by simp [event]
@[simp] theorem event_aux (s : State) (id data : Nat) : (event s id data).aux = s.aux := by simp [event]
@[simp] theorem event_mnt (s : State) (id data : Nat) : (event s id data).mnt = s.mnt := by simp [event]
@[simp] theorem event_tap (s : State) (id data : Nat) : (event s id data).tap = s.tap := by simp [event]

/-! ### finishAbort -/

@[simp] theorem finishAbort_pending (s : State) (n : Nat) : (finishAbort s n).pending = s.pending := by
  simp only [finishAbort]; repeat' split
  all_goals simp
@[simp] theorem finishAbort_now (s : State) (n : Nat) : (finishAbort s n).now = s.now := by
  simp only [finishAbort]; repeat' split
  all_goals simp
@[simp] theorem finishAbort_free (s : State) (n : Nat) : (finishAbort s n).free = s.free := by
  simp only [finishAbort]; repeat' split
  all_goals simp
@[simp] theorem finishAbort_tick (s : State) (n : Nat) : (finishAbort s n).tick = s.tick := by
  simp only [finishAbort]; repeat' split
  all_goals simp
@[simp] theorem finishAbort_tickFrac (s : State) (n : Nat) : (finishAbort s n).tickFrac = s.tickFrac := by
  simp only [finishAbort]; repeat' split
  all_goals simp
@[simp] theorem finishAbort_pwr (s : State) (n : Nat) : (finishAbort s n).pwr = s.pwr := by
  simp only [finishAbort]; repeat' split
  all_goals simp
@[simp] theorem finishAbort_sweep (s : State) (n : Nat) : (finishAbort s n).sweep = s.sweep := by
  simp only [finishAbort]; repeat' split
  all_goals simp
@[simp] theorem finishAbort_csq (s : State) (n : Nat) : (finishAbort s n).csq = s.csq := by
  simp only [finishAbort]; repeat' split
  all_goals simp
@[simp] theorem finishAbort_stg (s : State) (n : Nat) : (finishAbort s n).stg = s.stg := by
  simp only [finishAbort]; repeat' split
  all_goals simp
@[simp] theorem finishAbort_chans (s : State) (n : Nat) : (finishAbort s n).chans = s.chans := by
  simp only [finishAbort]; repeat' split
  all_goals simp
@[simp] theorem finishAbort_lgs (s : State) (n : Nat) : (finishAbort s n).lgs = s.lgs := by
  simp only [finishAbort]; repeat' split
  all_goals simp
@[simp] theorem finishAbort_pmu (s : State) (n : Nat) : (finishAbort s n).pmu = s.pmu := by
  simp only [finishAbort]; repeat' split
  all_goals simp
@[simp] theorem finishAbort_sectors (s : State) (n : Nat) : (finishAbort s n).sectors = s.sectors := by
  simp only [finishAbort]; repeat' split
  all_goals simp
@[simp] theorem finishAbort_sites (s : State) (n : Nat) : (finishAbort s n).sites = s.sites := by
  simp only [finishAbort]; repeat' split
  all_goals simp
@[simp] theorem finishAbort_bursts (s : State) (n : Nat) : (finishAbort s n).bursts = s.bursts := by
  simp only [finishAbort]; repeat' split
  all_goals simp
@[simp] theorem finishAbort_drainAt (s : State) (n : Nat) : (finishAbort s n).drainAt = s.drainAt := by
  simp only [finishAbort]; repeat' split
  all_goals simp
@[simp] theorem finishAbort_streams (s : State) (n : Nat) : (finishAbort s n).streams = s.streams := by
  simp only [finishAbort]; repeat' split
  all_goals simp
@[simp] theorem finishAbort_mergeAt (s : State) (n : Nat) : (finishAbort s n).mergeAt = s.mergeAt := by
  simp only [finishAbort]; repeat' split
  all_goals simp
@[simp] theorem finishAbort_mergeNext (s : State) (n : Nat) : (finishAbort s n).mergeNext = s.mergeNext := by
  simp only [finishAbort]; repeat' split
  all_goals simp
@[simp] theorem finishAbort_digs (s : State) (n : Nat) : (finishAbort s n).digs = s.digs := by
  simp only [finishAbort]; repeat' split
  all_goals simp
@[simp] theorem finishAbort_tus (s : State) (n : Nat) : (finishAbort s n).tus = s.tus := by
  simp only [finishAbort]; repeat' split
  all_goals simp
@[simp] theorem finishAbort_tb (s : State) (n : Nat) : (finishAbort s n).tb = s.tb := by
  simp only [finishAbort]; repeat' split
  all_goals simp
@[simp] theorem finishAbort_awgs (s : State) (n : Nat) : (finishAbort s n).awgs = s.awgs := by
  simp only [finishAbort]; repeat' split
  all_goals simp
@[simp] theorem finishAbort_dcss (s : State) (n : Nat) : (finishAbort s n).dcss = s.dcss := by
  simp only [finishAbort]; repeat' split
  all_goals simp
@[simp] theorem finishAbort_engs (s : State) (n : Nat) : (finishAbort s n).engs = s.engs := by
  simp only [finishAbort]; repeat' split
  all_goals simp
@[simp] theorem finishAbort_mem (s : State) (n : Nat) : (finishAbort s n).mem = s.mem := by
  simp only [finishAbort]; repeat' split
  all_goals simp
@[simp] theorem finishAbort_flt (s : State) (n : Nat) : (finishAbort s n).flt = s.flt := by
  simp only [finishAbort]; repeat' split
  all_goals simp
@[simp] theorem finishAbort_thm (s : State) (n : Nat) : (finishAbort s n).thm = s.thm := by
  simp only [finishAbort]; repeat' split
  all_goals simp
@[simp] theorem finishAbort_cal (s : State) (n : Nat) : (finishAbort s n).cal = s.cal := by
  simp only [finishAbort]; repeat' split
  all_goals simp
@[simp] theorem finishAbort_grp (s : State) (n : Nat) : (finishAbort s n).grp = s.grp := by
  simp only [finishAbort]; repeat' split
  all_goals simp
@[simp] theorem finishAbort_aux (s : State) (n : Nat) : (finishAbort s n).aux = s.aux := by
  simp only [finishAbort]; repeat' split
  all_goals simp
@[simp] theorem finishAbort_mnt (s : State) (n : Nat) : (finishAbort s n).mnt = s.mnt := by
  simp only [finishAbort]; repeat' split
  all_goals simp
@[simp] theorem finishAbort_tap (s : State) (n : Nat) : (finishAbort s n).tap = s.tap := by
  simp only [finishAbort]; repeat' split
  all_goals simp

/-! ### writeCompletion -/

@[simp] theorem writeCompletion_pending (s : State) (id : Nat) (sl : Slot) (x : Over) : (writeCompletion s id sl x).pending = s.pending := by
  simp only [writeCompletion]; repeat' split
  all_goals simp
@[simp] theorem writeCompletion_now (s : State) (id : Nat) (sl : Slot) (x : Over) : (writeCompletion s id sl x).now = s.now := by
  simp only [writeCompletion]; repeat' split
  all_goals simp
@[simp] theorem writeCompletion_free (s : State) (id : Nat) (sl : Slot) (x : Over) : (writeCompletion s id sl x).free = s.free := by
  simp only [writeCompletion]; repeat' split
  all_goals simp
@[simp] theorem writeCompletion_tick (s : State) (id : Nat) (sl : Slot) (x : Over) : (writeCompletion s id sl x).tick = s.tick := by
  simp only [writeCompletion]; repeat' split
  all_goals simp
@[simp] theorem writeCompletion_tickFrac (s : State) (id : Nat) (sl : Slot) (x : Over) : (writeCompletion s id sl x).tickFrac = s.tickFrac := by
  simp only [writeCompletion]; repeat' split
  all_goals simp
@[simp] theorem writeCompletion_pwr (s : State) (id : Nat) (sl : Slot) (x : Over) : (writeCompletion s id sl x).pwr = s.pwr := by
  simp only [writeCompletion]; repeat' split
  all_goals simp
@[simp] theorem writeCompletion_sweep (s : State) (id : Nat) (sl : Slot) (x : Over) : (writeCompletion s id sl x).sweep = s.sweep := by
  simp only [writeCompletion]; repeat' split
  all_goals simp
@[simp] theorem writeCompletion_stg (s : State) (id : Nat) (sl : Slot) (x : Over) : (writeCompletion s id sl x).stg = s.stg := by
  simp only [writeCompletion]; repeat' split
  all_goals simp
@[simp] theorem writeCompletion_chans (s : State) (id : Nat) (sl : Slot) (x : Over) : (writeCompletion s id sl x).chans = s.chans := by
  simp only [writeCompletion]; repeat' split
  all_goals simp
@[simp] theorem writeCompletion_lgs (s : State) (id : Nat) (sl : Slot) (x : Over) : (writeCompletion s id sl x).lgs = s.lgs := by
  simp only [writeCompletion]; repeat' split
  all_goals simp
@[simp] theorem writeCompletion_pmu (s : State) (id : Nat) (sl : Slot) (x : Over) : (writeCompletion s id sl x).pmu = s.pmu := by
  simp only [writeCompletion]; repeat' split
  all_goals simp
@[simp] theorem writeCompletion_sectors (s : State) (id : Nat) (sl : Slot) (x : Over) : (writeCompletion s id sl x).sectors = s.sectors := by
  simp only [writeCompletion]; repeat' split
  all_goals simp
@[simp] theorem writeCompletion_sites (s : State) (id : Nat) (sl : Slot) (x : Over) : (writeCompletion s id sl x).sites = s.sites := by
  simp only [writeCompletion]; repeat' split
  all_goals simp
@[simp] theorem writeCompletion_bursts (s : State) (id : Nat) (sl : Slot) (x : Over) : (writeCompletion s id sl x).bursts = s.bursts := by
  simp only [writeCompletion]; repeat' split
  all_goals simp
@[simp] theorem writeCompletion_drainAt (s : State) (id : Nat) (sl : Slot) (x : Over) : (writeCompletion s id sl x).drainAt = s.drainAt := by
  simp only [writeCompletion]; repeat' split
  all_goals simp
@[simp] theorem writeCompletion_streams (s : State) (id : Nat) (sl : Slot) (x : Over) : (writeCompletion s id sl x).streams = s.streams := by
  simp only [writeCompletion]; repeat' split
  all_goals simp
@[simp] theorem writeCompletion_mergeAt (s : State) (id : Nat) (sl : Slot) (x : Over) : (writeCompletion s id sl x).mergeAt = s.mergeAt := by
  simp only [writeCompletion]; repeat' split
  all_goals simp
@[simp] theorem writeCompletion_mergeNext (s : State) (id : Nat) (sl : Slot) (x : Over) : (writeCompletion s id sl x).mergeNext = s.mergeNext := by
  simp only [writeCompletion]; repeat' split
  all_goals simp
@[simp] theorem writeCompletion_digs (s : State) (id : Nat) (sl : Slot) (x : Over) : (writeCompletion s id sl x).digs = s.digs := by
  simp only [writeCompletion]; repeat' split
  all_goals simp
@[simp] theorem writeCompletion_tus (s : State) (id : Nat) (sl : Slot) (x : Over) : (writeCompletion s id sl x).tus = s.tus := by
  simp only [writeCompletion]; repeat' split
  all_goals simp
@[simp] theorem writeCompletion_tb (s : State) (id : Nat) (sl : Slot) (x : Over) : (writeCompletion s id sl x).tb = s.tb := by
  simp only [writeCompletion]; repeat' split
  all_goals simp
@[simp] theorem writeCompletion_awgs (s : State) (id : Nat) (sl : Slot) (x : Over) : (writeCompletion s id sl x).awgs = s.awgs := by
  simp only [writeCompletion]; repeat' split
  all_goals simp
@[simp] theorem writeCompletion_dcss (s : State) (id : Nat) (sl : Slot) (x : Over) : (writeCompletion s id sl x).dcss = s.dcss := by
  simp only [writeCompletion]; repeat' split
  all_goals simp
@[simp] theorem writeCompletion_engs (s : State) (id : Nat) (sl : Slot) (x : Over) : (writeCompletion s id sl x).engs = s.engs := by
  simp only [writeCompletion]; repeat' split
  all_goals simp
@[simp] theorem writeCompletion_mem (s : State) (id : Nat) (sl : Slot) (x : Over) : (writeCompletion s id sl x).mem = s.mem := by
  simp only [writeCompletion]; repeat' split
  all_goals simp
@[simp] theorem writeCompletion_flt (s : State) (id : Nat) (sl : Slot) (x : Over) : (writeCompletion s id sl x).flt = s.flt := by
  simp only [writeCompletion]; repeat' split
  all_goals simp
@[simp] theorem writeCompletion_thm (s : State) (id : Nat) (sl : Slot) (x : Over) : (writeCompletion s id sl x).thm = s.thm := by
  simp only [writeCompletion]; repeat' split
  all_goals simp
@[simp] theorem writeCompletion_cal (s : State) (id : Nat) (sl : Slot) (x : Over) : (writeCompletion s id sl x).cal = s.cal := by
  simp only [writeCompletion]; repeat' split
  all_goals simp
@[simp] theorem writeCompletion_grp (s : State) (id : Nat) (sl : Slot) (x : Over) : (writeCompletion s id sl x).grp = s.grp := by
  simp only [writeCompletion]; repeat' split
  all_goals simp
@[simp] theorem writeCompletion_aux (s : State) (id : Nat) (sl : Slot) (x : Over) : (writeCompletion s id sl x).aux = s.aux := by
  simp only [writeCompletion]; repeat' split
  all_goals simp
@[simp] theorem writeCompletion_mnt (s : State) (id : Nat) (sl : Slot) (x : Over) : (writeCompletion s id sl x).mnt = s.mnt := by
  simp only [writeCompletion]; repeat' split
  all_goals simp
@[simp] theorem writeCompletion_tap (s : State) (id : Nat) (sl : Slot) (x : Over) : (writeCompletion s id sl x).tap = s.tap := by
  simp only [writeCompletion]; repeat' split
  all_goals simp

/-! ### complete -/

@[simp] theorem complete_pending (s : State) (id st d : Nat) (p : Pos) (l : Bool) : (complete s id st d p l).pending = s.pending := by
  simp only [complete]; split; · rfl
  · split <;> simp
@[simp] theorem complete_now (s : State) (id st d : Nat) (p : Pos) (l : Bool) : (complete s id st d p l).now = s.now := by
  simp only [complete]; split; · rfl
  · split <;> simp
@[simp] theorem complete_free (s : State) (id st d : Nat) (p : Pos) (l : Bool) : (complete s id st d p l).free = s.free := by
  simp only [complete]; split; · rfl
  · split <;> simp
@[simp] theorem complete_tick (s : State) (id st d : Nat) (p : Pos) (l : Bool) : (complete s id st d p l).tick = s.tick := by
  simp only [complete]; split; · rfl
  · split <;> simp
@[simp] theorem complete_tickFrac (s : State) (id st d : Nat) (p : Pos) (l : Bool) : (complete s id st d p l).tickFrac = s.tickFrac := by
  simp only [complete]; split; · rfl
  · split <;> simp
@[simp] theorem complete_pwr (s : State) (id st d : Nat) (p : Pos) (l : Bool) : (complete s id st d p l).pwr = s.pwr := by
  simp only [complete]; split; · rfl
  · split <;> simp
@[simp] theorem complete_sweep (s : State) (id st d : Nat) (p : Pos) (l : Bool) : (complete s id st d p l).sweep = s.sweep := by
  simp only [complete]; split; · rfl
  · split <;> simp
@[simp] theorem complete_stg (s : State) (id st d : Nat) (p : Pos) (l : Bool) : (complete s id st d p l).stg = s.stg := by
  simp only [complete]; split; · rfl
  · split <;> simp
@[simp] theorem complete_chans (s : State) (id st d : Nat) (p : Pos) (l : Bool) : (complete s id st d p l).chans = s.chans := by
  simp only [complete]; split; · rfl
  · split <;> simp
@[simp] theorem complete_lgs (s : State) (id st d : Nat) (p : Pos) (l : Bool) : (complete s id st d p l).lgs = s.lgs := by
  simp only [complete]; split; · rfl
  · split <;> simp
@[simp] theorem complete_pmu (s : State) (id st d : Nat) (p : Pos) (l : Bool) : (complete s id st d p l).pmu = s.pmu := by
  simp only [complete]; split; · rfl
  · split <;> simp
@[simp] theorem complete_sectors (s : State) (id st d : Nat) (p : Pos) (l : Bool) : (complete s id st d p l).sectors = s.sectors := by
  simp only [complete]; split; · rfl
  · split <;> simp
@[simp] theorem complete_sites (s : State) (id st d : Nat) (p : Pos) (l : Bool) : (complete s id st d p l).sites = s.sites := by
  simp only [complete]; split; · rfl
  · split <;> simp
@[simp] theorem complete_bursts (s : State) (id st d : Nat) (p : Pos) (l : Bool) : (complete s id st d p l).bursts = s.bursts := by
  simp only [complete]; split; · rfl
  · split <;> simp
@[simp] theorem complete_drainAt (s : State) (id st d : Nat) (p : Pos) (l : Bool) : (complete s id st d p l).drainAt = s.drainAt := by
  simp only [complete]; split; · rfl
  · split <;> simp
@[simp] theorem complete_streams (s : State) (id st d : Nat) (p : Pos) (l : Bool) : (complete s id st d p l).streams = s.streams := by
  simp only [complete]; split; · rfl
  · split <;> simp
@[simp] theorem complete_mergeAt (s : State) (id st d : Nat) (p : Pos) (l : Bool) : (complete s id st d p l).mergeAt = s.mergeAt := by
  simp only [complete]; split; · rfl
  · split <;> simp
@[simp] theorem complete_mergeNext (s : State) (id st d : Nat) (p : Pos) (l : Bool) : (complete s id st d p l).mergeNext = s.mergeNext := by
  simp only [complete]; split; · rfl
  · split <;> simp
@[simp] theorem complete_digs (s : State) (id st d : Nat) (p : Pos) (l : Bool) : (complete s id st d p l).digs = s.digs := by
  simp only [complete]; split; · rfl
  · split <;> simp
@[simp] theorem complete_tus (s : State) (id st d : Nat) (p : Pos) (l : Bool) : (complete s id st d p l).tus = s.tus := by
  simp only [complete]; split; · rfl
  · split <;> simp
@[simp] theorem complete_tb (s : State) (id st d : Nat) (p : Pos) (l : Bool) : (complete s id st d p l).tb = s.tb := by
  simp only [complete]; split; · rfl
  · split <;> simp
@[simp] theorem complete_awgs (s : State) (id st d : Nat) (p : Pos) (l : Bool) : (complete s id st d p l).awgs = s.awgs := by
  simp only [complete]; split; · rfl
  · split <;> simp
@[simp] theorem complete_dcss (s : State) (id st d : Nat) (p : Pos) (l : Bool) : (complete s id st d p l).dcss = s.dcss := by
  simp only [complete]; split; · rfl
  · split <;> simp
@[simp] theorem complete_engs (s : State) (id st d : Nat) (p : Pos) (l : Bool) : (complete s id st d p l).engs = s.engs := by
  simp only [complete]; split; · rfl
  · split <;> simp
@[simp] theorem complete_mem (s : State) (id st d : Nat) (p : Pos) (l : Bool) : (complete s id st d p l).mem = s.mem := by
  simp only [complete]; split; · rfl
  · split <;> simp
@[simp] theorem complete_flt (s : State) (id st d : Nat) (p : Pos) (l : Bool) : (complete s id st d p l).flt = s.flt := by
  simp only [complete]; split; · rfl
  · split <;> simp
@[simp] theorem complete_thm (s : State) (id st d : Nat) (p : Pos) (l : Bool) : (complete s id st d p l).thm = s.thm := by
  simp only [complete]; split; · rfl
  · split <;> simp
@[simp] theorem complete_cal (s : State) (id st d : Nat) (p : Pos) (l : Bool) : (complete s id st d p l).cal = s.cal := by
  simp only [complete]; split; · rfl
  · split <;> simp
@[simp] theorem complete_grp (s : State) (id st d : Nat) (p : Pos) (l : Bool) : (complete s id st d p l).grp = s.grp := by
  simp only [complete]; split; · rfl
  · split <;> simp
@[simp] theorem complete_aux (s : State) (id st d : Nat) (p : Pos) (l : Bool) : (complete s id st d p l).aux = s.aux := by
  simp only [complete]; split; · rfl
  · split <;> simp
@[simp] theorem complete_mnt (s : State) (id st d : Nat) (p : Pos) (l : Bool) : (complete s id st d p l).mnt = s.mnt := by
  simp only [complete]; split; · rfl
  · split <;> simp
@[simp] theorem complete_tap (s : State) (id st d : Nat) (p : Pos) (l : Bool) : (complete s id st d p l).tap = s.tap := by
  simp only [complete]; split; · rfl
  · split <;> simp

/-! ### done -/

@[simp] theorem done_pending (s : State) (id st d : Nat) : (done s id st d).pending = s.pending := by simp [done]
@[simp] theorem done_now (s : State) (id st d : Nat) : (done s id st d).now = s.now := by simp [done]
@[simp] theorem done_free (s : State) (id st d : Nat) : (done s id st d).free = s.free := by simp [done]
@[simp] theorem done_tick (s : State) (id st d : Nat) : (done s id st d).tick = s.tick := by simp [done]
@[simp] theorem done_tickFrac (s : State) (id st d : Nat) : (done s id st d).tickFrac = s.tickFrac := by simp [done]
@[simp] theorem done_pwr (s : State) (id st d : Nat) : (done s id st d).pwr = s.pwr := by simp [done]
@[simp] theorem done_sweep (s : State) (id st d : Nat) : (done s id st d).sweep = s.sweep := by simp [done]
@[simp] theorem done_stg (s : State) (id st d : Nat) : (done s id st d).stg = s.stg := by simp [done]
@[simp] theorem done_chans (s : State) (id st d : Nat) : (done s id st d).chans = s.chans := by simp [done]
@[simp] theorem done_lgs (s : State) (id st d : Nat) : (done s id st d).lgs = s.lgs := by simp [done]
@[simp] theorem done_pmu (s : State) (id st d : Nat) : (done s id st d).pmu = s.pmu := by simp [done]
@[simp] theorem done_sectors (s : State) (id st d : Nat) : (done s id st d).sectors = s.sectors := by simp [done]
@[simp] theorem done_sites (s : State) (id st d : Nat) : (done s id st d).sites = s.sites := by simp [done]
@[simp] theorem done_bursts (s : State) (id st d : Nat) : (done s id st d).bursts = s.bursts := by simp [done]
@[simp] theorem done_drainAt (s : State) (id st d : Nat) : (done s id st d).drainAt = s.drainAt := by simp [done]
@[simp] theorem done_streams (s : State) (id st d : Nat) : (done s id st d).streams = s.streams := by simp [done]
@[simp] theorem done_mergeAt (s : State) (id st d : Nat) : (done s id st d).mergeAt = s.mergeAt := by simp [done]
@[simp] theorem done_mergeNext (s : State) (id st d : Nat) : (done s id st d).mergeNext = s.mergeNext := by simp [done]
@[simp] theorem done_digs (s : State) (id st d : Nat) : (done s id st d).digs = s.digs := by simp [done]
@[simp] theorem done_tus (s : State) (id st d : Nat) : (done s id st d).tus = s.tus := by simp [done]
@[simp] theorem done_tb (s : State) (id st d : Nat) : (done s id st d).tb = s.tb := by simp [done]
@[simp] theorem done_awgs (s : State) (id st d : Nat) : (done s id st d).awgs = s.awgs := by simp [done]
@[simp] theorem done_dcss (s : State) (id st d : Nat) : (done s id st d).dcss = s.dcss := by simp [done]
@[simp] theorem done_engs (s : State) (id st d : Nat) : (done s id st d).engs = s.engs := by simp [done]
@[simp] theorem done_mem (s : State) (id st d : Nat) : (done s id st d).mem = s.mem := by simp [done]
@[simp] theorem done_flt (s : State) (id st d : Nat) : (done s id st d).flt = s.flt := by simp [done]
@[simp] theorem done_thm (s : State) (id st d : Nat) : (done s id st d).thm = s.thm := by simp [done]
@[simp] theorem done_cal (s : State) (id st d : Nat) : (done s id st d).cal = s.cal := by simp [done]
@[simp] theorem done_grp (s : State) (id st d : Nat) : (done s id st d).grp = s.grp := by simp [done]
@[simp] theorem done_aux (s : State) (id st d : Nat) : (done s id st d).aux = s.aux := by simp [done]
@[simp] theorem done_mnt (s : State) (id st d : Nat) : (done s id st d).mnt = s.mnt := by simp [done]
@[simp] theorem done_tap (s : State) (id st d : Nat) : (done s id st d).tap = s.tap := by simp [done]

/-! ### refuse -/

@[simp] theorem refuse_pending (s : State) (id st d : Nat) : (refuse s id st d).pending = s.pending := by simp [refuse]
@[simp] theorem refuse_now (s : State) (id st d : Nat) : (refuse s id st d).now = s.now := by simp [refuse]
@[simp] theorem refuse_free (s : State) (id st d : Nat) : (refuse s id st d).free = s.free := by simp [refuse]
@[simp] theorem refuse_tick (s : State) (id st d : Nat) : (refuse s id st d).tick = s.tick := by simp [refuse]
@[simp] theorem refuse_tickFrac (s : State) (id st d : Nat) : (refuse s id st d).tickFrac = s.tickFrac := by simp [refuse]
@[simp] theorem refuse_pwr (s : State) (id st d : Nat) : (refuse s id st d).pwr = s.pwr := by simp [refuse]
@[simp] theorem refuse_sweep (s : State) (id st d : Nat) : (refuse s id st d).sweep = s.sweep := by simp [refuse]
@[simp] theorem refuse_stg (s : State) (id st d : Nat) : (refuse s id st d).stg = s.stg := by simp [refuse]
@[simp] theorem refuse_chans (s : State) (id st d : Nat) : (refuse s id st d).chans = s.chans := by simp [refuse]
@[simp] theorem refuse_lgs (s : State) (id st d : Nat) : (refuse s id st d).lgs = s.lgs := by simp [refuse]
@[simp] theorem refuse_pmu (s : State) (id st d : Nat) : (refuse s id st d).pmu = s.pmu := by simp [refuse]
@[simp] theorem refuse_sectors (s : State) (id st d : Nat) : (refuse s id st d).sectors = s.sectors := by simp [refuse]
@[simp] theorem refuse_sites (s : State) (id st d : Nat) : (refuse s id st d).sites = s.sites := by simp [refuse]
@[simp] theorem refuse_bursts (s : State) (id st d : Nat) : (refuse s id st d).bursts = s.bursts := by simp [refuse]
@[simp] theorem refuse_drainAt (s : State) (id st d : Nat) : (refuse s id st d).drainAt = s.drainAt := by simp [refuse]
@[simp] theorem refuse_streams (s : State) (id st d : Nat) : (refuse s id st d).streams = s.streams := by simp [refuse]
@[simp] theorem refuse_mergeAt (s : State) (id st d : Nat) : (refuse s id st d).mergeAt = s.mergeAt := by simp [refuse]
@[simp] theorem refuse_mergeNext (s : State) (id st d : Nat) : (refuse s id st d).mergeNext = s.mergeNext := by simp [refuse]
@[simp] theorem refuse_digs (s : State) (id st d : Nat) : (refuse s id st d).digs = s.digs := by simp [refuse]
@[simp] theorem refuse_tus (s : State) (id st d : Nat) : (refuse s id st d).tus = s.tus := by simp [refuse]
@[simp] theorem refuse_tb (s : State) (id st d : Nat) : (refuse s id st d).tb = s.tb := by simp [refuse]
@[simp] theorem refuse_awgs (s : State) (id st d : Nat) : (refuse s id st d).awgs = s.awgs := by simp [refuse]
@[simp] theorem refuse_dcss (s : State) (id st d : Nat) : (refuse s id st d).dcss = s.dcss := by simp [refuse]
@[simp] theorem refuse_engs (s : State) (id st d : Nat) : (refuse s id st d).engs = s.engs := by simp [refuse]
@[simp] theorem refuse_mem (s : State) (id st d : Nat) : (refuse s id st d).mem = s.mem := by simp [refuse]
@[simp] theorem refuse_flt (s : State) (id st d : Nat) : (refuse s id st d).flt = s.flt := by simp [refuse]
@[simp] theorem refuse_thm (s : State) (id st d : Nat) : (refuse s id st d).thm = s.thm := by simp [refuse]
@[simp] theorem refuse_cal (s : State) (id st d : Nat) : (refuse s id st d).cal = s.cal := by simp [refuse]
@[simp] theorem refuse_grp (s : State) (id st d : Nat) : (refuse s id st d).grp = s.grp := by simp [refuse]
@[simp] theorem refuse_aux (s : State) (id st d : Nat) : (refuse s id st d).aux = s.aux := by simp [refuse]
@[simp] theorem refuse_mnt (s : State) (id st d : Nat) : (refuse s id st d).mnt = s.mnt := by simp [refuse]
@[simp] theorem refuse_tap (s : State) (id st d : Nat) : (refuse s id st d).tap = s.tap := by simp [refuse]

end Sys2Proof.Machine
end

