-- ==== Sys2Proof/Laws/Ops.lean ====
section
/-! SUPPORT. What the shared operations do: rings, slots, descriptors that run, completions, DDR5 reads after writes. -/

namespace Sys2Proof.Machine

open Sys2Proof

/-- Reading any ring after one was replaced. -/
theorem ring_setRing (s : State) (k k' : RingKind) (n m : Nat) (r : Ring) :
    (s.setRing k n r).ring k' m = if k' = k ∧ m = n then r else s.ring k' m := by
  cases k <;> cases k' <;> simp [State.setRing, State.ring, State.rings, Tab.get_set]

@[simp] theorem ring_setRing_same (s : State) (k : RingKind) (n : Nat) (r : Ring) : (s.setRing k n r).ring k n = r := by
  simp [ring_setRing]

/-- Messages and signals leave the rings alone. -/
@[simp] theorem emit_ring (s : State) (m : HMsg) (k : RingKind) (n : Nat) : (emit s m).ring k n = s.ring k n := by
  unfold emit; split <;> cases k <;> rfl

@[simp] theorem signal_ring (s : State) (v : Nat) (k : RingKind) (n : Nat) : (signal s v).ring k n = s.ring k n := by
  unfold signal; split
  · simp
  · cases k <;> rfl

@[simp] theorem writeShadow_ring (s : State) (r : Ring) (i : Nat) (k : RingKind) (n : Nat) :
    (writeShadow s r i).ring k n = s.ring k n := by
  unfold writeShadow; split <;> simp

/-- A read of a slot table after an operation that leaves it. -/
theorem slot_congr {s t : State} (h : t.csq = s.csq) (id : Nat) : t.slot id = s.slot id := by simp [State.slot, h]

/-- An update of a held slot. -/
theorem slot_updSlot (s : State) (id j : Nat) (f : Slot → Slot) :
    (s.updSlot id f).slot j = if j = id then (s.slot id).map f else s.slot j := by
  unfold State.updSlot
  split
  · rename_i sl h
    by_cases e : j = id
    · subst e; rw [h, if_pos rfl]; exact Tab.get_set_same none s.csq.slots j (some (f sl))
    · simp [State.slot, Tab.get_set, e]
  · rename_i h
    by_cases e : j = id
    · subst e; simp [h]
    · simp [e]

/-- An update of an admitted burst reads back at its slot, and every other burst stays. -/
theorem burst_updBurst (s : State) (id j : Nat) (f : Burst → Burst) :
    (s.updBurst id f).burst j = if j = id then (s.burst id).map f else s.burst j := by
  cases h : s.burst id <;> by_cases e : j = id <;>
    simp_all [State.updBurst, State.burst, Tab.get_set]

/-- A property that each update of a list keeps is kept by all of them in order. -/
theorem forEach_keeps {α : Type} {P : State → Prop} {f : α → State → State} {xs : List α} {s : State} (hs : P s)
    (step : ∀ x ∈ xs, ∀ t, P t → P (f x t)) : P (forEach xs s f) :=
  List.foldlRecOn xs _ hs fun t ht x hx => step x hx t ht

/-- A routine with items left goes on in its context. -/
theorem goOn_more {s : State} {id upTo n : Nat} {fin : State → State} (h : upTo < n) :
    goOn s id upTo n fin = s.updSlot id fun x => { x with progress := upTo } := if_pos h

/-- A routine whose items are done ends. -/
theorem goOn_all {s : State} {id upTo n : Nat} {fin : State → State} (h : n ≤ upTo) : goOn s id upTo n fin = fin s :=
  if_neg (Nat.not_lt.mpr h)

/-- A running, untrapped descriptor meets its opcode's rules. -/
theorem withDesc_serves {s : State} {id c : Nat} {sl : Slot} {p : Slot → Bool} {f : Slot → State}
    (h : s.Serves id c sl) (hp : p sl = true) : withDesc s id p f = f sl := by
  obtain ⟨h1, h2, h3, h4, h5⟩ := h
  simp [withDesc, h1, h2, h3, h4, h5, hp]

/-- The refusal order with every test passed. -/
theorem guarded_ok {s ok : State} {id : Nat} {ts : List (Bool × Nat × Nat)} (h : ∀ t ∈ ts, t.1 = false) :
    guarded s id ts ok = ok := by
  have none_fails : firstFail ts = none := by fun_induction firstFail ts <;> simp_all
  rw [guarded, none_fails]

/-- A DDR5 byte after a write of one byte. -/
theorem Memory.read_write (m : List Host.Cell) (a b : Nat) (v : Byte) :
    Memory.read (Memory.write m a v) b = if b = a then v else Memory.read m b := by
  simp [Memory.read, Memory.write, Tab.get_set]

/-- A write of bytes keeps the canonical form. -/
theorem Memory.wf_writeBytes (bs : List Byte) (m : List Host.Cell) (a : Nat) (h : Memory.wf m = true) :
    Memory.wf (Memory.writeBytes m a bs) = true := by
  fun_induction Memory.writeBytes m a bs <;> grind [Memory.write, Tab.wf_set]

/-- A byte outside the written range reads as before. -/
theorem Memory.read_writeBytes_other (bs : List Byte) (m : List Host.Cell) (a x : Nat) (h : x < a ∨ a + bs.length ≤ x) :
    Memory.read (Memory.writeBytes m a bs) x = Memory.read m x := by
  fun_induction Memory.writeBytes m a bs <;> grind [Memory.read_write]

end Sys2Proof.Machine
end

