-- ==== Sys2Proof/Tests/Slice0.lean ====
section
/-! SUPPORT. Small tests and the witnesses of the statements' hypotheses. A test's expected value comes from the manual's worked examples or
from its tables; a witness `wit_<statement>` shows, clause by clause, a state and operands that meet the hypotheses. -/

namespace Sys2Proof.Tests

open Sys2Proof Sys2Proof.Machine

set_option Elab.async false

/-! ### Small states -/

/-- A descriptor of an opcode with values at byte offsets, little-endian (14 R312). -/
def desc (opc : Nat) (fs : List (Nat × Nat)) : List Byte := leBytes 64 (fs.foldl (fun n p => n + p.2 * 256 ^ p.1) opc)

/-- A ring of 16 entries, enabled. -/
def ring16 : Ring := { enable := true }

/-- In SERVICE with the link up, ring 0 of each kind enabled and DDR5 in service with one GENERAL region of 1 GiB at 0. -/
def svc : State :=
  { State.reset with
    now := 1000000, tick := 1000000, pwr.pinsSafe := true, pwr.perst := false, pwr.service := some 0, pwr.ready := true,
    flt.phase := .service, flt.devSafe := .safe, host.up := true, host.rate := 6, host.width := 8,
    host.sq := [(0, ring16)], host.cq := [(0, ring16)], host.eq := [(0, ring16)], host.str := [(0, ring16)],
    mem.st := .inService, mem.rate := 3, mem.capacity := 32,
    stg.image := [(0x0B000001, 6), (0x0B000003, 2 ^ 30)] }

/-- A descriptor of ring 0 whose routine runs in context 0. -/
def held (b : List Byte) : Slot := { ring := 0, bytes := b, st := .running 0 }

/-- A state in which slot 0 holds a descriptor that runs in context 0. -/
def withRun (s : State) (b : List Byte) : State :=
  { s with csq.slots := [(0, some (held b))], csq.ctxs := [(0, { busy := true, slot := some 0 })], csq.nextSlot := 1 }

/-- The state after a command. -/
def after (c : Instr) (s : State) : State := match exec c s with
  | .next t => t
  | _ => s

/-- What the device has sent. -/
def sent (c : Instr) (s : State) : List HMsg := (after c s).host.out

/-! ### Queue, completions, descriptors (13, 14, 17) -/

theorem wit_StepRunsFrontCommand : { svc with pending := [.powerUp1msPoint []] }.pending = .powerUp1msPoint [] :: [] := by decide

theorem wit_EmptyQueueTicks : svc.pending = [] ∧ svc.running = true ∧ svc.aux.busy = none ∧ svc.grp.fence = none ∧
    (∀ n, openWindow (svc.chan n) = none) ∧ (∀ m, (svc.memChan m).owed = false) ∧
    (∀ k, drivesLine svc k = true → (svc.line k).asserted = true) ∧
    (∀ n, (svc.dcs n).oNext = none ∧ (svc.dcs n).retuneAt = none ∧ ((svc.dcs n).ramp.bind Ramp.stopAt) = none) :=
  ⟨rfl, rfl, rfl, rfl, fun _ => rfl, fun _ => rfl, fun _ h => absurd (show false = true from h) (by decide), fun _ => ⟨rfl, rfl, rfl⟩⟩

/-- A NOP of ring 0 with TAG 7. -/
def nopDesc : List Byte := desc 0 [(2, 7)]
/-- It runs. -/
def nopRun : State := withRun svc nopDesc
/-- The same state with EVT_ROUTE of event 5 at EQ 0, empty or full. -/
def routed (full : Bool) : State :=
  ({ svc with host.route := [(5, 64)] }).setRing .eq 0 { ring16 with cons := if full then 1 else 0 }

theorem wit_MessagesReachTheHost :
    (nopRun.slot 0 = some (held nopDesc) ∧ nopRun.Linked ∧ (held nopDesc).aborted = false ∧ (nopRun.ring .sq 0).abortTo = none ∧
      waitsCtx nopRun (held nopDesc) = false ∧ (held nopDesc).outcome = none) ∧
    (let p : Slot := { held nopDesc with st := .parked .ending }
     let s := { svc with csq.slots := [(0, some p)], csq.ctxs := (List.range 7).map fun c => (c, { busy := true, slot := some 9 }) }
     s.slot 0 = some p ∧ s.Linked ∧ p.aborted = false ∧ (s.ring .sq 0).abortTo = none ∧ waitsCtx s p = true ∧ p.outcome = none) ∧
    (svc.Linked ∧ Tab.get 0 svc.host.route 5 < 64) ∧
    ((routed true).Linked ∧ 64 ≤ Tab.get 0 (routed true).host.route 5 ∧ ((routed true).ring .eq 0).enable = true ∧
      ((routed true).ring .eq 0).full = true) ∧
    ((routed false).Linked ∧ 64 ≤ Tab.get 0 (routed false).host.route 5 ∧ ((routed false).ring .eq 0).enable = true ∧
      ((routed false).ring .eq 0).full = false ∧ ((routed false).ring .eq 0).lost = 0) := by decide

/-- Two descriptors of ring 0 wait, of opcodes a and b, with claims of DDR5. -/
def twoWait (a b : Nat) : State :=
  { svc with csq.slots := [(0, some { held (desc a [(5, 0x20)]) with st := .waiting }),
                           (1, some { held (desc b [(5, 0x20)]) with st := .waiting, seq := 1 })], csq.nextSlot := 2 }
/-- The first of them. -/
def first (a : Nat) : Slot := { held (desc a [(5, 0x20)]) with st := .waiting }

/-- Rings 0 and 1 are ready to fetch. -/
def twoRings : State := (svc.setRing .sq 0 { ring16 with prod := 1 }).setRing .sq 1 { ring16 with prod := 1 }

/-- A descriptor of each of rings 0 and 1 waits. -/
def rivals : State :=
  { svc with csq.slots := [(0, some { held (desc 3 []) with st := .waiting }), (1, some { held (desc 3 []) with st := .waiting, ring := 1 })],
             csq.nextSlot := 2 }

theorem wit_DescriptorsStartInClaimOrder :
    (fetchReady twoRings 0 = true ∧ Tab.get 0 twoRings.host.passed 0 < 64 ∧ (twoRings.ring .sq 0).cls = (twoRings.ring .sq 1).cls) ∧
    (let e : Slot := { held (desc 3 []) with st := .waiting }
     rivals.slot 1 = some { e with ring := 1 } ∧ rivals.slot 0 = some e ∧ canStart rivals 0 e = true ∧ e.tag < 65536 ∧
       (rivals.ring .sq e.ring).cls = (rivals.ring .sq 1).cls ∧ e.ring < 1) ∧
    (fetchGranted twoRings 0 = true ∧ (twoRings.ring .sq 0).abortTo = none ∧ fetchReady twoRings 1 = true ∧
      Tab.get 0 twoRings.host.passed 1 < 64) ∧
    (64 ≤ Tab.get 0 { twoRings with host.passed := [(1, 64)] }.host.passed 1 ∧ (twoRings.ring .sq 1).cls ≤ 3) ∧
    ((twoWait 3 3).slot 0 = some (first 3) ∧ canStart (twoWait 3 3) 0 (first 3) = true ∧ startGranted (twoWait 3 3) 0 (first 3) = true ∧
      headerFails (first 3) = false ∧ roleFails (twoWait 3 3) (first 3) = false ∧ freeCtx (twoWait 3 3) = some 0) ∧
    ((twoWait 0xFF 3).slot 0 = some (first 0xFF) ∧ canStart (twoWait 0xFF 3) 0 (first 0xFF) = true ∧
      startGranted (twoWait 0xFF 3) 0 (first 0xFF) = true ∧ headerFails (first 0xFF) = true) ∧
    ((twoWait 0x60 3).slot 0 = some (first 0x60) ∧ canStart (twoWait 0x60 3) 0 (first 0x60) = true ∧
      startGranted (twoWait 0x60 3) 0 (first 0x60) = true ∧ headerFails (first 0x60) = false ∧
      roleFails (twoWait 0x60 3) (first 0x60) = true) ∧
    (let p : Slot := { held (desc 0x50 []) with st := .parked .aux }
     let t := { svc with csq.slots := [(0, some p)] }
     t.slot 0 = some p ∧ p.st = .parked .aux ∧ waitOver t 0 p .aux = true ∧ startGranted t 0 p = true ∧ freeCtx t = some 0 ∧ p.outcome = none) ∧
    (let p : Slot := { held (desc 0x50 []) with st := .parked .ending, outcome := some ⟨Status.ok, 1, 0, false⟩ }
     let t := { svc with csq.slots := [(0, some p)] }
     t.slot 0 = some p ∧ waitOver t 0 p .ending = true ∧ startGranted t 0 p = true ∧ freeCtx t = some 0) ∧
    ((twoWait 3 3).slot 1 = some { first 3 with seq := 1 } ∧ claimsOverlap (first 3) { first 3 with seq := 1 } = true) ∧
    (first 3).tag < 65536 ∧ (first 3).ring < 256 ∧ (first 3).seq < 2 ^ 64 := by decide +kernel

/-- Context 0 at patch RAM 0x4000, where the word w stands. -/
def microRun (w : Nat) (parity : Nat) : State :=
  { nopRun with csq.active := { words := [withParity w ^^^ BitVec.ofNat 132 (parity * 2 ^ 128)] },
                csq.ctxs := [(0, { busy := true, slot := some 0, pc := 0x4000 })] }

/-- Context 0 after a FAULT trap of the routine of slot 0. -/
def trapped : State :=
  { nopRun with csq.ctxs := [(0, { busy := true, frames := [⟨some 0, 5, [], [], [], 0, 0, [], false, false, false, false⟩] })] }

/-- A routine of sector 0 that a fault of that sector has trapped. -/
def faulted : State :=
  (withRun svc (desc 0x11 [(4, 1), (5, 1)])).updCtx 0 fun x => { x with due := [(0, domSec 0, List.replicate 8 0)] }

/-- Every context holds a routine of ring 1 (class 2), and a descriptor of ring 0 (class 0) waits in slot 9. -/
def allBusy : State :=
  { svc with csq.slots := ((List.range 7).map fun c => (c, some { held nopDesc with ring := 1, st := .running c })) ++
      [(9, some { held nopDesc with st := .waiting })],
             csq.ctxs := (List.range 7).map fun c => (c, { busy := true, slot := some c }),
             host.sq := [(0, { ring16 with cls := 0 })] }

theorem wit_MicrowordsAndTraps :
    (mayIssue (microRun 0x1234 1) 0 = true ∧ parityOk (fetchMicro (microRun 0x1234 1) 0x4000) = false) ∧
    mayIssue (microRun 0x1234 1) 1 = false ∧
    (let w := fetchMicro (microRun (2 ^ 35 + 2 ^ 33 + 2 ^ 32) 0) 0x4000
     mayIssue (microRun (2 ^ 35 + 2 ^ 33 + 2 ^ 32) 0) 0 = true ∧ parityOk w = true ∧ 11 ≤ mwBits w 35 32) ∧
    (let s := microRun (2 ^ 16 + 0x12) 0
     let x := s.ctx 0
     let w := fetchMicro s x.pc.toNat
     mayIssue s 0 = true ∧ parityOk w = true ∧ mwBits w 35 32 < 11 ∧ mwBits w 67 64 ∈ [0, 1, 3, 4, 5] ∧
       mwBits w 19 16 ≠ 9 ∧ mwBits w 19 16 ≠ 10 ∧ x.waits = false ∧
       nextMicro x w (mwCond s x (mwBits w 24 20) false false) 0 = some (0x12, [])) ∧
    (∀ z ∈ [true, false], let s := (microRun (8 * 2 ^ 16 + 2 ^ 20) 0).updCtx 0 fun x => { x with waits := true, z := z }
     let x := s.ctx 0
     let w := fetchMicro s x.pc.toNat
     mayIssue s 0 = true ∧ parityOk w = true ∧ mwBits w 35 32 < 11 ∧ mwBits w 67 64 = 0 ∧ x.waits = true ∧
       mwCond s x (mwBits w 24 20) false false = z ∧ (nextMicro x w z 0).isSome = true) ∧
    (∀ seq ∈ [9, 10], let s := microRun (seq * 2 ^ 16 + 0x12) 0
     let x := s.ctx 0
     let w := fetchMicro s x.pc.toNat
     mayIssue s 0 = true ∧ parityOk w = true ∧ mwBits w 35 32 < 11 ∧ mwBits w 67 64 ∈ [0, 1, 3, 4, 5] ∧ mwBits w 19 16 = seq ∧
       (nextMicro x w (mwCond s x (mwBits w 24 20) false false) 0).isSome = true ∧ x.waits = false ∧ x.slot = some 0 ∧
       s.slot 0 = some (held nopDesc) ∧ (held nopDesc).st = .running 0) ∧
    (∀ bus ∈ [2, 6], let w := withParity (bus * 2 ^ 64)
     mwBits w 28 28 = 0 ∧ mwBits w 67 64 = bus ∧ svc.memUp = true ∧ 0 + 4 ≤ svc.mem.capacity * 2 ^ 30) ∧
    (let owed := (faulted.ctx 0).due.find? fun e => some e.1 == ctxOwner faulted 0 && e.2.1 == (0x240 : BitVec 10).toNat
     owed = some (0, 0x240, List.replicate 8 0) ∧ (faulted.ctx 0).slot = some 0 ∧
       faulted.slot 0 = some (held (desc 0x11 [(4, 1), (5, 1)])) ∧ (faulted.ctx 0).atomic = false ∧ (faulted.ctx 0).frames.length < 3) ∧
    ((nopRun.ctx 0).due.find? fun e => some e.1 == ctxOwner nopRun 0 && e.2.1 == (0x240 : BitVec 10).toNat) = none ∧
    (let f : TrapFrame := ⟨some 0, 5, [], [], [], 0, 0, [], false, false, false, false⟩
     (trapped.ctx 0).slot = none ∧ (trapped.ctx 0).frames.getLast? = some f ∧ f.slot = some 0 ∧ trapped.slot 0 = some (held nopDesc) ∧
       f.aborted = false ∧ (held nopDesc).aborted = false ∧
       (f.test && canDisturb (held nopDesc) && epochChanged trapped (held nopDesc) f.epochs) = false) ∧
    (let s := nopRun.updSlot 0 fun x => { x with aborted := true }
     (s.ctx 0).slot = some 0 ∧ s.slot 0 = some { held nopDesc with aborted := true } ∧ (s.ctx 0).atomic = false ∧
       (s.ctx 0).frames.length < 3) ∧
    (let sl : Slot := { held nopDesc with st := .waiting }
     allBusy.slot 9 = some sl ∧ canStart allBusy 9 sl = true ∧ classOfSlot allBusy 9 = 0 ∧ headerFails sl = false ∧
       roleFails allBusy sl = false ∧ freeCtx allBusy = none ∧ urgentVictim allBusy = some 0 ∧ (allBusy.ctx 0).atomic = false) := by
  and_intros <;> decide +kernel

/-! ### Rings, registers, windows (13) -/

theorem wit_DoorbellsAndAborts :
    (let r := svc.ring .sq 0
     (r.enable = true ∧ (15 : BitVec 64).toNat < r.size ∧ r.dist r.cons r.prod ≤ r.dist r.cons 15) ∧ r.size ≤ (16 : BitVec 64).toNat) ∧
    (let r := svc.ring .cq 0
     r.enable = true ∧ 0 < r.size ∧ r.dist r.cons 0 ≤ r.dist r.cons r.prod ∧ r.dist r.cons r.prod < r.dist r.cons 1) ∧
    (let r := svc.ring .eq 0
     r.enable = true ∧ 0 < r.size ∧ r.dist r.cons 0 ≤ r.dist r.cons r.prod ∧ r.dist r.cons r.prod < r.dist r.cons 1) ∧
    (let r := svc.ring .str 0
     r.enable = true ∧ 0 < r.size ∧ r.dist r.cons 0 ≤ r.dist r.cons r.prod ∧ r.dist r.cons r.prod < r.dist r.cons 1) ∧
    (svc.ring .sq 1).enable = false ∧
    ((twoWait 3 3).ring .sq 0).enable = true ∧ (1 : BitVec 64).toNat < 65536 ∧ bitOf (1 : BitVec 64).toNat 0 = true ∧
    (∀ p ∈ (twoWait 3 3).csq.slots, ∀ sl ∈ p.2, sl.ring = 0 → (twoWait 3 3).slot p.1 = some sl ∧ sl.st = .waiting) := by decide

/-- A write of a whole register over PCI Express. -/
def full (v : Nat) : RegWrite := ⟨.pcie, .full, BitVec.ofNat 64 v⟩

theorem wit_RingsAndHostAreSetUp :
    (0 < RingKind.sq.count ∧ (svc.ring .sq 0).enable = true ∧
      (setCtrl .sq (svc.ring .sq 0) (RegWrite.onto (full 9) (BitVec.ofNat 64 (ringCtrl .sq (svc.ring .sq 0)))).toNat).enable = true) ∧
    ((setCtrl .sq (svc.ring .sq 0) (RegWrite.onto (full 8) (BitVec.ofNat 64 (ringCtrl .sq (svc.ring .sq 0)))).toNat).enable = false ∧
      ringIdle svc .sq 0 = true ∧ (full 8).half ≠ .high ∧
      (setCtrl .sq (svc.ring .sq 1) (RegWrite.onto (full 8) (BitVec.ofNat 64 (ringCtrl .sq (svc.ring .sq 1)))).toNat).enable = false) ∧
    (255 < RingKind.sq.count ∧ (svc.ring .sq 255).enable = false) ∧
    (let x := setCtrl .str (svc.ring .str 31) (RegWrite.onto (full 5) (BitVec.ofNat 64 (ringCtrl .str (svc.ring .str 31)))).toNat
     x.enable = true ∧ ringOk .str x = false) ∧
    (let x := setCtrl .str (svc.ring .str 31) (RegWrite.onto (full 7) (BitVec.ofNat 64 (ringCtrl .str (svc.ring .str 31)))).toNat
     x.enable = true ∧ ringOk .str x = true) ∧
    barSize svc = 0 ∧
    (let s := { svc with host.bar4Size := 2 }
     barSize s ≠ 0 ∧ (RegWrite.onto (full (2 ^ 26)) (BitVec.ofNat 64 (bar4Reg s))).toNat / 2 ^ 26 * 2 ^ 26 % barSize s ≠ 0) ∧
    svc.Linked := by decide

theorem wit_RegisterAccessesAct :
    ((0x28 : BitVec 32).toNat % 4 = 0 ∧ (0x28 : BitVec 32).toNat < 0x1000000 ∧
      (regWrite svc (writeAt .pcie 0x28 4 5) 0x28).isSome = true ∧ regWrite svc (writeAt .pcie 0xFF0 8 5) 0xFF0 = none) ∧
    (isNarrow ((0x5010C : BitVec 32).toNat / 8 * 8) = true ∧ (0x5010C : BitVec 32).toNat % 8 = 4) ∧
    ((0x2A : BitVec 32).toNat % 4 ≠ 0) ∧ doorAt (0x0FF8 : BitVec 32).toNat = none ∧
    (writeAt .pcie 0x30 4 5 = ⟨.pcie, .low, 5⟩) ∧ (0x200000 : BitVec 32).toNat ≤ 0x200000 ∧
    (regRead { svc with pwr.scratch := 9 } .pcie 0x28 = some 9 ∧ regRead svc .pcie 0xFF0 = none ∧ latchOf svc .pcie = none) ∧
    (pageStale { svc with flt.recs := [⟨domDie 0, 2, 0, 0, false, .queued, 0, false⟩] } 0x200040 = true) ∧
    ((0x28 : BitVec 32).toNat % 8 = 0 ∧ pageStale svc 0x28 = false ∧ pageStale svc 0x2C = false ∧
      regRead { svc with pwr.scratch := 9 } .mnt 0x28 = some 9 ∧
      isWide 0x28 = true ∧ latchOf { svc with stg.latchMnt := some (0x28, 3) } .mnt = some (0x28, 3)) := by decide

/-- BAR4 of 64 MiB at DDR5 address 0. -/
def barred : State := { svc with host.bar4Size := 1 }

theorem wit_Ddr5WindowAndScrubber :
    (barred.stopped = false ∧ barred.memUp = true ∧ barred.mem.poison = [] ∧ barred.mem.bad = [] ∧
      barred.host.barWait = [] ∧ barred.mem.single = [] ∧ (2 ^ 26 - 2 : BitVec 36).toNat + 2 ≤ barSize barred ∧
      inRegions barred (barred.host.bar4Base * 2 ^ 26 + (2 ^ 26 - 2 : BitVec 36).toNat) 2 = true) ∧
    ({ barred with mem.st := .recovery }.stopped = false ∧ { barred with mem.st := .recovery }.mem.st = .recovery) ∧
    svc.memUp = true ∧ svc.mem.scrubLine + 1 < svc.mem.capacity * 2 ^ 24 ∧
    { svc with mem.capacity := 0 }.mem.capacity * 2 ^ 24 ≤ svc.mem.scrubLine + 1 ∧
    { svc with mem.st := .outOfService }.memUp = false := by decide

theorem wit_Ddr5WindowAndScrubber_beats :
    badBeats barred (2 ^ 26 - 2) 2 = [] ∧ badBeats { barred with mem.bad := [2 ^ 24 - 1] } (2 ^ 26 - 2) 2 ≠ [] ∧
      badBeats barred ((2 ^ 26 - 2) / 64 * 64) 64 = [] := by
  simp [badBeats, barred, svc, State.reset]

/-- STR ring 0 with one staged block. -/
def staged : State := svc.setRing .str 0 { ring16 with staged := [([1], true)] }

/-- The same block, the last of a stream whose STREAM_CLOSE waits in slot 0. -/
def closingStr : State := (withRun svc nopDesc).setRing .str 0 { ring16 with staged := [([1], true)], closing := some (0, 2) }

theorem wit_StreamBlockIsDelivered :
    (closingStr.Linked ∧ (closingStr.ring .str 0).staged = ([1], true) :: [] ∧ (closingStr.ring .str 0).enable = true ∧
      (closingStr.ring .str 0).full = false ∧ (closingStr.ring .str 0).closing = some (0, 2) ∧ (closingStr.ring .str 0).source = [] ∧
      closingStr.slot 0 = some (held nopDesc) ∧ waitsCtx closingStr (held nopDesc) = false) ∧
    (staged.setRing .str 0 { ring16 with staged := [([1], true)], prod := 15 }).Linked ∧
    ((staged.setRing .str 0 { ring16 with staged := [([1], true)], prod := 15 }).ring .str 0).full = true ∧
    staged.Linked ∧ (staged.ring .str 0).staged = ([1], true) :: [] ∧ (staged.ring .str 0).enable = true ∧
    (staged.ring .str 0).full = false ∧ (staged.ring .str 0).closing = none ∧
    (∀ e p, (staged.eng e).ending = none ∧ (staged.outPort e p).words = []) ∧ (∀ d, (staged.dig d).owed = []) :=
  ⟨by decide, by decide, by decide, by decide, by decide, by decide, by decide, by decide, fun _ _ => ⟨rfl, rfl⟩, fun _ => rfl⟩

/-! ### Memory, sets, daymarks (14, 15) -/

/-- The conditions under which the rules of an opcode act, for a descriptor that `withRun` runs. -/
abbrev On (s : State) (b : List Byte) : Prop := (withRun s b).Serves 0 0 (held b)

/-- MEM_FILL of 64 bytes at 0x40. -/
def fillDesc : List Byte := desc 3 [(5, 0x20), (8, 0x1122334455667788), (16, 0x40), (24, 64)]
/-- MEM_COPY of 64 bytes from s to d, in a direction. -/
def copyDesc (dir s d : Nat) : List Byte := desc 2 [(5, 0x20), (8, dir), (16, s), (24, d), (32, 64)]

theorem wit_MemoryDescriptorsMove :
    (On svc nopDesc ∧ (held nopDesc).opc = 0 ∧ (held nopDesc).zero 8 64 = true) ∧
    (let sl := held fillDesc
     On svc fillDesc ∧ sl.opc = 3 ∧ sl.zero 32 64 = true ∧ sl.coversBit 5 = true ∧ (withRun svc fillDesc).memUp = true ∧
       dmaHeld (withRun svc fillDesc) 0 sl = false ∧ sl.op 16 8 % 64 = 0 ∧ sl.op 24 8 % 64 = 0 ∧ 0 < sl.op 24 8 ∧ sl.op 24 8 ≤ 2 ^ 37 ∧ sl.progress ≤ sl.op 24 8 / 64 ∧
       (regionHolding (withRun svc fillDesc) anyType (sl.op 16 8) (sl.op 24 8)).isSome = true) ∧
    (∀ dir, dir < 3 →
     let b := copyDesc dir 0 128
     let sl := held b
     let s := withRun svc b
     On svc b ∧ sl.opc = 2 ∧ sl.zero 9 16 = true ∧ sl.zero 40 64 = true ∧ sl.coversBit 5 = true ∧ s.memUp = true ∧ dmaHeld s 0 sl = false ∧ sl.op 8 1 = dir ∧
       sl.op 16 8 = 0 ∧ sl.op 24 8 = 128 ∧ sl.op 32 8 = 64 ∧ sl.progress < 1 ∧ (regionHolding s anyType 0 64).isSome = true ∧
       (regionHolding s anyType 128 64).isSome = true ∧ overlap 0 64 128 64 = false) ∧ badBeats svc 0 64 = [] ∧
    badBeats { svc with mem.bad := [3] } 0 64 = [3] ∧
    (let s := (withRun { svc with mem.st := .recovery } fillDesc).updSlot 0 fun x => { x with progress := 1 }
     s.Serves 0 0 { held fillDesc with progress := 1 } ∧ s.mem.st = .recovery) := by
  refine ⟨by decide, by decide, by decide, by simp [badBeats, svc, State.reset], by simp [badBeats, svc, State.reset], by decide⟩

/-- A STAGE of one record into set 0 that opens it: TYPE of region 1 becomes PATTERN. -/
def stageDesc (opening : Nat) : List Byte := desc 8 [(9, opening), (12, 1)]
/-- The record as the host lays it out (15 R342). -/
def recBytes (v : Nat) : List Byte := leBytes 16 (0x0B001001 + v * 2 ^ 32)
/-- Set 0 holds that record, or waits for its apply. -/
def opened (st : SetSt) : State := { svc with stg.sets := [(0, { st := st, recs := [⟨0x0B001001, 1⟩, ⟨0x0B001003, 2 ^ 20⟩, ⟨0x0B001002, 2 ^ 30⟩] })] }
/-- An APPLY of set 0 at position 0x100000000, and the action it enters. -/
def applyAct : Action := { kind := .apply 0, slot := some 0, pos := 2 ^ 40 }

theorem wit_SetsAreStagedAndApplied :
    (let sl := held (stageDesc 1)
     On svc (stageDesc 1) ∧ sl.opc = 8 ∧ sl.zero 10 12 = true ∧ sl.zero 24 64 = true ∧ sl.op 8 1 ≤ 15 ∧ sl.op 16 8 % 16 = 0 ∧
       sl.op 12 4 = 1 ∧ ((withRun svc (stageDesc 1)).set 0).recs.length + 1 ≤ 4096 ∧ sl.op 9 1 = 1 ∧
       ((withRun svc (stageDesc 1)).set 0).st = .free) ∧
    (let s := withRun (opened .opened) (stageDesc 0)
     (held (stageDesc 0)).op 9 1 = 0 ∧ owns s (held (stageDesc 0)) 0 = true ∧ (s.set 0).st = .opened ∧ (s.set 0).recs.length + 1 ≤ 4096) ∧
    (∀ r ∈ (chunks 16 1 (hostBytes (recBytes 1) 16)).map readRec, (recordOk r.1.target r.1.value = true ∧ r.2 = true) ∧
      ¬ (svc.grp.keeper = true ∧ r.1.target = targetOf 0x0A 0 0x001 ∧ r.1.value = 1)) ∧
    (((chunks 16 1 (hostBytes (recBytes 7) 16)).map readRec).findIdx? fun r => !(recordOk r.1.target r.1.value && r.2)) = some 0 ∧
    (let b := desc 9 [(5, 0x20)]
     let s := withRun (opened .opened) b
     On (opened .opened) b ∧ (held b).opc = 9 ∧ (held b).zero 9 64 = true ∧ (held b).op 8 1 ≤ 15 ∧
       ∀ t ∈ setTests s (held b) ((held b).op 8 1) (imageFor s none none), t.1 = false) ∧
    (let b := desc 0x0B []
     let s := withRun (opened .opened) b
     On (opened .opened) b ∧ (held b).opc = 0x0B ∧ (held b).zero 9 64 = true ∧ (held b).op 8 1 ≤ 15 ∧ owns s (held b) 0 = true ∧
       (s.set 0).st = .opened) ∧
    (let b := desc 0x0A [(5, 0x20), (9, 1), (16, 2 ^ 40)]
     let s := withRun (opened .opened) b
     let sl := held b
     let p := requestPos s sl 9 16 4000
     On (opened .opened) b ∧ sl.opc = 0x0A ∧ applyOk sl = true ∧ (∀ t ∈ setTests s sl 0 (imageFor s (some p) none), t.1 = false) ∧
       (s.set 0).st = .opened ∧ laterApply s sl p = none ∧ schedFull s = false ∧ requestLate s sl 9 16 4000 = false) ∧
    (let s := { opened .pending with stg.sched := [applyAct], sweep.pos := 2 ^ 40 - 1 }
     ownApply s 0 = some applyAct ∧ applyAct.checked = false ∧ ahead s.sweep.pos applyAct.pos * 160 ≤ 4000 * s.sweep.rate ∧
       recoveryTests s applyAct 0 = none ∧ mayAct s applyAct = false) ∧
    (let s := { opened .pending with stg.sched := [applyAct], sweep.pos := 2 ^ 40 - 1,
                                     flt.recs := [⟨0x290, 2, 0, 0, false, .queued, 0, false⟩] }
     ownApply s 0 = some applyAct ∧ ahead s.sweep.pos applyAct.pos * 160 ≤ 4000 * s.sweep.rate ∧ (recoveryTests s applyAct 0).isSome = true) ∧
    (let a : Action := { applyAct with checked := true }
     let s := { opened .pending with stg.sched := [a], sweep.pos := 2 ^ 40 }
     findAct s (.apply 0) = some a ∧ mayAct s a = true ∧ a.checked = true ∧ (s.set 0).group = false) := by
  and_intros <;> decide +kernel

theorem wit_DaymarksCapture :
    (let b := desc 0x48 []
     let s := withRun svc b
     let sl := held b
     let p := requestPos s sl 9 16 1000
     On svc b ∧ sl.opc = 0x48 ∧ sl.zero 8 9 = true ∧ sl.op 9 1 = 0 ∧ sl.zero 10 16 = true ∧ sl.zero 24 64 = true ∧ sl.zero 16 24 = true ∧
       schedFull s = false ∧ requestLate s sl 9 16 1000 = false ∧ dayTooClose s p = false) ∧
    (let s := { svc with stg.sched := [{ kind := .daymark, slot := some 0, pos := 0 }] }
     dueDay s = some ({ kind := .daymark, slot := some 0, pos := 0 }, none) ∧ s.stg.dayBusy = none ∧
       s.stg.daySnap = none ∧ { s with stg.daySnap := some (s.now, []) }.stg.daySnap = some (s.now, [])) ∧
    (let s := { withRun svc (desc 0x48 []) with stg.dayBusy := some (0, some 0) }
     s.stg.dayBusy = some (0, some 0) ∧ isGroupSlot s 0 = false) := by decide

/-! ### The sweep (02) -/

theorem wit_PositionsCompare : isFuture 0 (0x7FFFFFFFFFFFFFFF : Pos) = true ∧ isPast 0 (0x8000000000000000 : Pos) = true := by decide

theorem wit_TimeSweepAdds40960 :
    svc.pending = [] ∧ svc.running = true ∧ svc.aux.busy = none ∧ svc.grp.fence = none ∧ svc.sweep.source = .time ∧
    svc.sweep.st = .running ∧ svc.sweep.rate = 10485760 ∧ svc.sweep.acc < 256 ∧ svc.sweep.limit = none ∧ svc.sweep.holdFor = none := by
  decide

/-- A synchronised ANGLE sweep whose last tooth came 10,000 ticks ago. -/
def angled : State :=
  { svc with sweep := { source := .angle, synced := true, lastTooth := some (990000 * 65536), lastIv := some (10000 * 65536, 1),
                        sinceMark := some 0, rate := 1000, lastTicks := 10000, limit := some 5, ang := anglePars svc } }

theorem wit_AngleSweepFollowsTeeth :
    (angled.sweep.acc < 256 ∧ angled.sweep.rate < 2 ^ 60 ∧ angled.sweep.limit = some 5 ∧ angled.sweep.pos ≠ 5) ∧
    edgeSpaced angled.sweep.lastTooth (990000 * 65536) = false ∧
    (let a := anglePars angled
     angled.sweep.source = .angle ∧ angled.running = true ∧ stampDue angled (1000000 * 65536) = true ∧
      edgeSelected angled.sweep.ang.toothEdge false = true ∧ edgeSelected angled.sweep.ang.indexEdge false = true ∧
      true ≠ decide (angled.sweep.ang.toothEdge = 1) ∧ true ≠ decide (angled.sweep.ang.indexEdge = 1) ∧
      edgeSpaced angled.sweep.lastTooth (1000000 * 65536) = true ∧ a.slots = angled.sweep.ang.slots ∧
      a.missing = angled.sweep.ang.missing ∧ a.revs = angled.sweep.ang.revs ∧ a.mode = 0 ∧
      ¬ (a.thresh * (10000 * 65536) < (1000000 * 65536 - 990000 * 65536) * 16) ∧ angled.sweep.synced = true ∧
      0 + 1 ≤ a.slots - a.missing ∧ angled.sweep.rev < a.revs) ∧
    (let s := { angled with sweep.ang := { anglePars svc with slots := 36 } }
     s.sweep.synced = true ∧ (anglePars s).slots ≠ s.sweep.ang.slots) ∧
    edgeSpaced angled.sweep.lastIndex (1000000 * 65536) = true ∧
    (let s := { angled with tick := 2 * 10 ^ 9 }
     s.sweep.source = .angle ∧ s.sweep.synced = true ∧
       ((990000 * 65536 : Nat) : Int) + stampUnits s.sweep.ang.timeout ≤ (stampNow s : Int)) ∧
    (let s := { angled with sweep.pos := 4 }
     s.sweep.limit = some 5 ∧ s.sweep.source = .angle ∧ s.sweep.st = .running ∧ s.sweep.pos + 1 = 5) := by decide

/-- A worker that follows a beacon, in some state of its sweep. -/
def worker (st : SweepState) : State :=
  { svc with sweep := { source := .group, st := st, pos := 2 ^ 50, lastFrame := 0, holdoverAt := 0 }, grp.phase := some 0 }

theorem wit_WorkerFollowsBeacon :
    ((worker .running).sweep.source = .group ∧ (worker .running).grp.keeper = false ∧ (worker .running).grp.phase.isSome = true ∧
      (worker .running).running = true ∧ stampDue (worker .running) (1000000 * 65536) = true ∧ (worker .running).sweep.st = .running ∧
      (worker .running).sweep.takeNext = false) ∧
    (let s := { worker .running with sweep.takeNext := true }
     s.sweep.source = .group ∧ s.sweep.takeNext = true ∧ stampDue s (1000000 * 65536) = true) ∧
    ((worker .holdover).sweep.takeNext = false ∧ (worker .holdover).stg.sched = []) ∧
    isPast (worker .running).sweep.pos (2 ^ 50 + 5) = false ∧ isPast (worker .running).sweep.pos 5 = true ∧
    ((worker .held).sweep.source = .group ∧ (worker .held).sweep.lastFrame + framesMissing ≤ (worker .held).now) ∧
    ((worker .holdover).sweep.source = .group ∧ (worker .holdover).sweep.holdoverAt + 64 * usTicks ≤ (worker .holdover).now) ∧
    (let s := { worker .held with sweep.holdFor := some 3, sweep.beacon := 3 }
     s.sweep.holdFor = some 3 ∧ isFuture s.sweep.beacon 3 = false) := by decide

/-! ### Channels and stampers (03, 04, 07) -/

/-- svc with channel 0 as given. -/
def chan0 (c : Chan) : State := { svc with chans := [(0, c)] }

/-- A due edge D1 of period 2 of channel 0 in the NRZ format. -/
def edge1 : PinEdge := { period := 2, kind := .d1, code := 1, format := 0, at' := 256 * 1000 }

/-- Channel 0 ACTIVE with that edge, its driver and its last acting edge as given. -/
def driving (drv : Drv) (last : Option (Int × Nat)) : State :=
  chan0 { st := .active, drv := drv, lastEdge := last, edges := [edge1, { edge1 with period := 1, at' := 256 * 2000 }] }

theorem wit_DriversAct :
    (let s := driving .vih none
     (s.chan 0).edges ≠ [] ∧ repredict s 0 = some s) ∧
    (let b : Burst := { slot := 1, mask := 1, follow := none, pad := false, rate := 0, closure := [(0, 5)], captureBase := 0,
                        captureSize := 0, resultAddr := 0 }
     let s := { driving .vih none with
        sectors := [(0, { st := .armed, own := some 1, base := some 5 })], bursts := [(1, some b)],
        stg.sched := [{ kind := .burst 1, slot := some 1, pos := 2 ^ 40 }], sweep.st := .held }
     (s.chan 0).edges ≠ [] ∧ repredict s 0 = none) ∧
    (let s := chan0 { st := .pmu, drv := .off, edges := [edge1] }
     nextEdge s 0 = some edge1 ∧ (s.chan 0).st ≠ .idle ∧ (s.chan 0).st ≠ .active) ∧
    ((chan0 { checking := true }).chan 0).checking = true ∧ pinsDriven { svc with pwr.badRails := [3] } = false ∧
    (let s := driving .vih none
     (s.chan 0).checking = false ∧ pinsDriven s = true ∧ (s.chan 0).st = .active ∧ drivenCode s 0 0 = some (levelCode (s.setting 1 0 2))) ∧
    (∀ v ∈ [0, 1, 2], let s := { driving .off none with stg.image := [(0x0100000B, v)] }
     drivenCode s 0 0 = none ∧ (s.chan 0).st = .active ∧ s.setting 1 0 0x00B = v) ∧
    (drivenCode svc 0 0 = none ∧ (svc.chan 0).st ≠ .idle ∧ (svc.chan 0).st ≠ .active) ∧
    (let s := driving .vih none
     nextEdge s 0 = some edge1 ∧ edgeResult 0 1 .d1 .vih = drvAt s 0 edge1.at' ∧ stepDue s edge1.at' = true ∧
       unplaced s 0 edge1.at' = false) ∧
    (let s := driving .vil none
     nextEdge s 0 = some edge1 ∧ edgeResult 0 1 .d1 .vil ≠ drvAt s 0 edge1.at' ∧ (s.chan 0).lastEdge = none ∧
       edgeFalls s 0 edge1 .vih edge1.at' = false) ∧
    (let s := driving .vil (some (256 * 999, 1))
     nextEdge s 0 = some edge1 ∧ edgeResult 0 1 .d1 .vil ≠ drvAt s 0 edge1.at' ∧ (s.chan 0).lastEdge = some (256 * 999, 1) ∧
       edge1.at' < 256 * 999 + 512 ∧ edge1.delayed = false) := by
  and_intros <;> decide +kernel

/-- A compare of code c from step 1000, a window to step 2000 or a strobe. -/
def cmpOf (c : Nat) (window opened failed : Bool) : Compare :=
  { period := 3, code := c, window := window, c0 := 1000, c1 := if window then 2000 else 1000, opened := opened, failed := failed }
/-- Channel 0 ACTIVE with that compare, timers ending and blankings due as given, under EDGE_BLANK m. -/
def comparing (k : Compare) (m : Int) (timer : Option Int) (due : List (Int × Int)) : State :=
  { chan0 { st := .active, compares := [k], blanksDue := due } with
    lgs := [(0, { blankEnd := timer })], stg.image := [(0x0100000C, m)], sectors := [(0, { st := .running, periods := [⟨3, 0, 0, none, 1, false, []⟩] })] }
/-- The sector waits for the sweep from edge step 500 on. -/
def waiting (s : State) : State := s.updSec 0 fun x => { x with waitFrom := some 500 }

theorem wit_ComparesDecideOutsideBlanking :
    (∀ c ∈ [4, 5, 10], let k := cmpOf c false false false
     let s := comparing k 0 none []
     nextCompare (s.chan 0) = some k ∧ compareDue s 0 k k.c0 = true ∧ inWait s 0 k.c0 = false ∧ k.code = c ∧ k.window = false ∧
       (s.chan 0).st = .active ∧ s.setting 1 0 0x00D = 0 ∧ (s.chan 0).clearedAt ≤ (k.c0 / 256).toNat) ∧
    (let k := cmpOf 4 false false false
     let s := waiting (comparing k 0 none [])
     nextCompare (s.chan 0) = some k ∧ compareDue s 0 k k.c0 = true ∧ inWait s 0 k.c0 = true) ∧
    (let k := cmpOf 4 true false false
     let s := comparing k 0 none []
     nextCompare (s.chan 0) = some k ∧ k.code ≠ 10 ∧ k.window = true ∧ k.c0 < k.c1 ∧ openWindow (s.chan 0) = none) ∧
    (∀ f ∈ [true, false], let k := cmpOf 4 true true f
     let s := comparing k 0 none []
     openWindow (s.chan 0) = some k ∧ compareDue s 0 k (k.c1 - 1) = true ∧ opensBefore s 0 k.c1 = false ∧ k.failed = f ∧
       runFails k (runStop s 0 k k.c1) = none) ∧
    (let k : Compare := { cmpOf 7 true true false with between := some 1100 }
     let s := comparing k 0 none []
     openWindow (s.chan 0) = some k ∧ compareDue s 0 k (k.c1 - 1) = true ∧ opensBefore s 0 k.c1 = false ∧
       runFails k (runStop s 0 k k.c1) = some 1612) ∧
    (let k := cmpOf 5 true true false
     let s := comparing k 1 (some 1500) []
     (s.lg 0).blankEnd = some 1500 ∧ stepDue s 1500 = true ∧ (∀ j : Fin 8, opensBefore s (8 * (0 : Fin 64).val + j.val) 1500 = false) ∧
       s.setting 1 0 0x00C = 1 ∧ openWindow (s.chan 0) = some k ∧ k.failed = false ∧ k.code ≠ 7 ∧ k.c0 ≤ 1500 ∧ 1500 < windowEnd (s.chan 0) k ∧
       inWait s 0 1500 = false ∧ violates k.code (classAt (s.chan 0) 1500) = true) ∧
    (let k := cmpOf 5 true true false
     let s := comparing k 2 none [(1400, 1500)]
     (s.chan 0).blanksDue = [(1400, 1500)] ∧ stepDue s 1500 = true ∧ opensBefore s 0 1500 = false ∧ s.setting 1 0 0x00C = 2 ∧
       openWindow (s.chan 0) = some k ∧ k.failed = false ∧ k.code ≠ 7 ∧ k.between = none ∧ k.c0 ≤ 1500 ∧ 1500 < windowEnd (s.chan 0) k ∧
       inWait s 0 1500 = false ∧ violates k.code (classAt (s.chan 0) 1500) = true) := by
  and_intros <;> decide +kernel

/-- Channel 0 ACTIVE in the ALL mode, its last resolved crossing as given. -/
def stamping (last ref : Option Nat) : State :=
  { chan0 { st := .active, resolved := last, refVol := ref } with stg.image := [(0x01000201, 1), (0x01000202, 15), (0x01000203, 100)] }

theorem wit_CrossingsReachStreams :
    crossMoves ((stamping none none).chan 0) .volRise = !((stamping none none).chan 0).vol ∧
    (let s := stamping none none
     crossMoves (s.chan 0) .vohRise = true ∧ blankedAt s 0 (stepOfStamp s 65536) = false ∧ (s.chan 0).st ≠ .hold ∧
       (s.chan 0).st ≠ .isolated ∧ (s.chan 0).checking = false ∧ holdRef s 0 .vohRise = none ∧ (s.chan 0).resolved = none ∧
       s.setting 1 0 0x201 = 1 ∧ bitOf (s.settingN 1 0 0x202) (crossType .vohRise) = true) ∧
    (let s := stamping (some 65536) none
     crossMoves (s.chan 0) .vohRise = true ∧ holdRef s 0 .vohRise = none ∧ (s.chan 0).resolved = some 65536 ∧ 65537 < 65536 + 419431) ∧
    (let s := stamping none (some 1)
     crossMoves (s.chan 0) .vohRise = true ∧ holdRef s 0 .vohRise = some 1 ∧ 65536 / 65536 - 1 < s.settingN 1 0 0x203) ∧
    (crossMoves ((chan0 {}).chan 0) .vohRise = true ∧ ((chan0 {}).chan 0).st = .hold) ∧
    (let s := chan0 { st := .active, aligning := [(65536, ⟨0, 5, 6⟩)] }
     (s.chan 0).aligning = (65536, ⟨0, 5, 6⟩) :: [] ∧ stampDue s 65536 = true ∧ s.setting 1 0 0x201 = 0) ∧
    (let s := { chan0 { st := .active, aligning := [(65536, ⟨0, 5, 6⟩)] } with stg.image := [(0x01000201, 1)] }
     (s.chan 0).aligning = (65536, ⟨0, 5, 6⟩) :: [] ∧ stampDue s 65536 = true ∧ s.setting 1 0 0x201 = 1 ∧
       beforeStream s 0 (65536 - 6710887) = false ∧ (s.chan 0).queue.length < 120) ∧
    (let s := { chan0 { st := .active, aligning := [(65536, ⟨0, 5, 6⟩)] } with
                streams := [(0, { isOpen := true, first := 0, count := 1, since := 9 })], stg.image := [(0x01000201, 1)] }
     s.setting 1 0 0x201 = 1 ∧ beforeStream s 0 (65536 - 6710887) = true) ∧
    (let s := { chan0 { st := .active, aligning := [(65536, ⟨0, 5, 6⟩)], queue := List.replicate 120 ⟨0, 0, 0⟩ } with
                stg.image := [(0x01000201, 2)] }
     (s.chan 0).aligning = (65536, ⟨0, 5, 6⟩) :: [] ∧ s.setting 1 0 0x201 = 2 ∧ windowPass s 0 (5 * 65536 + 6) = false ∧
       120 ≤ (s.chan 0).queue.length) ∧
    (let s := { chan0 { st := .active, queue := [⟨0, 5, 6⟩], epochSent := some 0 } with
                streams := [(3, { isOpen := true, dest := 0, first := 0, count := 1, base := 4096, size := 4096 })] }
     streamOf s 0 = some 3 ∧ (s.chan 0).queue = ⟨0, 5, 6⟩ :: [] ∧ mergeable s 0 = true ∧ s.mergeNext ≤ 5 * s.now + 4 ∧
       s.memUp = true ∧ (s.memChan 0).owed = false ∧ (s.memChan 1).owed = false ∧ (s.stream 3).dest = 0 ∧ (s.chan 0).lostCount = 0 ∧
       (s.chan 0).epochSent = some (5 / 2 ^ 45) ∧ (s.chan 0).wrOff + 16 ≤ (s.stream 3).size) ∧
    badBeats svc (4096 / 64 * 64) ((4096 + 71) / 64 * 64 - 4096 / 64 * 64) = [] ∧
    (∀ n : Nat, n ≠ 0 → ((chan0 { st := .active, queue := [⟨0, 5, 6⟩] }).chan n).queue = []) ∧
    (let s := { chan0 { st := .active, block := [⟨0, 5, 6⟩] } with
                streams := [(3, { isOpen := true, dest := 1, first := 0, count := 1, str := 0, flush := 10 })] }
     (s.stream 3).isOpen = true ∧ (s.stream 3).dest = 1 ∧ streamOf s 0 = some 3 ∧ (s.chan 0).block = ⟨0, 5, 6⟩ :: [] ∧
       (s.stream 3).flush * usTicks ≤ s.now - (s.chan 0).blockAt ∧ stageRoom s (s.stream 3).str = true) :=
  ⟨by decide, by decide, by decide, by decide, by decide, by decide, by decide, by decide, by decide, by decide +kernel,
    by simp [badBeats, svc, State.reset], fun n h => by simp [chan0, State.chan, Tab.get, Ne.symm h], by decide +kernel⟩

/-- Window generator 1 of sector 0, with its window as given; channel 0 follows it. -/
def windowed (w : Option (Nat × Nat)) (isOpen : Bool) : State :=
  { svc with sectors := [(0, { wgs := [(1, { armed := some 0, src := 0, win := w, isOpen := isOpen, due := [65536], count := 1 })] })],
             chans := [(0, { st := .idle })], stg.image := [(0x01000201, 2), (0x01000205, 1)] }

theorem wit_StampersOpenWindows :
    (((windowed none false).wg 0 1).armed.isSome = true ∧ ((windowed none false).wg 0 1).src ≠ 1 ∧
      65536 ∈ ((windowed none false).wg 0 1).due ∧ (∀ d ∈ ((windowed none false).wg 0 1).due, 65536 ≤ d) ∧
      ((windowed none false).wg 0 1).win = none) ∧
    (((windowed (some (65536, 131072)) false).wg 0 1).win = some (65536, 131072) ∧ 65536 < 131072) ∧
    (((windowed (some (1, 2)) false).wg 0 1).win = some (1, 2) ∧ 2 ≤ 65536) ∧
    (let a : Action := { kind := .window 0 1, slot := some 0, pos := 0 }
     let s := { (windowed none false).updWg 0 1 (fun x => { x with src := 1 }) with stg.sched := [a] }
     (s.wg 0 1).armed.isSome = true ∧ (s.wg 0 1).src = 1 ∧ findAct s (.window 0 1) = some a ∧ mayAct s a = true ∧
       (s.wg 0 1).win = none) ∧
    (((windowed (some (65536, 131072)) false).wg 0 1).isOpen = false ∧ stampDue (windowed none false) 65536 = true ∧
      followers (windowed none false) 0 1 = [0] ∧ ((windowed none false).chan 0).queue = []) ∧
    (((windowed (some (65536, 131072)) true).wg 0 1).isOpen = true ∧ stampDue (windowed none false) 131072 = true ∧
      ((windowed none false).wg 0 1).armed = some 0) ∧
    (let b := desc 0x20 [(4, 1), (5, 1), (10, 0), (12, 1), (16, 0), (24, 1000000)]
     let s := withRun svc b
     On svc b ∧ (held b).opc = 0x20 ∧ (held b).op 8 1 = 0 ∧ timArmOk (held b) = true ∧ (held b).covers0 (held b).secMask = true ∧
       (held b).op 10 1 ≠ 1 ∧ (s.wg 0 0).armed = none ∧ inRecovery s (domSec 0) = false) ∧
    (∀ q ∈ [0, 2 ^ 40], let b := desc 0x20 [(4, 1), (5, 1), (10, 1), (12, 2), (16, 0), (24, 1000000), (32, q), (40, 2 ^ 40)]
     let s := withRun svc b
     timArmOk (held b) = true ∧ (held b).op 10 1 = 1 ∧ isLate s (BitVec.ofNat 64 ((held b).op 32 8)) 1000 = (q == 0) ∧
       schedFull s = false) ∧
    (let b := desc 0x20 [(4, 1), (5, 1), (8, 1), (9, 1)]
     On (windowed none false) b ∧ (held b).opc = 0x20 ∧ (held b).op 8 1 = 1 ∧ (held b).op 9 1 ≤ 3 ∧ (held b).zero 10 64 = true ∧
       popcount 8 (held b).secMask = 1 ∧ (held b).covers0 (held b).secMask = true ∧ ((windowed none false).wg 0 1).armed.isSome = true) ∧
    (let b := desc 0x21 [(4, 1), (5, 1), (9, 0), (10, 2), (12, 0), (14, 2), (16, 1000), (24, 0), (32, 4096)]
     let s := { withRun svc b with stg.image := [(0x0B000001, 4), (0x0B000003, 2 ^ 30)] }
     s.Serves 0 0 (held b) ∧ (held b).opc = 0x21 ∧ stampStreamOk (held b) = true ∧ (held b).op 8 1 = 0 ∧ (held b).op 32 8 ≠ 0 ∧
       (regionHolding s [4] ((held b).op 24 8) ((held b).op 14 2 * 4096)).isSome = true ∧
       (∀ n ∈ streamChans 0 2, (held b).covers0 (2 ^ (n / 64)) = true ∧ streamOf s n = none) ∧ (s.stream 2).isOpen = false ∧
       (∀ n ∈ streamChans 0 2, streamOf s n = none) ∧
       s.memUp = true ∧ fitsStamp s 8000 = true ∧ (∀ d ∈ chanDies (streamChans 0 2), fitsUp s d 8000 = true)) := by
  and_intros <;> decide +kernel

theorem wit_LevelsAreHeldAsCodes : pageStale svc (0x200000 + 0x1000 * 511) = false ∧
    (∀ v ∈ [(-1500000 : Int), 7000000], let s := { svc with stg.image := [(targetOf 1 511 2, v)] }
     s.setting 1 511 2 = v) ∧ svc.setting 1 511 8 = 0 ∧
    { svc with stg.image := [(targetOf 1 511 9, 24000000)] }.setting 1 511 9 = 24000000 := by decide +kernel

/-! ### Patterns and sequencers (05, 06) -/

/-- A vector word (05 R89). -/
def vec (opc operand tset pins : Nat) : Nat := pins + operand * 2 ^ 256 + opc * 2 ^ 276 + tset * 2 ^ 282
/-- SEG_LOAD of sector 0: KIND k into SEG_ID 5, count words at store base 0. -/
def segDesc (k count : Nat) : List Byte := desc 0x10 [(4, 1), (5, 1), (8, 5), (10, k), (12, count)]
/-- A burst of sector 0 alone over SEG_ID 5. -/
def burst0 : Burst :=
  { slot := 1, mask := 1, follow := none, pad := false, rate := 0, closure := [(0, 5)], captureBase := 0, captureSize := 0, resultAddr := 0 }
/-- Sector 0 with segment 5 resident, three vectors, and a burst of its own. -/
def sec0 (st : SeqSt) : Sector :=
  { st := st, dir := [(5, some { kind := 1, base := 0, len := 3 })], store := [(1, 7)], own := some 1, seg := 5 }
/-- svc with sector 0 as given, under the burst b. -/
def under (b : Burst) (x : Sector) : State := { svc with sectors := [(0, x)], bursts := [(1, some b)] }
/-- svc with sector 0 as given. -/
def secs (x : Sector) : State := under burst0 x
/-- A vector of sector 0 as issued at offset o. -/
def issued (opc operand o : Nat) : Issued := { num := some o, word := BitVec.ofNat 288 (vec opc operand 0 0), seg := 5, off := o, start := 1000 }
/-- Sector 0 running, its last issued vector of that opcode, with open loops and calls. -/
def acting (opc operand o : Nat) (loops : List Loop) (calls : List CallFrame) (rpt : Nat) : State :=
  secs { sec0 .running with issued := some (issued opc operand o), loops := loops, calls := calls, rpt := rpt }

/-- svc with its region of patterns and the given uncorrectable beats of DDR5. -/
def patterns (bad : List Nat) : State := { svc with stg.image := [(0x0B000001, 1), (0x0B000003, 2 ^ 30)], mem.bad := bad }

theorem wit_SegmentsAndBursts :
    (let sl := held (segDesc 2 0)
     On svc (segDesc 2 0) ∧ sl.opc = 0x10 ∧ segLoadOk sl = true ∧ sl.covers0 (2 ^ lowestBit 8 sl.secMask) = true ∧
       dmaHeld (withRun svc (segDesc 2 0)) 0 sl = false ∧ sl.progress = 0 ∧ sl.op 10 1 = 2 ∧ segActive svc 0 5 = false) ∧
    (let sl := held (segDesc 0 2)
     let one (opc : Nat) := (chunks 36 2 (sl.held ++ hostBytes (leBytes 36 (vec opc 0 0 0)) 72)).map vWord
     On svc (segDesc 0 2) ∧ segLoadOk sl = true ∧ dmaHeld (withRun svc (segDesc 0 2)) 0 sl = false ∧ sl.op 10 1 = 0 ∧
       sl.op 11 1 = 0 ∧ sl.op 12 4 = 2 ∧ 0 + sl.op 12 4 ≤ 233016 ∧
       segActive (under { burst0 with closure := [(0, 5)] } (sec0 .running)) 0 5 = true ∧ segActive svc 0 5 = false ∧
       storeOverlaps svc 0 5 0 2 = false ∧ min 2 (sl.progress + 1) < 2 ∧ min 2 (sl.progress + 2) = 2 ∧
       (scanSegment 1 0 (one 0x0C)).2 = none ∧ (scanSegment 1 0 (one 0x3F)).2 = some 0) ∧
    (∀ k ∈ [0, 1], let b := desc 0x10 [(4, 1), (5, 1), (8, 5), (10, k), (11, 1), (12, 2)]
     let s := withRun (patterns []) b
     let sl := held b
     s.Serves 0 0 sl ∧ sl.opc = 0x10 ∧ segLoadOk sl = true ∧ sl.op 10 1 = k ∧ sl.op 11 1 = 1 ∧ sl.op 12 4 = 2 ∧
       sl.covers0 (2 ^ lowestBit 8 sl.secMask) = true ∧ dmaHeld s 0 sl = false ∧ s.memUp = true ∧
       (regionHolding s [1] 0 72).isSome = true ∧ (regionHolding s [1, 6] 0 72).isSome = true ∧ segActive s 0 5 = false ∧
       storeOverlaps s 0 5 0 2 = false ∧
       ((withRun (patterns [3]) b).memUp = true ∧ segActive (withRun (patterns [3]) b) 0 5 = false)) ∧
    badBeats (patterns []) 0 72 = [] ∧ badBeats (patterns [3]) 0 72 = 3 :: [] ∧
    (let b := desc 0x13 [(4, 0x80), (5, 1), (8, 510), (10, 2)]
     On svc b ∧ (held b).opc = 0x13 ∧ (held b).progress = 0 ∧ (held b).zero 12 16 = true ∧ (held b).zero 24 64 = true ∧
       (held b).op 16 8 % 8 = 0 ∧ (held b).op 8 2 + (held b).op 10 2 ≤ 512 ∧ 0 < (held b).op 10 2 ∧
       (∀ i : Fin 2, field (hostBytes [0xFF, 0xFF, 9, 0] 4) (2 * i.val) 2 = 9 ∨
         field (hostBytes [0xFF, 0xFF, 9, 0] 4) (2 * i.val) 2 = 0xFFFF) ∧
       (∀ i : Fin 2, (held b).covers0 (2 ^ ((510 + i.val) / 64)) = true ∧ (svc.sec ((510 + i.val) / 64)).st = .idle)) ∧
    (let sl : Slot := { held (desc 0x13 [(4, 0x80), (5, 1), (8, 510), (10, 2)]) with progress := 1, held := [0xFF, 0xFF, 9, 0] }
     let s := { svc with csq.slots := [(0, some sl)], csq.ctxs := [(0, { busy := true, slot := some 0 })] }
     let u := { s with sectors := [(7, sec0 .running)] }
     s.Serves 0 0 sl ∧ sl.opc = 0x13 ∧ 0 < sl.progress ∧ sl.op 8 2 + sl.op 10 2 ≤ 512 ∧ sl.op 10 2 ≤ sl.progress + 1 ∧
       (∀ i : Fin 2, (s.sec ((510 + i.val) / 64)).st = .idle) ∧ u.Serves 0 0 sl ∧
       ¬ ((u.chan 511).site = siteEntry (field sl.held 2 2) ∨ (u.sec (511 / 64)).st = .idle)) ∧
    (let sl : Slot := { held (desc 0x13 [(4, 0x80), (5, 1), (8, 500), (10, 12)]) with progress := 1 }
     let s := { svc with csq.slots := [(0, some sl)], csq.ctxs := [(0, { busy := true, slot := some 0 })] }
     s.Serves 0 0 sl ∧ sl.opc = 0x13 ∧ 0 < sl.progress ∧ sl.progress + 1 < sl.op 10 2) ∧
    (let b := desc 0x11 [(4, 1), (5, 1), (8, 5), (10, 0xFFFF)]
     let s := { svc with sectors := [(0, { sec0 .idle with own := none })] }
     On s b ∧ (held b).opc = 0x11 ∧ (∀ n ∈ maskList 8 (held b).secMask, (s.sec n).st = .idle) ∧ schedFull (withRun s b) = false ∧
       (∀ t ∈ burstTests (withRun s b) (held b) (requestPos (withRun s b) (held b) 13 24 (burstLead (withRun s b) (held b))), t.1 = false) ∧
       ((maskList 8 (held b).secMask).any fun n => ((secs (sec0 .running)).sec n).st != .idle) = true) ∧
    (let b := desc 0x12 [(4, 1), (5, 1)]
     On (secs (sec0 .running)) b ∧ (held b).opc = 0x12 ∧ (held b).op 8 1 = 0 ∧ burstCtlOk (held b) = true ∧ (held b).op 10 2 = 0 ∧
       (held b).covers0 (held b).secMask = true ∧ ((secs (sec0 .held)).sec 0).st = .held ∧ (secs (sec0 .running)).Alone 0 burst0 ∧
       burst0.jump = none ∧ ((secs (sec0 .running)).sec 0).st = .running ∧ ((secs (sec0 .waiting)).sec 0).st = .waiting) ∧
    (∀ g ∈ [5, 6], let b := desc 0x12 [(4, 1), (5, 1), (8, 1), (10, g)]
     let p : Jump := ⟨5, 3, some 2, 0, 0⟩
     let s := withRun (secs (sec0 .running)) b
     let u := withRun (under { burst0 with jump := some p } (sec0 .running)) b
     s.Serves 0 0 (held b) ∧ (held b).opc = 0x12 ∧ (held b).op 8 1 = 1 ∧ burstCtlOk (held b) = true ∧ (held b).op 10 2 = g ∧
       (held b).covers0 (held b).secMask = true ∧ s.Alone 0 burst0 ∧ takesJump s 0 = true ∧ jumpOk s 0 g = (g == 5) ∧
       burst0.jump = none ∧ u.Serves 0 0 (held b) ∧ u.Alone 0 { burst0 with jump := some p } ∧ takesJump u 0 = true ∧
       jumpOk u 0 g = (g == 5) ∧ p.slot = some 2 ∧ u.slot 2 = none ∧
       { burst0 with jump := some p }.laterJump u.now (descKey u 0) = false) :=
  ⟨by decide +kernel, by decide +kernel, by decide +kernel, by simp [badBeats, patterns, svc, State.reset],
    by simp [badBeats, patterns, svc, State.reset], by decide +kernel, by decide +kernel, by decide +kernel, by decide +kernel,
    by decide +kernel, by decide +kernel⟩

/-- A vector of sector 0 that stands at its issue point. -/
def atIssue (st : SeqSt) (b : Burst) (x : Sector) : State := under b { x with st := st }

theorem wit_BurstsIssueVectors :
    (∀ e ∈ [none, some (BurstEnd.normal, [])], ∀ p ∈ [none, some (5 : Int)],
     let b := { burst0 with pendEnd := e }
     let a : Action := { kind := .burst 1, slot := some 1, pos := 0 }
     let s := { under b { sec0 .armed with base := p } with stg.sched := [a], chans := [(0, { st := .idle })] }
     s.Alone 0 b ∧ findAct s (.burst 1) = some a ∧ (s.sec 0).st = .armed ∧ mayAct s a = true ∧ (s.sec 0).base = p ∧ b.pendEnd = e ∧
       (s.chan 0).st = .idle ∧ excludedChan s 0 = false ∧ (s.chan 1).st ≠ .idle) ∧
    (∀ e ∈ [none, some (BurstEnd.normal, [])], ∀ q ∈ [none, some (5 : Int)],
     let b := { burst0 with pendEnd := e, waitPos := some 0 }
     let s := under b { sec0 .waiting with base := q }
     s.Alone 0 b ∧ (s.sec 0).st = .waiting ∧ b.waitPos = some 0 ∧ isFuture s.sweep.pos 0 = false ∧ (s.sec 0).base = q ∧ b.pendEnd = e) ∧
    (∀ stop ∈ [true, false], ∀ fin ∈ [true, false],
     let b := { burst0 with stop := stop }
     let s := under b { sec0 .running with ending := fin, off := 1 }
     s.Alone 0 b ∧ (s.sec 0).st = .running ∧ (s.sec 0).issued = none ∧ (s.sec 0).waitEnd = none ∧ b.pendEnd = none ∧
       b.jump = none ∧ (s.sec 0).goTo = none ∧
       (s.sec 0).missing = false ∧ stepDue s ((s.sec 0).nextStart - 39321) = true ∧ b.stop = stop ∧ (s.sec 0).ending = fin ∧
       wordAt s 0 = some 7) ∧
    (let s := secs { sec0 .running with goTo := some 5 }
     s.Alone 0 burst0 ∧ (s.sec 0).goTo = some 5 ∧ segOf s 0 5 = some { kind := 1, base := 0, len := 3 }) ∧
    (let j : Jump := ⟨5, 64, some 0, 0, 0⟩
     let b := { burst0 with jump := some j }
     let s := under b { sec0 .running with boundary := true }
     s.Alone 0 b ∧ b.stop = false ∧ b.jump = some j ∧ 64 ≤ j.issued ∧ (s.sec 0).boundary = true ∧
       segOf s 0 j.target = some { kind := 1, base := 0, len := 3 }) ∧
    (∀ pad ∈ [true, false], ∀ bad ∈ [true, false],
     let b := { burst0 with pad := pad }
     let s := under b { sec0 .running with dir := [(5, some { kind := 2, base := 0, len := 3 })], keepAlive := some 9, bufBad := bad }
     s.Alone 0 b ∧ wordAt s 0 = none ∧ cannotRefill s 0 = bad ∧ b.pad = pad ∧ (s.sec 0).keepAlive = some 9) ∧
    (let i := issued 0 0 1
     let s := { secs { sec0 .running with ahead := [i] } with now := 2, chans := [(0, { st := .active })],
                                                                stg.image := [(0x04000407, 1), (0x04000408, 2)] }
     let v := startImage s i.start
     (s.sec 0).st ≠ .held ∧ repredict s 0 = some s ∧ (s.sec 0).ahead.find? (fun j => !j.placed) = some i ∧ stepDue s (i.start - 1639) = true ∧
       (s.sec 0).ahead.head? = some i ∧ stepDue s i.start = false ∧ (s.chan 0).st = .active ∧
       v.settingN 4 0 0x400 = 0 ∧ i.num = some 1) ∧
    (((secs (sec0 .held)).sec 0).st = .held ∧
      (let s := { secs { sec0 .armed with base := some 5 } with
         stg.sched := [{ kind := .burst 1, slot := some 1, pos := 2 ^ 40 }], sweep.st := .held }
       repredict s 0 = none)) ∧
    (let i := { issued 0 0 1 with placed := true }
     let b := { burst0 with landing := some (0, 1) }
     let s := { under b { sec0 .running with ahead := [i] } with stg.image := [(0x0100000E, 1)] }
     s.Alone 0 b ∧ (s.sec 0).waitEnd = none ∧ b.landing = some (0, 1) ∧ i.num = some 1 ∧ s.slot 0 = none ∧ starts (s.sec 0).st = true ∧ (s.sec 0).ahead = i :: [] ∧ i.placed = true ∧ stepDue s i.start = true ∧
       applyDue s = false ∧ s.setting 1 0 0x00E = 1 ∧ Tab.get 0 (s.chan 0).setAt 0 < (i.start / 256).toNat) ∧
    pinCode (BitVec.ofNat 288 (vec 0 0 0 0x1)) 0 = 1 ∧ pinCode (BitVec.ofNat 288 (vec 0 0 0 0x4)) 0 = 4 := by
  and_intros <;> decide +kernel

theorem wit_ControlOpcodesAct :
    (let s := acting 0 0 0 [] [] 0
     s.Acts 0 0 (issued 0 0 0) ∧ lastVector s 0 0 = false) ∧
    (let s := acting 0 0 2 [] [] 0
     s.Acts 0 0 (issued 0 0 2) ∧ lastVector s 0 2 = true ∧ (s.sec 0).calls = [] ∧ followOf s 0 = none) ∧
    (let s := acting 1 2 0 [] [] 0
     s.Acts 0 1 (issued 1 2 0) ∧ segStreamed s 0 5 = false ∧ (s.sec 0).rpt = 0 ∧ 1 < vOperand (issued 1 2 0).word) ∧
    (let s := acting 1 2 0 [] [] 2
     s.Acts 0 1 (issued 1 2 0) ∧ segStreamed s 0 5 = false ∧ 1 < (s.sec 0).rpt) ∧
    (let s := acting 1 2 0 [] [] 1
     s.Acts 0 1 (issued 1 2 0) ∧ lastVector s 0 0 = false ∧ (s.sec 0).rpt = 1) ∧
    (let s := acting 2 3 0 [] [] 0
     s.Acts 0 2 (issued 2 3 0) ∧ loopOpen (s.sec 0) (issued 2 3 0) = false ∧ lastVector s 0 0 = false) ∧
    (let l : Loop := ⟨5, 0, 3, 2, false, 0⟩
     let s := acting 3 0 1 [l] [] 0
     s.Acts 0 3 (issued 3 0 1) ∧ (s.sec 0).loops = l :: [] ∧ l.iter < l.count) ∧
    (let l : Loop := ⟨5, 0, 3, 3, false, 0⟩
     let s := acting 3 0 1 [l] [] 0
     s.Acts 0 3 (issued 3 0 1) ∧ (s.sec 0).loops = l :: [] ∧ l.count ≤ l.iter ∧ lastVector s 0 1 = false) ∧
    (let s := acting 4 6 0 [] [] 0
     s.Acts 0 4 (issued 4 6 0) ∧ (s.sec 0).calls.length < 8) ∧
    (let s := acting 5 0 0 [] [⟨5, 1, 0⟩] 0
     s.Acts 0 5 (issued 5 0 0) ∧ (s.sec 0).calls = ⟨5, 1, 0⟩ :: [] ∧ segOf s 0 5 = some { kind := 1, base := 0, len := 3 }) ∧
    ((acting 5 0 0 [] [] 0).Acts 0 5 (issued 5 0 0) ∧ ((acting 5 0 0 [] [] 0).sec 0).calls = []) ∧
    (acting 6 6 0 [] [] 0).Acts 0 6 (issued 6 6 0) ∧
    ((acting 10 0 0 [] [] 0).Acts 0 10 (issued 10 0 0) ∧ lastVector (acting 10 0 0 [] [] 0) 0 0 = false) ∧
    (acting 11 0 0 [] [] 0).Acts 0 11 (issued 11 0 0) ∧ (acting 12 0 0 [] [] 0).Acts 0 12 (issued 12 0 0) := by
  and_intros <;> decide +kernel

/-- Sector 0 at a MATCH_END whose loop has site 3 waiting or not. -/
def matching (iter : Nat) (waits : List Nat) : State :=
  let s := acting 8 0 1 [⟨5, 0, 3, iter, true, 0⟩] [] 0
  { s.updSec 0 fun x => { x with matches' := [{ mid := 0, waits := waits }] } with sites := [(3, { burst := some 1 })] }

/-- Sector 0 at a WAIT_SWEEP with WAIT_POS p, whose period ends at the step. -/
def atWait (p : Pos) (step : Int) : State :=
  { secs { sec0 .running with issued := some (issued 9 0 1), wait := some p, nextStart := step } with sweep.pos := 0x10000000000 }
/-- Sector 0 behind a WAIT_SWEEP with WAIT_POS p, its period just over. -/
def waited (b : Burst) (p : Pos) : State :=
  { under b { sec0 .running with waitEnd := some (255999744, p, false) } with sweep.pos := 0x10000000000 }

theorem wit_MatchLoopsAndWaits :
    (let s := acting 7 3 0 [] [] 0
     s.Acts 0 7 (issued 7 3 0) ∧ loopOpen (s.sec 0) (issued 7 3 0) = false ∧ lastVector s 0 0 = false) ∧
    (∀ k ∈ [1, 3], let s := matching k [3]
     let l : Loop := ⟨5, 0, 3, k, true, 0⟩
     s.Acts 0 8 (issued 8 0 1) ∧ burstOf s 0 = some burst0 ∧ (s.sec 0).loops = l :: [] ∧ lastVector s 0 1 = false ∧
       matchPending s 0 l.mid ((issued 8 0 1).start - 39321) = false) ∧
    (let s := (matching 1 [3]).updSec 0 fun x => { x with ahead := [{ issued 0 0 0 with start := -60000, matchIter := some (0, 1) }] }
     matchPending s 0 0 ((issued 8 0 1).start - 39321) = true) ∧
    (∀ w ∈ [[3], []],
     let u := absorb ((matching 1 w).updSec 0 fun x => { x with issued := none, matches' := x.matches'.map fun m =>
       if m.mid == 0 then { m with full := 1 } else m }) 0 burst0 fun r => r.at' + 19661 ≤ (issued 8 0 1).start - 39321
     (∃ m ∈ (u.sec 0).matches', m.mid = 0 ∧ m.waits ≠ []) ∨ ∀ m ∈ (u.sec 0).matches', m.mid ≠ 0 ∨ m.waits = []) ∧
    (let m : MatchRun := { mid := 0, waits := [3], exit := some 9, miss := [(3, 1)] }
     let s := matching 3 [3]
     3 ∈ m.waits ∧ siteActive s 3 ((s.sec 0).own.getD 0) = true ∧ siteMatch s 0 m 3 = none ∧ matchOwes s 0 m.mid = false) ∧
    (∀ step ∈ [(256020000 : Int), 256100000], let s := atWait 0x100 step
     s.Alone 0 burst0 ∧ (s.sec 0).st = .running ∧ (s.sec 0).issued = some (issued 9 0 1) ∧ vOpc (issued 9 0 1).word = 9 ∧
       (s.sec 0).waitEnd = none ∧ (s.sec 0).wait = some 0x100 ∧ bits (vOperand (issued 9 0 1).word) 19 18 = 0 ∧
       lastVector s 0 1 = false ∧ (s.sec 0).nextStart = step ∧ stepDue s (step - 39321) = (step == 256020000) ∧
       stepDue s step = false) ∧
    (∀ stop ∈ [true, false], ∀ k ∈ [0x100, 0x20000000000], let b := { burst0 with stop := stop }
     let p : Pos := BitVec.ofNat 64 k
     let s := waited b p
     s.Alone 0 b ∧ (s.sec 0).st = .running ∧ (s.sec 0).issued = none ∧ (s.sec 0).ahead = [] ∧ b.pendEnd = none ∧
       (s.sec 0).waitEnd = some (255999744, p, false) ∧ stepDue s 255999744 = true ∧
       isFuture (posAtStep s 255999744) (laterPos s (posAtStep s 255999744) p) = (k == 0x20000000000)) := by
  and_intros <;> decide +kernel

/-- Sector 0 with segment 5 streamed from DDR5 address 0. -/
def streaming (fill : Nat) : State :=
  under { burst0 with rate := 100000000 } { sec0 .running with
    dir := [(5, some { kind := 2, base := 0, len := 3 })], bufAt := some (5, 0), fillNext := fill }

theorem wit_RefillAndResults :
    (refilling (streaming 0) 0 = true ∧ fillDue (streaming 0) 0 = true ∧ fetchPlace (streaming 0) 0 = some (5, 0) ∧
      fillDue (streaming (10 ^ 18)) 0 = false ∧
      segOf (streaming 0) 0 5 = some { kind := 2, base := 0, len := 3 } ∧ badBeats (streaming 0) 0 64 = [] ∧
      wordOk (vWord (ddrRead (streaming 0) 0 36)) = true ∧ vOpc (vWord (ddrRead (streaming 0) 0 36)) ∉ [2, 3, 7, 8]) ∧
    (let s := ddrWrite (streaming 0) 35 [0xFF]
     refilling s 0 = true ∧ fillDue s 0 = true ∧ fetchPlace s 0 = some (5, 0) ∧ badBeats s 0 64 = [] ∧
       wordOk (vWord (ddrRead s 0 36)) = false) ∧
    (let s := { streaming 0 with mem.bad := [1] }
     refilling s 0 = true ∧ fillDue s 0 = true ∧ fetchPlace s 0 = some (5, 0) ∧ badBeats s 0 64 = 1 :: [] ∧
       s.mem.bad.contains ((4 : BitVec 37).toNat / 4) = true ∧ (streaming 0).mem.bad.contains ((4 : BitVec 37).toNat / 4) = false ∧
       (streaming 0).mem.poison.contains ((4 : BitVec 37).toNat / 4) = false) ∧
    (let p : Period := ⟨4, 0, 0, none, 0, false, []⟩
     let r : Result := ⟨4, 0, true, none, 5, 0⟩
     let s := { secs { sec0 .running with periods := [p], results := [r] } with chans := [(0, { site := some 3 })],
                                                                                sites := [(3, { burst := some 1 })] }
     burstOf s 0 = some burst0 ∧ (s.sec 0).issued = none ∧ (s.sec 0).matches' = [] ∧
       (s.sec 0).results.filter (fun q => q.period == r.period && decide (q.at' + 19661 ≤ (s.now : Int) * 256 + 255)) = [r] ∧
       (s.sec 0).periods.find? (fun q => q.num == r.period) = some p ∧ p.matchIter = none ∧ r.fail = true ∧
       (s.chan r.ch).site = some 3 ∧ counts s 1 3 4 = true ∧ (s.site 3).failed.contains 4 = false) ∧
    (let s := secs { sec0 .running with capQueue := [(4096, 0, [1, 2])] }
     s.memUp = true ∧ (s.sec 0).capQueue = (4096, 0, [1, 2]) :: [] ∧ drainNext s = some (0 : Fin 8).val ∧
       s.mem.capture < scaleBudget s 12000000000 ∧ (scanModify s 4096 2).2 = false ∧ (s.memChan 0).owed = false ∧
       (s.memChan 1).owed = false) ∧
    (let s := { secs (sec0 .draining) with chans := [(0, { st := .active })] }
     drained s 0 = true ∧ s.Alone 0 burst0 ∧ (s.chan 0).st = .active) := by
  and_intros <;> decide +kernel

/-! ### Parametric units, digitizers, triggers (08, 09) -/

/-- svc with its region of type t. -/
def region (t : Int) : State := { svc with stg.image := [(0x0B000001, t), (0x0B000003, 2 ^ 30)] }
/-- A PMU_LIST item of a channel: 1 V forced in range 0, no limit. -/
def item (ch : Nat) : List Byte := leBytes 16 (ch + 1000000 * 2 ^ 32 + 0xFFFF * 2 ^ 112)
/-- A PMU_LIST of one item, without limits, whose claims cover sector 0. -/
def listDesc : List Byte := desc 0x18 [(4, 1), (5, 1), (8, 1), (16, 0x100), (24, 0x200)]
/-- One admitted list of one item of channel 0, the channel in a state, the lane group as given. -/
def listed (st : ChanSt) (l : LaneGroup) : State :=
  { chan0 { st := st } with lgs := [(0, l)],
                            pmu := [{ slot := 0, items := [item 0], limits := [], results := [none] }] }

theorem wit_PmuListsMeasure :
    (let sl := held listDesc
     let s := withRun svc listDesc
     On svc listDesc ∧ sl.opc = 0x18 ∧ pmuListOk sl = true ∧ sl.op 10 1 = 0 ∧ sl.op 40 2 = 0 ∧
       (∀ it ∈ chunks 16 1 (hostBytes (item 0) 16), itemOk 0 it = true ∧ sl.covers0 (2 ^ (itemChan it / 64)) = true ∧
         itemOver (imageFor s none none) it = false ∧ inRecovery s (domChan (itemChan it)) = false ∧
         excludedItem s (itemChan it) (itemMode it) (itemRange it) = false) ∧
       ((chunks 16 1 (hostBytes (item 512) 16)).findIdx? fun it => !itemOk 0 it) = some 0) ∧
    (∀ st ∈ [ChanSt.pmu, .idle], let s := listed st {}
     (s.lg 0).item = none ∧ nextItem s 0 = some (0, 0) ∧ heldResult s 0 = false ∧
       isContained s (domChan (itemChan (pmuItem s 0 0))) = false ∧ (s.chan 0).st = st) ∧
    (let s := { svc with
       pmu := [{ slot := 0, items := [item 0, item 1], limits := [], results := [some 5, none] }],
       csq.slots := [(0, some (held (desc 0x18 [(4, 1), (5, 1), (8, 2), (10, 2)])))],
       engs := [(0, { st := .running, ins := [(0, { kind := 3, words := List.replicate 1024 (0, false) })] })] }
     (s.lg 0).item = none ∧ nextItem s 0 = some (0, 1) ∧ heldResult s 0 = true) ∧
    (∀ k ∈ [0, 1, 2], let s := listed .pmu { item := some (0, 0), phase := k }
     (s.lg 0).item = some (0, 0) ∧ (s.lg 0).due ≤ s.now ∧ (s.lg 0).phase = k) ∧
    (let s := chan0 { rangeBusy := some (1, 5) }
     (s.chan 0).rangeBusy = some (1, 5) ∧ 5 ≤ s.now) ∧
    (let s := { chan0 { st := .pmu } with lgs := [(0, { scanCur := some 0 })], stg.image := [(0x02000101, 1)] }
     (s.lg 0).scanCur = some 0 ∧ (s.lg 0).item = none ∧ nextItem s 0 = none ∧ s.setting 2 0 0x101 = 1 ∧
       (s.lg 0).due + 2 ^ s.settingN 2 0 0x102 * 800 ≤ s.now) := by
  and_intros <;> decide +kernel

/-- svc with digitizer 0 as given. -/
def dig0 (d : Dig) : State := { region 3 with digs := [(0, d)] }
/-- An open flow to DDR5. -/
def flow0 : Flow := { isOpen := true, base := 0, size := 0x10000 }

theorem wit_DigitizersAcquire :
    (let b := desc 0x29 [(5, 4), (16, 0), (24, 0x10000)]
     let s := withRun (region 3) b
     On (region 3) b ∧ (held b).opc = 0x29 ∧ streamOpenOk (held b) = true ∧ (held b).coversBit 2 = true ∧ (held b).op 10 1 = 0 ∧
       (regionHolding s [3] 0 0x10000).isSome = true ∧ (getFlow (s.dig 0) false).isOpen = false ∧ (s.dig 0).acq = .idle ∧ s.memUp = true ∧
       fitsCapture s (flowRate s 0 false) = true ∧ fitsUp s 0 (flowRate s 0 false) = true ∧
       (getFlow ((dig0 { raw := flow0 }).dig 0) false).isOpen = true) ∧
    (let b := desc 0x2A [(5, 4), (8, 1)]
     let s := dig0 { raw := flow0 }
     On s b ∧ (held b).opc = 0x2A ∧ (held b).op 8 1 = 1 ∧ (held b).op 9 1 ≤ 15 ∧ (held b).op 10 1 ≤ 1 ∧ (held b).zero 11 64 = true ∧
       (held b).coversBit 2 = true ∧ (getFlow (s.dig 0) false).isOpen = true ∧ (s.dig 0).acq = .idle ∧
       (getFlow (s.dig 0) false).dest = 0 ∧ (getFlow (s.dig 0) true).isOpen = false) ∧
    (let b := desc 0x28 [(5, 4), (12, 100)]
     let s := dig0 { raw := flow0 }
     On s b ∧ (held b).opc = 0x28 ∧ acqArmOk (held b) = true ∧ (held b).op 10 1 = 0 ∧ (held b).op 32 8 = 0 ∧ (held b).coversBit 2 = true ∧
       (s.dig 0).acq = .idle ∧ (s.dig 0).raw.isOpen = true ∧ inRecovery s (domDig 0) = false ∧ throttled s = false ∧ s.memUp = true ∧
       ((dig0 { acq := .armed }).dig 0).acq ≠ .idle) ∧
    (let s := dig0 { raw := flow0, acq := .armed, startG := some 9 }
     (s.dig 0).acq = .armed ∧ (s.dig 0).startG = some 9 ∧ (s.dig 0).recent = [] ∧ (s.dig 0).raw.isOpen = true ∧
       (s.dig 0).raw.gap = none ∧ (s.dig 0).raw.samples = []) ∧
    (∀ st ∈ [AcqSt.idle, .post, .running, .armed], let b := desc 0x28 [(5, 4), (8, 1)]
     On (dig0 { acq := st }) b ∧ (held b).opc = 0x28 ∧ (held b).op 8 1 = 1 ∧ (held b).op 9 1 ≤ 15 ∧ (held b).zero 10 64 = true ∧
       (held b).secMask = 0 ∧ (held b).coversBit 2 = true ∧ ((dig0 { acq := st }).dig 0).acq = st ∧ ((dig0 { acq := st }).dig 0).cause = 0) ∧
    (let s := dig0 { acq := .post, last := some 4, g := 5 }
     (s.dig 0).acq = .post ∧ (s.dig 0).last = some 4 ∧ 4 < (s.dig 0).g ∧ stampDue s (sampleTime (4 + 30)) = true ∧
       (s.dig 0).dec.isOpen = false) := by
  and_intros <;> decide +kernel

theorem wit_SamplesAreKept :
    (∀ len ∈ [0, 10], let y : DigSample := ⟨9, 7, false, false, 0, 0⟩
     let z : DigSample := ⟨20, 8, false, false, 0, 0⟩
     let s := dig0 { acq := .running, g := 39, g0 := 30, len := len, line := [y, z], raw := { flow0 with samples := [1] } }
     s.running = true ∧ stampDue s (sampleTime (s.dig 0).g) = true ∧ isContained s (domDig 0) = false ∧ (s.dig 0).acq = .running ∧
       (s.dig 0).last = none ∧ (s.dig 0).g0 ≤ (s.dig 0).g ∧ (s.dig 0).test = none ∧ (s.dig 0).len = len ∧
       (s.dig 0).g + 1 = (s.dig 0).g0 + 10 ∧ (s.dig 0).raw.isOpen = true ∧ (s.dig 0).line = y :: [z] ∧ y.g + 30 ≤ (s.dig 0).g + 1 ∧
       (s.dig 0).g + 1 < z.g + 30 ∧ y.lost = false ∧ (s.dig 0).raw.dest = 0 ∧ (s.dig 0).raw.gap = none ∧
       (s.dig 0).raw.recs = [] ∧ (s.dig 0).raw.samples ≠ [] ∧ (s.dig 0).raw.block.length ≤ 15 ∧
       (s.dig 0).raw.samples.length < 2016 - 8 * (s.dig 0).raw.block.length ∧ (s.dig 0).cause = 0) ∧
    (let s := { dig0 { acq := .running, g := 1000, q := 100, dec := { flow0 with samples := [1] } } with stg.image := [(0x07000005, 2)] }
     let d := s.dig 0
     decK s 0 = 2 ∧ acqRuns d = true ∧ d.dec.isOpen = true ∧ d.last = none ∧ supportStart 2 (d.q + 64) ≤ (d.g : Int) ∧
       isContained s (domDig 0) = false ∧ (d.decFrom : Int) ≤ supportStart 2 d.q ∧ d.dec.dest = 0 ∧ d.dec.gap = none ∧
       d.dec.recs = [] ∧ d.dec.samples ≠ [] ∧ d.dec.block.length ≤ 15 ∧ d.dec.samples.length < 1008 - 4 * d.dec.block.length) ∧
    (let s := dig0 { raw := { flow0 with samples := List.replicate 2016 5 } }
     let f := getFlow (s.dig 0) false
     f.isOpen = true ∧ f.dest = 0 ∧ f.ringMode = false ∧ f.samples ≠ [] ∧ blockRoom s 0 f = true ∧
       blockCap false f.block.length ≤ f.samples.length) := by
  and_intros <;> decide +kernel

/-- svc with trigger unit 0 as given. -/
def tu0 (x : TrigUnit) : State := { svc with tus := [(0, x)] }

theorem wit_TriggersFire :
    (let s := tu0 { hits := [⟨0, 65536, false⟩] }
     (s.tu 0).hits = [⟨0, 65536, false⟩] ∧ stampDue s (sampleTime (sampleAt 65536)) = true ∧ (s.tu 0).lastG ≤ sampleAt 65536 ∧
       (s.tu 0).heldTo ≤ 65536 ∧ (s.tu 0).holdoff = none ∧ inputsIn s 0 (sampleAt 65536) = true ∧ gateHolds s 0 65536 = true ∧
       tuSet s 0 5 65536 = 0) ∧
    (let s := { tu0 { hits := [⟨0, 65536, false⟩] } with now := 0, tick := 0 }
     (s.tu 0).hits = [⟨0, 65536, false⟩] ∧ inputsIn s 0 (sampleAt 65536) = false) ∧
    (let s := { tu0 { hits := [⟨0, 65536, false⟩] } with stg.image := [(0x08000002, 1)] }
     (s.tu 0).hits = [⟨0, 65536, false⟩] ∧ (s.tu 0).lastG ≤ sampleAt 65536 ∧ (s.tu 0).heldTo ≤ 65536 ∧
       (s.tu 0).holdoff = none ∧ inputsIn s 0 (sampleAt 65536) = true ∧ gateHolds s 0 65536 = false) ∧
    (∀ k ∈ [0, 1, 2],
     let s := tu0 { hits := [⟨0, 65536, false⟩], holdoff := if k = 0 then some 70000 else none, heldTo := if k = 1 then 70000 else 0,
                    lastG := if k = 2 then sampleAt 65536 + 1 else 0 }
     (s.tu 0).hits = [⟨0, 65536, false⟩] ∧ inputsIn s 0 (sampleAt 65536) = true ∧
       (sampleAt 65536 < (s.tu 0).lastG ∨ 65536 < (s.tu 0).heldTo ∨ (s.tu 0).holdoff = some 70000)) ∧
    (∀ joined ∈ [0, 1], let s := { tu0 { slots := [(1, { start := some 0 })] } with stg.image := [(0x08000001, joined), (0x08000110, 4)] }
     (Tab.get {} (s.tu 0).slots 1).start = some 0 ∧ (Tab.get {} (s.tu 0).slots 1).fired = false ∧ (s.tu 0).past = [] ∧
       slotPar s 0 1 0 (timeoutAt s 0 1 0) = 4 ∧ stampDue s (timeoutAt s 0 1 0) = true ∧ tuSet s 0 1 (timeoutAt s 0 1 0) = joined) ∧
    (let s := tu0 { holdoff := some 5 }
     (s.tu 0).holdoff = some 5 ∧ stampDue s 5 = true) ∧
    (let s := { svc with grp.keeper := true, digs := [(0, { acq := .armed, start := 2, sel := 3 })],
                         sectors := [(0, { wgs := [(1, { armed := some 0, src := 2, sel := 3 })] })],
                         stg.image := [(0x0600000C, 1), (0x0600000D, 3)] }
     (∀ a ∈ [true, false], let u := { s with tb := [(3, { asserted := !a })] }
        (u.line 3).asserted ≠ a ∧ drivesLine u 3 = false ∧ stampDue u 65536 = true) ∧
       drivesLine { s with tb := [(3, { asserted := true, pulseEnd := some (10 ^ 9) })] } 3 = true ∧
       s.grp.keeper = true ∧ (s.line 3).asserted ≠ true ∧ stampDue s 65536 = true ∧ (s.wg 0 1).armed.isSome = true ∧ (s.wg 0 1).src = 2 ∧
       (s.wg 0 1).sel = 3 ∧ (s.dig 0).acq = .armed ∧ (s.dig 0).start = 2 ∧ (s.dig 0).sel = 3 ∧ (s.dig 0).startG = none ∧
       s.setting 6 0 12 = 1 ∧ s.setting 6 0 13 = 3) ∧
    (let s := { svc with tb := [(2, { pulseEnd := some 7 })] }
     (s.line 2).pulseEnd = some 7 ∧ 7 ≤ s.now) := by
  and_intros <;> decide +kernel

/-! ### Waveform sources (10) and synthesizers (11) -/

/-- A sequence entry: segment, repetitions, END, WAIT (10 R227). -/
def entry (g rep fin wait : Nat) : BitVec 64 := BitVec.ofNat 64 (g + fin * 2 ^ 24 + wait * 2 ^ 25 + rep * 2 ^ 32)
/-- svc with a region of waveforms and source 0 as given. -/
def awg0 (a : Awg) : State := { region 2 with awgs := [(0, a)] }
/-- Segment 3 resident with 256 samples, segment 4 streamed from address 0 with 256. -/
def segs34 : Tab (Option AwgSeg) := [(3, some { kind := 1, base := 0, len := 256 }), (4, some { kind := 2, base := 0, len := 256 })]
/-- A source that plays an entry. -/
def plays (st : AwgSt) (e : BitVec 64) : Awg := { st := st, dir := segs34, table := [(0, e)], look := [(0, e)], slot := some 7 }

theorem wit_WaveformsAreLoaded :
    (let b := desc 0x30 [(5, 2), (12, 1)]
     let sl := held b
     let es := (chunks 8 1 (hostBytes (leBytes 8 (entry 3 2 1 0).toNat) 8)).map fun b => BitVec.ofNat 64 (leNat b)
     On (awg0 { dir := segs34 }) b ∧ sl.opc = 0x30 ∧ sl.zero 9 10 = true ∧ sl.zero 14 16 = true ∧ sl.zero 24 64 = true ∧ sl.secMask = 0 ∧
       sl.op 16 8 % 8 = 0 ∧ sl.coversBit 1 = true ∧ sl.op 8 1 ≤ 15 ∧ sl.op 10 2 ≤ 4095 ∧ 0 < sl.op 12 2 ∧ sl.op 10 2 + sl.op 12 2 ≤ 4096 ∧
       (es.all fun e => entryOk e && (awgSegOf { dir := segs34 } (eSeg e)).any (fun g => g.kind == 1)) = true) ∧
    (let s := awg0 (plays .running (entry 3 2 1 0))
     ((List.range 1).find? fun i => entryActive (s.awg 0) (0 + i)) = some 0 ∧ entryActive ((awg0 {}).awg 0) 0 = false ∧
       awgSegActive (s.awg 0) 3 = true ∧ awgSegActive (s.awg 0) 4 = false) ∧
    (let sl := held (desc 0x31 [(5, 2), (9, 2), (10, 3)])
     On (awg0 {}) (desc 0x31 [(5, 2), (9, 2), (10, 3)]) ∧ sl.opc = 0x31 ∧ awgWriteOk sl = true ∧ sl.coversBit 1 = true ∧ sl.op 9 1 = 2 ∧
       dmaHeld (withRun (awg0 {}) (desc 0x31 [(5, 2), (9, 2), (10, 3)])) 0 sl = false) ∧
    (let b := desc 0x31 [(5, 2), (9, 1), (10, 3), (12, 1), (24, 256)]
     On (awg0 {}) b ∧ awgWriteOk (held b) = true ∧ (held b).op 9 1 = 1 ∧ (held b).op 24 8 = 256 ∧
       dmaHeld (withRun (awg0 {}) b) 0 (held b) = false ∧
       (regionHolding (withRun (awg0 {}) b) [2] 0 512).isSome = true ∧ (awg0 {}).memUp = true) ∧
    (∀ d ∈ [0, 1], ∀ bad ∈ [[], [40]], let b := desc 0x31 [(5, 2), (10, 3), (12, d), (24, 256), (32, 8060)]
     let s := { awg0 {} with mem.bad := bad }
     On s b ∧ awgWriteOk (held b) = true ∧ dmaHeld (withRun s b) 0 (held b) = false ∧ (held b).op 9 1 = 0 ∧ (held b).op 12 1 = d ∧
       (held b).op 24 8 = 256 ∧ (regionHolding (withRun s b) [2, 6] 0 512).isSome = true ∧ s.memUp = true ∧
       badBeats (withRun s b) 0 512 = bad ∧
       (held b).op 32 4 + 256 / 64 ≤ 8064 ∧ (held b).progress < 256 / 64 ∧ awgSegActive ((awg0 {}).awg 0) 3 = false ∧
       residentClash ((awg0 {}).awg 0) 3 8060 256 = false ∧ min (256 / 64) ((held b).progress + 1) < 256 / 64 ∧
       min (256 / 64) ((held b).progress + 4) = 256 / 64) ∧
    (let sl : Slot := { held (desc 0x31 [(5, 2), (10, 3), (24, 256)]) with progress := 2 }
     let s := { awg0 (plays .running (entry 3 2 1 0)) with csq.slots := [(0, some sl)], csq.ctxs := [(0, { busy := true, slot := some 0 })] }
     s.Serves 0 0 sl ∧ awgWriteOk sl = true ∧ dmaHeld s 0 sl = false ∧ 0 < sl.progress ∧ sl.op 12 1 = 0 ∧ (awgSegOf (s.awg 0) 3).isSome = true ∧
       awgSegActive (s.awg 0) 3 = true) := by
  and_intros <;> decide +kernel

theorem wit_SourcesAreControlled :
    (let b := desc 0x32 [(5, 2)]
     let s := awg0 { dir := segs34, table := [(0, entry 3 2 1 0)] }
     On s b ∧ (held b).opc = 0x32 ∧ awgStartOk (held b) (decide (s.setting 6 0 1 = 1)) = true ∧ (held b).coversBit 1 = true ∧
       (held b).op 13 1 = 0 ∧ (held b).op 15 1 = 0 ∧ awgBusy (s.awg 0) = false ∧ (s.awg 0).st ≠ .isolated ∧ s.flt.awgClr = false ∧
       s.setting 6 0 1 = 0 ∧ chainBad (s.awg 0) false 4097 [] 0 = false ∧ inRecovery s (domAwg 0) = false ∧ throttled s = false ∧
       schedFull s = false ∧ awgBusy ((awg0 (plays .running 0)).awg 0) = true) ∧
    (∀ now ∈ [0, 1], let b := desc 0x32 [(5, 2), (8, 1), (12, now)]
     let s := awg0 (plays .running (entry 3 2 1 0))
     On s b ∧ (held b).opc = 0x32 ∧ (held b).op 8 1 = 1 ∧ (held b).zero 10 12 = true ∧ (held b).op 12 1 = now ∧
       (held b).zero 13 64 = true ∧ (held b).secMask = 0 ∧ (held b).coversBit 1 = true ∧ awgBusy (s.awg 0) = true ∧
       (s.awg 0).st ≠ .armed ∧ ((awg0 (plays .armed 0)).awg 0).st = .armed ∧ (s.awg 0).jump = none ∧ awgBusy ((awg0 {}).awg 0) = false ∧ s.setting 6 0 7 = 0) ∧
    (let b := desc 0x32 [(5, 2), (8, 2)]
     let s := awg0 { plays .running (entry 3 2 1 0) with streaming := true }
     On s b ∧ (held b).opc = 0x32 ∧ (held b).op 8 1 = 2 ∧ (held b).zero 12 64 = true ∧ (held b).secMask = 0 ∧
       (held b).coversBit 1 = true ∧ entryEmpty (s.awg 0) (entryOf (s.awg 0) 0) = false ∧ awgBusy (s.awg 0) = true ∧
       s.setting 6 0 1 = 0 ∧ (s.awg 0).streaming = true ∧ (s.awg 0).jump = none ∧
       entryEmpty ((awg0 {}).awg 0) (entryOf ((awg0 {}).awg 0) 0) = true) ∧
    (∀ x ∈ [none, some (9 : Nat)], let b := desc 0x32 [(5, 2), (8, 3)]
     let s := awg0 { plays .waiting (entry 3 2 1 1) with release := x }
     On s b ∧ (held b).opc = 0x32 ∧ (held b).op 8 1 = 3 ∧ (held b).zero 10 64 = true ∧ (held b).secMask = 0 ∧
       (held b).coversBit 1 = true ∧ (∀ y ∈ (s.awg 0).due, stampNow s < y) ∧ (s.awg 0).st = .waiting ∧ (s.awg 0).release = x ∧
       (s.awg 0).waitFrom ≤ stampNow s ∧ (s.awg 0).relAt ≤ stampNow s ∧ ((awg0 {}).awg 0).st ≠ .waiting) ∧
    (let a := plays .running (entry 4 2 1 0)
     let s := awg0 { a with streaming := true }
     let d := syncJump (heldRepeats s (s.awg 0)) (awgOutput s 0)
     awgBusy d = true ∧ d.st ≠ .holding ∧ d.streaming = true ∧ s.memUp = true ∧ d.window.length + 64 ≤ 8192 ∧
       streamPlace d.fetch (playOrder (heldRepeats s (s.awg 0)) d) = some ({ kind := 2, base := 0, len := 256 }, 0) ∧ badBeats s 0 128 = []) ∧
    (∀ h ∈ [true, false], let s := awg0 { plays .running (entry 4 2 1 0) with holdOn := h }
     (s.awg 0).st = .running ∧ (s.awg 0).dds = false ∧ currentSeg (s.awg 0) = some { kind := 2, base := 0, len := 256 } ∧
       (s.awg 0).fetch < 256 ∧ stampDue s (dacTime ((s.awg 0).clk + (s.awg 0).heldFor + (s.awg 0).fetch)) = true ∧ (s.awg 0).holdOn = h) := by
  and_intros <;> decide +kernel

theorem wit_SourcesPlay :
    (∀ w ∈ [0, 1], let a : Action := { kind := .awg 0, slot := some 7, pos := 0 }
     let s := { awg0 (plays .armed (entry 3 2 1 w)) with stg.sched := [a] }
     (s.awg 0).st = .armed ∧ findAct s (.awg 0) = some a ∧ mayAct s a = true ∧ s.setting 6 0 1 = 0 ∧
       (s.awg 0).look = [(0, entry 3 2 1 w)]) ∧
    (∀ r ∈ [0, 1], let s := awg0 { plays .running (entry 3 2 1 0) with reps := r }
     (s.awg 0).st = .running ∧ (s.awg 0).dds = false ∧ awgSegOf (s.awg 0) (eSeg (entry 3 2 1 0)) = some { kind := 1, base := 0, len := 256 } ∧
       stampDue s (dacTime ((s.awg 0).clk + (s.awg 0).heldFor + 256)) = true ∧ (s.awg 0).jump = none ∧
       (if r = 0 then (s.awg 0).reps + 1 < eRepeat (entry 3 2 1 0)
        else eRepeat (entry 3 2 1 0) ≤ (s.awg 0).reps + 1 ∧ eEnd (entry 3 2 1 0) = true ∧ s.setting 6 0 7 = 0)) ∧
    (∀ st ∈ [AwgSt.waiting, .running], ∀ x ∈ [none, some (9 : Nat)], let s := awg0 { st := st, due := [5], release := x, relAt := 7 }
     ((s.awg 0).due.filter fun y => y ≤ 5) = [5] ∧
       (((s.awg 0).st = .waiting ∧ (s.awg 0).waitFrom ≤ 5 ∧ ((s.awg 0).release = none ∨ 5 < (s.awg 0).relAt)) ↔ st = .waiting)) ∧
    (let s := awg0 { st := .waiting, release := some 7 }
     (s.awg 0).st = .waiting ∧ (s.awg 0).release = some 7 ∧ stampDue s (dacTime 7) = true) ∧
    (∀ w ∈ [0, 1], let s := awg0 { plays .waiting (entry 3 2 1 w) with jump := some { target := some 0, slot := 8, clk := 5, waiting := true } }
     (s.awg 0).st = .waiting ∧ (s.awg 0).jump = some { target := some 0, slot := 8, clk := 5, waiting := true } ∧ (s.awg 0).release = none ∧
       stampDue s (dacTime (max (5 + 128) (dacAt (s.awg 0).waitFrom))) = true ∧ eWait (entryOf (s.awg 0) 0) = (w == 1)) ∧
    (let s := awg0 { mkEnd := some 9, ddsDue := [(9, 5, 6)] }
     (s.awg 0).mkEnd = some 9 ∧ 9 ≤ s.now ∧ (s.awg 0).ddsDue = (9, 5, 6) :: [] ∧ stampDue s (dacTime 9) = true) := by
  and_intros <;> decide +kernel

/-- svc with synthesizer 0 as given. -/
def dcs0 (d : Dcs) : State := { svc with dcss := [(0, d)] }
/-- A ramp of one held descriptor. -/
def ramp0 (run : Bool) : Ramp := { slot := 7, running := run, point := 0, done := 0, firstPos := none, dwell := none, stepAt := 0 }

theorem wit_SynthesizersRun :
    (let b := desc 0x38 [(5, 8), (9, 1)]
     let pts := chunks 8 1 (hostBytes (leBytes 8 (100 + 5 * 2 ^ 32)) 8)
     On (dcs0 {}) b ∧ (held b).opc = 0x38 ∧ (held b).zero 10 16 = true ∧ (held b).op 16 8 % 8 = 0 ∧ (held b).zero 24 64 = true ∧
       (held b).secMask = 0 ∧ (held b).coversBit 3 = true ∧ (held b).op 9 1 = 1 ∧
       (∀ b ∈ pts, 80 ≤ field b 0 2 ∧ field b 0 2 ≤ 10240 ∧ field b 2 2 = 0) ∧
       ((dcs0 { ramp := some (ramp0 false) }).dcs 0).ramp.isSome = true ∧ ((dcs0 {}).dcs 0).ramp = none) ∧
    (let b := desc 0x39 [(5, 8)]
     let s := { dcs0 { locked := true, profile := [(100, 5)] } with stg.image := [(0x09000001, 1), (0x09000003, 40)] }
     On s b ∧ (held b).opc = 0x39 ∧ (held b).op 8 1 = 0 ∧ (held b).op 10 1 = 0 ∧ (held b).secMask = 0 ∧ (held b).coversBit 3 = true ∧
       (held b).zero 11 16 = true ∧ (held b).zero 16 24 = true ∧ (held b).zero 24 64 = true ∧ (s.dcs 0).ramp = none ∧
       (s.dcs 0).profile ≠ [] ∧ (s.dcs 0).locked = true ∧ (s.dcs 0).retune = none ∧ (s.dcs 0).retuneAt = none ∧
       (∀ q ∈ (s.dcs 0).profile, targetBad (s.settingN 9 0 1) (s.settingN 9 0 3) q.1 = false) ∧
       inRecovery s (domDcs 0) = false ∧ schedFull s = false) ∧
    (let r := { ramp0 true with stopAt := some (5, 8) }
     ((dcs0 { ramp := some r }).dcs 0).ramp = some r ∧ r.stopAt = some (5, 8) ∧ 5 ≤ svc.now ∧ (dcs0 { ramp := some r }).csq.slots = []) ∧
    (let b := desc 0x39 [(5, 8), (8, 1)]
     ((dcs0 { ramp := some (ramp0 true) }).dcs 0).ramp = some (ramp0 true) ∧ (ramp0 true).stopAt = none ∧
       ((dcs0 {}).dcs 0).ramp = none ∧ On (dcs0 { ramp := some (ramp0 true) }) b ∧ (held b).opc = 0x39 ∧ (held b).op 8 1 = 1 ∧ (held b).zero 10 64 = true ∧
       (held b).secMask = 0 ∧ (held b).coversBit 3 = true) ∧
    (let a : Action := { kind := .dcs 0, slot := some 7, pos := 0 }
     let s := { dcs0 { ramp := some (ramp0 false), locked := true, profile := [(100, 5)] } with stg.sched := [a] }
     (s.dcs 0).ramp = some (ramp0 false) ∧ findAct s (.dcs 0) = some a ∧ mayAct s a = true ∧ (s.dcs 0).locked = true ∧
       (s.dcs 0).retune = none ∧ (s.dcs 0).st ≠ .contained ∧ (s.dcs 0).nNow < (pointOf (s.dcs 0) 0).1 ∧
       pfdCeil (s.dcs 0).m (((passTime s a.pos).toNat + 65535) / 65536) ≤ s.now) ∧
    (∀ q ∈ [[(100, 5)], [(100, 5), (90, 5)]],
     let s := dcs0 { ramp := some { ramp0 true with dwell := some 0 }, profile := q, retunePending := true }
     isFuture s.sweep.pos 0 = false ∧ (s.dcs 0).retunePending = true ∧ (s.dcs 0).st ≠ .contained ∧ ((ramp0 true).point + 1 < (s.dcs 0).profile.length ↔ q.length = 2) ∧
       ((dcs0 { ramp := some (ramp0 true) }).dcs 0).ramp = some (ramp0 true) ∧ (ramp0 true).stepAt ≤ s.now) ∧
    (∀ r ∈ [none, some 999999], let s := dcs0 { refOk := true, retune := r }
     (s.dcs 0).locked = false ∧ (s.dcs 0).refOk = true ∧ (s.dcs 0).st ≠ .contained ∧ (s.dcs 0).ramp = none ∧
       (s.dcs 0).retunePending = false ∧ (∀ t ∈ (s.dcs 0).retune, t ≤ s.now ∧ t + 256 * pfdTicks (s.dcs 0).m ≤ s.now + 2000 * usTicks) ∧
       ((dcs0 {}).dcs 0).refOk = false) := by
  and_intros <;> decide +kernel

/-! ### Measurement engines (12) -/

/-- An instruction word: opcode and the rest of its bits (12 R261). -/
def ew (opc rest : Nat) : Nat := opc * 2 ^ 42 + rest
/-- svc with engine 0 as given. -/
def eng0 (x : Engine) : State := { svc with engs := [(0, x)] }
/-- Engine 0 runs, with words at 0 and 1. -/
def atW (w v : Nat) : Engine := { st := .running, slot := some 7, code := [(0, BitVec.ofNat 48 w), (1, BitVec.ofNat 48 v)] }

/-- A repetition of the word at 0. -/
def here : Repeat := { start := 0, stop := 0, left := 2 }

theorem wit_EngineAluRuns :
    ((atW 0 0).Shaped ∧
      (∀ p ∈ [(0, 0), (1, 2 ^ 36), (1, 0x20 * 2 ^ 36), (5, 2 ^ 36), (6, 2 ^ 36), (8, 2 ^ 36), (9, 2 ^ 36), (10, 2 ^ 36), (14, 2 ^ 36)],
        (eng0 (atW (ew p.1 p.2) 0)).AtWord 0 p.1 (ew p.1 p.2))) ∧
    (∀ p ∈ [(2, 5), (7, 5), (15, 5), (11, 31), (12, 31), (13, 31), (11, 32), (12, 32), (13, 32)],
      (eng0 (atW (ew p.1 (2 ^ 36 + p.2)) 0)).AtWord 0 p.1 (ew p.1 (2 ^ 36 + p.2)) ∧ bits (ew p.1 (2 ^ 36 + p.2)) 31 0 = p.2) := by
  and_intros <;> decide +kernel

theorem wit_EngineMovesAndMacs :
    (∀ m ∈ [0, 1, 3], let w := ew 3 (9 * 2 ^ 36 + m * 2 ^ 27)
     let x := atW w 0
     x.Shaped ∧ (eng0 x).AtWord 0 3 w ∧ bits w 28 27 = m ∧ bankBad x false 0 = false ∧
       (eng0 { x with bad := [(1, 0)] }).AtWord 0 3 w ∧ bankBad { x with bad := [(1, 0)] } false 0 = true) ∧
    (let w := ew 3 (8 * 2 ^ 36 + 2 ^ 27)
     let x := atW w 0
     (eng0 x).AtWord 0 3 w ∧ bankBad x (bitOf w 35) (ptrAddr x (bits w 34 32)) = false ∧ bits w 41 36 = 8 + bits w 34 32 ∧ bits w 28 27 = 1) ∧
    (∀ o ∈ [4, 0x12, 0x13, 0x14, 0x15, 0x16], (eng0 (atW (ew o 0) 0)).AtWord 0 o (ew o 0)) ∧
    (∀ o ∈ [0x10, 0x11], ∀ k ∈ [0, 1, 2, 3], (o = 0x11 ∨ k ≤ 2) → let w := ew o (k * 2 ^ 40)
     (eng0 (atW w 0)).AtWord 0 o w ∧ bits w 41 40 = k) ∧
    (∀ o ∈ [0x10, 0x11], let x := atW (ew o (2 ^ 34)) 0
     moveBad x false (moveOf (ew o (2 ^ 34)) 30) = false ∧ moveBad x true (moveOf (ew o (2 ^ 34)) 15) = false ∧
       x.bad.contains (0, 0) = false ∧ (eng0 { x with pc := 2, code := [(2, BitVec.ofNat 48 (ew o (2 ^ 34)))], bad := [(0, 0)] }).AtWord 0 o (ew o (2 ^ 34))) := by
  and_intros <;> decide +kernel

theorem wit_EnginePortsAndBranches :
    ((eng0 (atW (ew 0x18 0) 0)).AtWord 0 0x18 (ew 0x18 0) ∧ ((eng0 {}).inPort 0 0).words = [] ∧ ((eng0 {}).inPort 0 0).kind = 0 ∧
      ((eng0 { ins := [(0, { kind := 1 })] }).inPort 0 0).kind ≠ 0 ∧ ((eng0 { ins := [(0, { kind := 1 })] }).inPort 0 0).closed = false ∧
      ((eng0 { ins := [(0, { kind := 1, words := [(5, true)] })] }).inPort 0 0).words = [(5, true)]) ∧
    (let x := atW (ew 0x19 0) 0
     (eng0 x).AtWord 0 0x19 (ew 0x19 0) ∧ (drainOuts (eng0 x) 0).setting 12 8 1 = 1 ∧
       (drainOuts { eng0 x with stg.image := [(0x0C008001, 0)] } 0).setting 12 8 1 = 0 ∧
       ((drainOuts (eng0 x) 0).outPort 0 0).words.length < 1024 ∧
       1024 ≤ ((drainOuts { eng0 { x with outs := [(0, { kind := 1, words := List.replicate 1024 0 })] } with mem.st := .outOfService } 0).outPort 0 0).words.length) ∧
    ((∀ c ∈ [0, 1, 2], (eng0 (atW (ew 0x20 (c * 2 ^ 38)) 0)).AtWord 0 0x20 (ew 0x20 (c * 2 ^ 38))) ∧
      engCond 0 0 = true ∧ engCond 0 1 = false) ∧
    ((∀ o ∈ [0x21, 0x22, 0x28], (eng0 (atW (ew o 0) 0)).AtWord 0 o (ew o 0)) ∧ (atW 0 0).calls.length < 8 ∧
      8 ≤ ({ calls := List.replicate 8 0 } : Engine).calls.length ∧ ({ calls := [5] } : Engine).calls.getLast? = some 5) ∧
    (∀ r ∈ [2 ^ 25, 2 ^ 26], (eng0 (atW (ew 0x23 r) 0)).AtWord 0 0x23 (ew 0x23 r) ∧
      (eng0 (atW (ew 0x24 (r + 1)) 0)).AtWord 0 0x24 (ew 0x24 (r + 1)) ∧ (((atW 0 0).w[bits (ew 0x23 (2 ^ 25)) 24 22]?).getD 0).toNat = 0 ∧
      0 < bits (ew 0x24 (2 ^ 26 + 1)) 41 26) ∧
    ((eng0 { atW 0 0 with dup := some here }).AtWord 0 0 0 ∧ (eng0 { atW 0 0 with loop := some here, lc := 2 }).AtWord 0 0 0 ∧
       (eng0 { atW 0 0 with loop := some here }).AtWord 0 0 0 ∧ here.start = (atW 0 0).pc ∧ 1 < here.left ∧ here.stop = (atW 0 0).pc) ∧
    ((atW (ew 0x28 0) 0).bad.contains (3, bits (ew 0x28 0) 38 31) = false ∧
      (eng0 { atW (ew 0x28 0) 0 with bad := [(3, 0)] }).AtWord 0 0x28 (ew 0x28 0)) := by
  and_intros <;> decide +kernel

/-- An output entry of the binding table: kind, STR ring, rate in thousands of bytes per second, FLUSH, size (12 R278). -/
def outDesc (kind str rate flush size : Nat) : List Byte := leBytes 32 (kind + str * 2 ^ 16 + rate * 2 ^ 32 + flush * 2 ^ 64 + size * 2 ^ 192)
/-- The binding table that binds nothing. -/
def noBind : List Byte := zeros 192

theorem wit_EnginesAreLoadedAndRun :
    (∀ sp ∈ [0, 1, 2, 3, 4], let b := desc 0x40 [(5, 16), (9, sp), (16, 2)]
     On (eng0 {}) b ∧ (held b).opc = 0x40 ∧ engLoadOk (held b) = true ∧ (held b).op 10 1 = 0 ∧ (held b).coversBit 4 = true ∧
       (held b).op 9 1 = sp ∧ (held b).op 16 4 = 2 ∧ 0 + 2 ≤ engSpaceSize sp ∧ (held b).progress = 0 ∧
       dmaHeld (withRun (eng0 {}) b) 0 (held b) = false ∧ ((eng0 {}).eng 0).st ≠ .running ∧ min 2 ((held b).progress + 1) < 2 ∧ min 2 ((held b).progress + 2) = 2 ∧
       (sp ≠ 1 → (List.range 2).find? (engItemBad ((eng0 {}).eng 0) sp 0 [zeros (engItemBytes sp), zeros (engItemBytes sp)]) = none)) ∧
    (let sl : Slot := { held (desc 0x40 [(5, 16), (16, 2)]) with progress := 1, held := zeros 16 }
     let s := { eng0 {} with csq.slots := [(0, some sl)], csq.ctxs := [(0, { busy := true, slot := some 0 })] }
     s.Serves 0 0 sl ∧ engLoadOk sl = true ∧ dmaHeld s 0 sl = false ∧ sl.op 10 1 = 0 ∧ sl.coversBit 4 = true ∧ sl.progress ≠ 0 ∧
       min 2 (sl.progress + 1) = 2) ∧
    (∀ down ∈ [true, false], ∀ bad ∈ [[], [3]], let b := desc 0x40 [(5, 16), (9, 2), (10, 1), (16, 4)]
     let s := { region 5 with mem.bad := bad, mem.st := if down then .outOfService else .inService }
     let u := withRun s b
     On s b ∧ (held b).opc = 0x40 ∧ engLoadOk (held b) = true ∧ (held b).coversBit 4 = true ∧ dmaHeld u 0 (held b) = false ∧
       (held b).op 10 1 = 1 ∧ (held b).op 16 4 = 4 ∧ (regionHolding u [5, 6] 0 16).isSome = true ∧ u.memUp = !down ∧
       (List.range 3).find? (engItemBad (u.eng 0) 2 0 (chunks 4 3 (zeros 12))) = none ∧
       (List.range 3).find? (engItemBad (u.eng 0) 4 0 [(zeros 16).set 15 9]) = some 0) ∧
    (∀ bad ∈ [[], [3]], badBeats { region 5 with mem.bad := bad } 0 16 = bad) ∧
    ((List.range 1).find? (engItemBad ((eng0 {}).eng 0) 0 0 [leBytes 8 (ew 0x3E 0)]) = some 0 ∧ ((eng0 (atW 0 0)).eng 0).st = .running) ∧
    (let b := desc 0x41 [(5, 16)]
     On (eng0 {}) b ∧ (held b).opc = 0x41 ∧ (held b).op 9 1 = 0 ∧ (held b).coversBit 4 = true ∧ engStartOk (held b) (hostBytes noBind 192) = true ∧
       outsOf (hostBytes noBind 192) 1 = [] ∧ outsOf (hostBytes noBind 192) 2 = [] ∧ engStartBad (eng0 {}) 0 (hostBytes noBind 192) = false ∧
       isContained (eng0 {}) (domEng 0) = false ∧ (boundIns (hostBytes noBind 192)).any (sourceRecovers (eng0 {})) = false) ∧
    (let b := desc 0x41 [(5, 16)]
     let t := zeros 64 ++ outDesc 1 0 100 0 0x10000 ++ outDesc 2 0 100 5 0 ++ zeros 64
     let s := region 5
     On s b ∧ engStartOk (held b) (hostBytes t 192) = true ∧ (outsOf (hostBytes t 192) 1).length = 1 ∧
       (outsOf (hostBytes t 192) 2).length = 1 ∧
       (∀ b ∈ outsOf (hostBytes t 192) 1, (regionHolding s [5] (field b 16 8) (field b 24 8)).isSome = true) ∧
       engStartBad s 0 (hostBytes t 192) = false ∧ s.memUp = true ∧ fitsCapture s (outRates (outsOf (hostBytes t 192) 1)) = true ∧
       (∀ b ∈ outsOf (hostBytes t 192) 2, fitsHost s (1000 * field b 4 4) = true) ∧
       s.mem.host + outRates (outsOf (hostBytes t 192) 2) ≤ streamCapBytes s) ∧
    (let b := desc 0x41 [(5, 16), (9, 1)]
     On (eng0 (atW 0 0)) b ∧ (held b).opc = 0x41 ∧ (held b).op 9 1 = 1 ∧ (held b).secMask = 0 ∧ (held b).zero 10 64 = true ∧
       (held b).coversBit 4 = true ∧ ((eng0 (atW 0 0)).eng 0).ending = none ∧ ((eng0 {}).eng 0).st ≠ .running ∧
       ((eng0 { atW 0 0 with ending := some Status.ok }).eng 0).ending.isSome = true) ∧
    ((eng0 (atW (ew 0x3F 0) 0)).AtWord 0 0x3F (ew 0x3F 0) ∧ ((eng0 (atW 0 0)).eng 0).slot = some 7 ∧ (eng0 (atW 0 0)).pmu = []) ∧
    (let s := eng0 { outs := [(0, { kind := 2, flush := 1, block := [5] })] }
     (s.outPort 0 0).kind = 2 ∧ (s.outPort 0 0).block ≠ [] ∧ (s.outPort 0 0).flush * 1600 ≤ s.now - (s.outPort 0 0).blockAt ∧
       stageRoom s (s.outPort 0 0).str = true) ∧
    (let x := atW (ew 0x22 0) 0
     ((eng0 x).eng 0).st = .running ∧ ((eng0 x).eng 0).ending = none ∧ wOpc (codeWord x x.pc) = 0x22 ∧ x.calls = [] ∧ engWordOk (codeWord (atW (ew 0x3E 0) 0)) 0 = false ∧
       ({ st := .running } : Engine).st = .running ∧
       (List.range 4).find? (outBad { eng0 { st := .running, outs := [(0, { kind := 1, size := 64, words := [0] })] } with mem.bad := [1] } 0) = some 0) := by
  and_intros <;> decide +kernel

/-! ### Groups (16) -/

/-- svc as keeper, with an operation. -/
def keeps (o : Option GroupOp) : State := { svc with grp.keeper := true, grp.roster := 3, grp.op := o }
/-- A group apply of set 0 at 2 to the 40. -/
def gop : GroupOp := { kind := 1, slot := 0, op := 5, pos := 2 ^ 40 }
/-- An alignment of worker 1. -/
def gal : GroupOp := { kind := 4, slot := 0, op := 5, t0 := 1000, admitted := true }
/-- Set 0 is pending and its apply stands in the scheduler. -/
def works0 : State := { opened .pending with stg.sched := [applyAct] }
/-- The descriptors of group 0x60: operation, WHEN, position. -/
def grpDesc (k w p : Nat) : List Byte := desc 0x60 [(5, 0xA0), (8, k), (10, w), (16, p)]

theorem wit_KeeperRunsGroupApply :
    (let b := grpDesc 0 1 (2 ^ 40)
     let s := { keeps none with stg.sets := (opened .opened).stg.sets }
     On s b ∧ On (keeps (some gop)) b ∧ (held b).opc = 0x60 ∧ (held b).op 8 1 = 0 ∧ groupApplyOk (held b) = true ∧ (held b).coversBit 7 = true ∧
       s.grp.op = none ∧ groupSetTests s (held b) 0 0 (requestPos s (held b) 10 16 5000) = none ∧
       (groupSetTests (keeps none) (held b) 0 0 (requestPos s (held b) 10 16 5000)).isSome = true) ∧
    drivesRdy { keeps (some gop) with grp.rdyDrive := true } = true ∧
    (∀ p ∈ [1, 2 ^ 40], let s := withRun (keeps (some gop)) (grpDesc 0 1 p)
     s.grp.op = some gop ∧ gop.kind = 1 ∧ gop.admitted = false ∧ rdyReadable s gop = true ∧ drivesRdy s = false ∧ schedFull s = false ∧
       s.slot gop.slot = some (held (grpDesc 0 1 p)) ∧ requestLate s (held (grpDesc 0 1 p)) 10 16 5000 = (p == 1) ∧
       gop.sentAt + 200 * usTicks ≤ s.now) ∧
    (let o := { gop with admitted := true }
     let s := { keeps (some o) with sweep.pos := 2 ^ 40 - 1 }
     s.grp.op = some o ∧ o.frameAt = none ∧ isFuture s.sweep.pos o.pos = true ∧ ahead s.sweep.pos o.pos * 160 ≤ 4400 * s.sweep.rate) ∧
    (let o := { gop with frameAt := some 0 }
     let s := { keeps (some o) with stg.sets := (opened .pending).stg.sets, stg.sched := [applyAct] }
     s.grp.keeper = true ∧ s.grp.op = some o ∧ o.kind = 1 ∧ o.op < 256 ∧ o.frameAt = some 0 ∧ 0 ≤ s.now ∧ 0 * 5 + 8 * 320 ≤ s.now * 5 ∧ o.selfOk = false ∧ groupCheck s 0 o.pos = none ∧
       (groupCheck (keeps (some o)) 0 o.pos).isSome = true) ∧
    (∀ v ∈ [0, 2], let o := { gop with frameAt := some 0, selfOk := true, votes := v }
     let s := keeps (some o)
     let u := { s with now := 1430 }
     s.grp.keeper = true ∧ s.grp.op = some o ∧ bitOf s.grp.roster 1 = true ∧ 0 * 5 + 8 * (830 + 60 * 1) ≤ u.now * 5 ∧
       u.now * 5 < 0 * 5 + 8 * (860 + 60 * 1) ∧ o.committed = false ∧ o.selfOk = true ∧ 0 * 5 + 8 * 2800 ≤ s.now * 5 ∧
       ((List.range 32).filter fun g => 1 ≤ g && bitOf s.grp.roster g && !bitOf o.votes g) = if v = 0 then [1] else []) ∧
    (∀ g ∈ [true, false], let o := { gop with committed := true, gflt := g, actAt := some 5 }
     let s := keeps (some o)
     s.grp.op = some o ∧ o.kind = 1 ∧ o.committed = true ∧ o.actAt = some 5 ∧ 5 + 20 * usTicks ≤ s.now) ∧
    ((keeps (some gop)).grp.op = some gop ∧ { works0 with grp.op := some gop }.stg.sched = [{ applyAct with kind := .apply gop.set }] ∧
      (works0.set gop.set).st = .pending) := by
  and_intros <;> decide +kernel

/-- svc as worker 1, aligned or not, with set 0 in a state and a part in a group apply. -/
def works (al : Bool) (st : SetSt) (w : Option WorkerOp) : State :=
  { opened st with grp.groupId := 1, grp.phase := some 0, grp.aligned := al, grp.worker := w,
                   sweep.source := .group, sweep.st := .running }
/-- Its part: operation 5 of set 0. -/
def part : WorkerOp := { op := 5, set := 0, pos := 2 ^ 40 }

theorem wit_WorkersTakePart :
    ((works false .free none).grp.keeper = false ∧ (works false .free none).grp.aligned = false ∧
      { works true .free none with grp.realign := true }.grp.realign = true) ∧
    (let s := works true .opened none
     let u := testsSet (seeOp s 1 5)
     let me := { recsClaim u (u.set 0).recs with ring := if (u.set 0).st = .free then 256 else (u.set 0).owner }
     inRoster s = true ∧ firstCopy s 1 5 = true ∧ s.grp.worker = none ∧ groupSetTests u me 256 0 (2 ^ 40) = none ∧ s.sweep.source = .group ∧ s.sweep.st = .running ∧
       isPast s.sweep.pos (2 ^ 40) = false ∧ isPast s.sweep.pos (0xFFFFFFFFFFFFFFFF : Pos) = true ∧
       groupSetTests u me 256 0 (0xFFFFFFFFFFFFFFFF : Pos) = none ∧ { s with sweep.source := .time }.sweep.source ≠ .group) ∧
    (let s := works true .free none
     let u := testsSet (seeOp s 1 5)
     let me := { recsClaim u (u.set 0).recs with ring := if (u.set 0).st = .free then 256 else (u.set 0).owner }
     inRoster s = true ∧ firstCopy s 1 5 = true ∧ (groupSetTests u me 256 0 (2 ^ 40)).isSome = true) ∧
    (let s := works true .pending (some part)
     let u := schedule (unschedule (seeOp s 2 5) (.apply 0)) { kind := .apply 0, slot := none, pos := 2 ^ 40 }
     let v := { works true .free (some part) with
       flt.recs := [⟨domSec 0, 2, 0, 0, false, .queued, 0, false⟩],
       stg.sets := [(0, { recs := [⟨targetOf 4 0 1, 8000⟩] })] }
     s.grp.keeper = false ∧ inRoster s = true ∧ firstCopy s 2 5 = true ∧ s.grp.worker = some part ∧ part.op = 5 ∧ part.committed = false ∧
       (s.set part.set).st = .pending ∧ groupCheck u 0 (2 ^ 40) = none ∧ inRoster v = true ∧
       (groupCheck (schedule (unschedule (seeOp v 2 5) (.apply 0)) { kind := .apply 0, slot := none, pos := 2 ^ 40 }) 0
         (2 ^ 40)).isSome = true) ∧
    (let w := { part with frameAt := some 0, accepted := true, voted := true }
     let s := works true .pending (some w)
     let u := { s with now := 1380 }
     s.grp.worker = some w ∧ s.grp.groupId < 32 ∧ 0 * 5 + 8 * (800 + 60 * s.grp.groupId) ≤ (u.now + (ownDelays u).2 / 65536) * 5 ∧
       (u.now + (ownDelays u).2 / 65536) * 5 < 0 * 5 + 8 * (860 + 60 * s.grp.groupId) ∧ w.accepted = true ∧
       w.voted = true ∧ w.committed = false ∧ 0 * 5 + 8 * 3900 ≤ s.now * 5 ∧ (s.set w.set).st = .pending) ∧
    (let s := works true .free none
     firstCopy s 5 5 = true ∧ isPast s.sweep.pos (2 ^ 40) = false ∧ s.stg.sched = [] ∧ s.stg.dayBusy = none ∧ firstCopy s 6 5 = true) := by
  and_intros <;> decide +kernel

theorem wit_GroupDaymarksAndAlignment :
    (let b := grpDesc 1 1 (2 ^ 40)
     let s := keeps none
     On s b ∧ (held b).opc = 0x60 ∧ (held b).op 8 1 = 1 ∧ (held b).op 9 1 = 0 ∧ (held b).op 10 1 = 1 ∧ (held b).zero 11 16 = true ∧
       (held b).zero 24 64 = true ∧ (held b).coversBit 7 = true ∧ s.grp.op = none ∧ schedFull s = false ∧
       requestLate s (held b) 10 16 4000 = false ∧ dayTooClose s (2 ^ 40) = false ∧ s.stg.sched = [] ∧
       dayTooClose { s with stg.sched := [{ kind := .daymark, slot := none, pos := 2 ^ 40 }] } (2 ^ 40) = true) ∧
    (∀ k ∈ [0, 2], let b := desc 1 [(8, k)]
     let s := keeps none
     On s b ∧ (held b).opc = 1 ∧ fenceOk (held b) = true ∧ (held b).op 8 1 = k ∧ fenceDone s (held b) = true ∧
       fenceDone s { held b with bounds := [(0, 1)] } = false) ∧
    (let b := desc 1 [(8, 2)]
     let o : GroupOp := { kind := 3, slot := 0, op := 5, admitted := true }
     On (keeps (some o)) b ∧ fenceOk (held b) = true ∧ (held b).op 8 1 = 2 ∧ (keeps (some o)).grp.op = some o ∧ o.slot = 0 ∧
       o.admitted = true ∧ o.kind = 3 ∧ fenceDone (keeps (some o)) (held b) = true) ∧
    (let o : GroupOp := { kind := 3, slot := 0, op := 5 }
     (keeps (some o)).grp.op = some o ∧ o.admitted = false ∧ rdyReadable (keeps (some o)) o = true ∧
       drivesRdy (keeps (some o)) = false) ∧
    (let b := grpDesc 2 0 0
     On (keeps none) b ∧ (held b).opc = 0x60 ∧ (held b).op 8 1 = 2 ∧ (held b).zero 9 64 = true ∧ (held b).coversBit 7 = true ∧ (keeps none).grp.op = none) ∧
    ((gal.t2 = 0 ∧ gal.t0 < 2000 ∧ 2000 ≤ gal.t0 + 3200 * 65536 ∧ gal.t0 + 3200 * 65536 < 2 ^ 40 ∧ gal.t0 + 3200 * 65536 ≤ stampNow (keeps (some gal))) ∧
      (let o := { gal with t2 := 1, t3 := 2 }
       o.t2 ≠ 0 ∧ o.t3 ≠ 0 ∧ o.t3 < 3 ∧ o.round < 15 ∧ o.t3 + 3200 * 65536 ≤ stampNow (keeps (some gal)) ∧ { gal with t2 := 1 }.t3 = 0 ∧
         { gal with t2 := 1 }.t2 + 3200 * 65536 ≤ 2 ^ 40) ∧
      31 ≤ { gal with worker := 31 }.worker ∧ gal.worker < 31) ∧
    (let o := { gal with t2 := 1, t3 := 2, round := 15, ras := List.replicate 16 65536, rbs := List.replicate 15 65536 }
     let rbs := o.rbs ++ [2 + 1601 * 65536 - 2 - 1600 * 65536]
     let dl := roundDiv rbs.sum 32
     let db := roundDiv (2 * o.ras.sum - rbs.sum) 32
     o.t3 < 2 + 1601 * 65536 ∧ o.round = 15 ∧ 0 ≤ dl ∧ dl ≤ 6291456 ∧ 0 ≤ db ∧ db ≤ 6291456 ∧ spreadOk rbs = true ∧
       spreadOk ((o.ras.zip rbs).map fun p => 2 * p.1 - p.2) = true ∧ spreadOk (0 :: 10000000 :: rbs.drop 2) = false) ∧
    (let s := { works true .free none with grp.answerAt := some 0 }
     hearsFrames s = true ∧ 0 < s.grp.groupId ∧ s.grp.groupId < 32 ∧ s.grp.answerAt.isSome = true ∧ inRoster s = true ∧ 0 ≤ (stampNow s : Int) + (2 ^ 20 - 5) ∧
       (stampNow s : Int) + (2 ^ 20 - 5) < 2 ^ 80) ∧
    (let o := { gal with t2 := 1, t3 := 2, round := 15, ras := List.replicate 16 0, rbs := List.replicate 15 (1600 * 65536) }
     let rbs := o.rbs ++ [1600 * 65536]
     (spreadOk rbs && spreadOk ((o.ras.zip rbs).map fun p => 2 * p.1 - p.2)) = true ∧
       roundDiv (2 * o.ras.sum - rbs.sum) 32 < 0) ∧
    (let s := works true .free none
     (∀ g ∈ [1, 2], isCopy s (.ping g) = false ∧ isCopy { s with grp.copyOf := some (s.now, .ping g) } (.ping g) = true) ∧
       (∀ c ∈ [(6291456, 6291456), (0xFFFFFF, 0), (0, 0xFFFFFE)], isCopy s (.comp 1 c.1 c.2) = false ∧
         isCopy { s with grp.copyOf := some (s.now, .comp 1 c.1 c.2) } (.comp 1 c.1 c.2) = true)) := by
  and_intros <;> decide +kernel

/-- An armed epoch that names a position for tick 1,000,000. -/
def armed (p : Pos) : State :=
  { keeps none with grp.epochArm := true, grp.epochTick := 1000000, grp.epochPos := p, sweep.pos := 0x4000000000 }
/-- The position the epoch gives the present instant. -/
def epochAt (s : State) (t : Nat) : Pos :=
  s.grp.epochPos + BitVec.ofInt 64 (((stampNow s : Int) - ((t : Int) - s.grp.epochDelay)) * s.sweep.rate / 2 ^ 24)

theorem wit_BusLinesAct :
    ((keeps none).grp.keeper = true ∧ (keeps none).running = true ∧ (keeps none).grp.posDue ≤ 5 * (keeps none).now ∧
      commandDue (keeps none) = false ∧ (keeps none).grp.frames = []) ∧
    ((keeps none).grp.gfltN = false ∧ svc.grp.keeper = false ∧ hearsBeacon (works true .free none) = true ∧
      hearsBeacon (keeps none) = true ∧ inRoster (works true .free none) = true) ∧
    (∀ x ∈ [none, some (5 : Nat)], (keeps (some { gop with actAt := x })).grp.op = some { gop with actAt := x }) ∧
    (let s := { svc with grp.gfltN := true, grp.gfltUntil := some 5 }
     drivesGflt s = true ∧ s.grp.gfltUntil = some 5 ∧ 5 ≤ s.now) ∧
    ({ svc with grp.gfltN := true }.grp.gfltN = true ∧ drivesGflt { svc with grp.gfltN := true } = false) ∧
    ((armed 0).grp.epochArm = true ∧ (armed 0).grp.keeper = true ∧ (armed 0).grp.epochEdge = false ∧ (armed 0).running = true ∧
      stampDue (armed 0) (1000000 * 65536) = true ∧ (armed 0).sweep.source = .time ∧
      0 ≤ (stampNow (armed 0) : Int) + ((1000000 * 65536 : Int) - 1000000 * 65536) ∧
      isPast (armed 0).sweep.pos (epochAt (armed 0) (1000000 * 65536)) = true ∧
      isPast (armed 0x8000000000).sweep.pos (epochAt (armed 0x8000000000) (1000000 * 65536)) = false) ∧
    (let s := works true .free none
     isCopy s (.epoch 5) = false ∧ isCopy { s with grp.copyOf := some (s.now, .epoch 5) } (.epoch 5) = true) := by
  and_intros <;> decide +kernel

/-! ### Faults (18) -/

theorem wit_MonitorsRaiseFaultsByClass :
    (∀ m ∈ [(0, 0), (9, 20), (1, 20)], ∀ v ∈ [false, true],
     let s := { chan0 { st := .active, drv := if v then .vih else .off } with flt.mon := [(0, m)], flt.restAt := [(0, 5)] }
     (Tab.get (0, 0) s.flt.mon (512 * 0 + 0)).2 = m.2 ∧ restSince s 0 = 5 ∧ 100000000 < (150000000 : Int).natAbs ∧
       ((s.chan 0).drv ≠ .off ↔ v = true) ∧ (∀ dac < 6, Tab.get 0 (s.chan 0).levelAt (levelPars.getD dac 0) + 32000 ≤ 40000) ∧ (s.chan 0).checking = false ∧ 40000 + 800 ≤ s.now ∧ s.now < 1000000 + 800) ∧
    (svc.setting 6 0 0x012 ≠ 1 ∧ { svc with stg.image := [(0x06000012, 1)] }.setting 6 0 0x012 = 1 ∧
      ((dcs0 { locked := true, refOk := true }).dcs 0).locked = true ∧ ((dcs0 { locked := true, refOk := true }).dcs 0).retune = none ∧
      ((dcs0 { locked := true, refOk := true }).dcs 0).refOk = true ∧ ((dcs0 { retune := some 5 }).dcs 0).retune.isSome = true) ∧
    (∀ leg ∈ [true, false], let s := awg0 { last := if leg then 0x8000 else 0x7FFF }
     500000 * (4095 * 65535) ≤ awgDemand s 0 leg ∧ 4 * (0 : Int) * (4095 * 65535) < awgDemand s 0 leg) ∧
    (let s := { svc with mem.replays := [(0, (15, 1000000))] }
     15 ≤ (Tab.get (0, 0) s.mem.replays 0).1 ∧ s.now ≤ (Tab.get (0, 0) s.mem.replays 0).2 + replayTicks ∧
       (Tab.get (0, 0) svc.mem.replays 0).1 < 15) ∧
    (svc.flt.phase = .service ∧ svc.stopped = false ∧ domClass 5 = 1 ∧ domClass 0x240 = 2 ∧ domClass 0x2FF = 3 ∧ (svc.chan 5).st ≠ .isolated ∧
      { svc with flt.phase := .halted }.stopped = true ∧ State.reset.flt.phase = .start ∧ State.reset.flt.devSafe = .hiZ) ∧
    (∀ m ∈ [2, 3], let r : Recovery := ⟨5, 1, 1, m, false, .quiet 5, 0, false⟩
     let s := { svc with flt.recs := [r] }
     s.flt.phase = .service ∧ (s.flt.recs.find? fun q => domOverlap q.domain 5) = some r ∧ (∀ q ∈ s.flt.recs, q.step ≠ .queued) ∧
       (r.merges < 3 ↔ m = 2) ∧ (3 ≤ r.merges → r.escalated = false ∧ escalationTarget r.domain ≠ r.domain) ∧
       (∀ q ∈ s.flt.recs, domOverlap q.domain 100 = false)) := by
  and_intros <;> decide +kernel

/-- svc with one recovery, of channel 5, at a step. -/
def recovering (x : RecStep) : State := { svc with flt.recs := [⟨5, 1, 1, 0, false, x, 0, false⟩] }

theorem wit_RecoveriesRun :
    (∀ e ∈ [1000000, 1000001], (recAt (recovering (.quiet e)) 5).map (·.step) = some (.quiet e) ∧ (e ≤ svc.now ∨ svc.now < e)) ∧
    (mustWait (recovering (.quiet 5)) 5 = false ∧ mustWait { recovering (.quiet 5) with flt.railBad := true } 5 = true) ∧
    (∀ b ∈ [true, false], (recAt (recovering (.waiting 0 b)) 5).map (·.step) = some (.waiting 0 b)) ∧
    ((∀ n < 8, encloses 5 (domDcs n) = true → ((recovering (.waiting 0 false)).dcs n).refOk = true)) ∧
    (0 + 1000 * 1600 < { recovering (.waiting 0 false) with now := 1600001 }.now) ∧
    (let s := recovering (.restoring 0)
     (recAt s 5).isSome = true ∧ restoreEnd s 5 0 ≤ s.now ∧ (∀ q ∈ s.flt.recs, q.step ≠ .queued) ∧ s.host.barWait = [] ∧
       (s.chan 5).st ≠ .isolated ∧ s.stopped = false ∧ s.flt.isolated = [] ∧ (∀ q ∈ s.flt.recs, q.domain ≠ 5 → encloses q.domain 5 = false)) ∧
    (let s := { svc with flt.recs := [⟨domDev, 3, 1, 0, false, .restoring 0, 0, false⟩] }
     (recAt s domDev).isSome = true ∧ restoreEnd s domDev 0 ≤ s.now ∧ domClass domDev = 3 ∧
       { s with csq.checkOwed := true }.csq.checkOwed = true) ∧
    (svc.flt.frozen = false ∧ svc.flt.hist.length ≤ 32 ∧ { svc with flt.frozen := true }.flt.frozen = true) := by
  and_intros <;> decide +kernel

theorem wit_FaultPinsAct :
    (let s := { svc with now := 20000000 }
     s.running = true ∧ s.stopped = false ∧ isContained s (domSec 0) = false ∧ 0 < 1600000 * (s.alive 0).showPeriod ∧
       (s.alive 0).showFrom + 1600000 * (s.alive 0).showPeriod ≤ s.now ∧ s.flt.awgClr = false) ∧
    isContained { svc with flt.recs := [⟨domSec 0, 2, 1, 0, false, .quiet 5, 0, false⟩] } (domSec 0) = true ∧
    { svc with flt.awgClr := true }.flt.awgClr = true := by
  and_intros <;> decide +kernel

/-! ### Thermal supervision, ledger, time base, flash and AUX port (19, 20, 22) -/

/-- Every sensor reads 25 °C, just now. -/
def cool : State :=
  { svc with thm.sensors := (List.range 16).map fun n => (n, { temp := 400, valid := true, endAt := some 1000000 }) }
/-- A state whose slot 0 runs a descriptor that has its fresh readings. -/
def readingsFresh (s : State) (b : List Byte) : State := { withRun s b with csq.slots := [(0, some { held b with fresh := true })] }
/-- A conversion of sensor 0 that began at 0. -/
def conv0 : Conversion := ⟨1, 0, 0, false, [7]⟩

theorem wit_ThermalSensesOnDemand :
    (∀ m ∈ [0, 0x8001], let b := desc 0x49 [(8, m)]
     On svc b ∧ (held b).opc = 0x49 ∧ (held b).zero 10 64 = true ∧ (held b).op 8 2 = m) ∧
    (svc.running = true ∧ bitOf svc.thm.told 0 = false ∧
      { svc with now := 2 ^ 40 }.thm.maxMs * 1600000 ≤ { svc with now := 2 ^ 40 }.now - Tab.get 0 svc.thm.timer 0) ∧
    (let s := { svc with thm.pending := 0xFFFF }
     (∀ d ∈ [(0 : Fin 5), 4], s.thm.pending &&& dieMask d ≠ 0) ∧ runningConv s 0 = none ∧ quietSlot s 0 = true ∧ svc.thm.pending &&& dieMask 0 = 0) ∧
    (let s := { svc with thm.pending := 0xFFFF, thm.forcedAt := [(0, some 0)], now := 1600000,
                         digs := [(0, { acq := .running, dec := { isOpen := true } })] }
     s.thm.pending &&& dieMask 0 ≠ 0 ∧ runningConv s 0 = none ∧ quietSlot s 0 = false ∧ Tab.get none s.thm.forcedAt 0 = some 0 ∧
       0 + 1600000 ≤ s.now ∧ quietSlot s 0 = false) ∧
    ((RegWrite.onto (full 100) (BitVec.ofNat 64 svc.thm.maxMs)).toNat % 128 = 100 ∧ (full 100).half ≠ .high) ∧
    (let s := { svc with thm.therms := [⟨7, 1, -32768, false, false, 0⟩] }
     s.thm.therms = [⟨7, 1, -32768, false, false, 0⟩] ∧ conv0.slots.contains 7 = true ∧ 1 &&& conv0.sensors = 1) ∧
    (let s := { svc with thm.running := [(0, some conv0)] }
     runningConv s 0 = some conv0 ∧ conv0.startAt + 32000 ≤ { s with now := 40000 }.now ∧ { s with now := 40000 }.now ≤ conv0.startAt + 64000 ∧
       conv0.startAt + 64000 ≤ s.now ∧ conv0.startAt + 64000 < s.now ∧ (∀ n < 16, bitOf conv0.sensors n = true ↔ n = 0) ∧
       (svc.sensor 0).warn + 5 ≤ (svc.sensor 0).throttle ∧ (svc.sensor 0).throttle + 5 ≤ (svc.sensor 0).shutdown) := by
  and_intros <;> decide +kernel

/-- A self-check of source 0 in progress. -/
def checking (o : Option Nat) : State :=
  { withRun svc (desc 0x4A [(5, 2), (8, 2 ^ 48)]) with cal.checks := [(48, some { slot := o, eligible := [0], endAt := 0 })],
                                                       cal.watches := [(0, 2 ^ 48, 0)] }

theorem wit_LedgerAndTimeBase_checks :
    (let b := desc 0x4A [(5, 2), (8, 2 ^ 48)]
     On svc b ∧ (held b).opc = 0x4A ∧ (held b).op 8 8 = 2 ^ 48 ∧ (held b).op 16 1 ≤ 1 ∧ (held b).zero 17 64 = true ∧
       watchClaims (held b) (2 ^ 48) = true ∧ svc.cal.watches = [] ∧ (∀ g < 64, Tab.get none svc.cal.checks g = none) ∧
       (Tab.get none (checking none).cal.checks 48).isSome = true ∧ bitOf (2 ^ 48) 48 = true) ∧
    ((Tab.get none (checking (some 0)).cal.checks 48) = some { slot := some 0, eligible := [0], endAt := 0 } ∧ ageTicks (checking none) 0x2040 ≠ 0 ∧
      runsNow (checking (some 0)) 0 = true ∧ ((checking (some 0)).cal.watches.find? fun w => w.1 == 0) = some (0, 2 ^ 48, 0) ∧
      2 ^ 48 &&& 2 ^ 48 = 2 ^ 48) ∧
    (let s := { svc with now := 2 ^ 50 }
     s.running = true ∧ Tab.get none s.cal.checks 0 = none ∧ s.cal.watchMax * 60 * 1600000000 ≤ s.now - Tab.get 0 s.cal.timers 0 ∧
       60 * 1600000000 ≤ s.now - s.cal.minAt) ∧
    (∀ f ∈ [0, 8273], let b := desc 0x4B [(12, f), (16, 1), (24, 64)]
     On svc b ∧ (held b).opc = 0x4B ∧ ledgerFieldBad (held b) = false ∧ (held b).op 8 1 = 0 ∧ ((held b).op 12 4 + (held b).op 16 4 ≤ 8273 ↔ f = 0) ∧
       (held b).progress = 0 ∧ (held b).progress < (held b).op 16 4) ∧
    (∀ t ∈ [0, 5], let b := desc 0x4B [(8, 1), (16, 1)]
     On svc b ∧ (held b).opc = 0x4B ∧ ledgerFieldBad (held b) = false ∧ (held b).op 8 1 = 1 ∧ (held b).op 16 4 ≤ 14 ∧
       planBad [leBytes 16 (t * 2 ^ 32)] 0 (leBytes 16 (t * 2 ^ 32)) = (t == 0)) ∧
    (let b := desc 0x4B [(8, 2)]
     On svc b ∧ (held b).opc = 0x4B ∧ ledgerFieldBad (held b) = false ∧ (held b).op 8 1 = 2) := by
  and_intros <;> decide +kernel

theorem wit_LedgerAndTimeBase_clocks :
    let s := { svc with now := 2 ^ 50 }
    s.running = true ∧ 1600000000 ≤ s.now - s.cal.secAt ∧ 86400 * 1600000000 ≤ s.now - s.cal.dayAt ∧ s.cal.refSt ≠ .locked ∧
      (∀ r ∈ [RefSt.acquiring, .locked, .holdover], { s with cal.refSt := r }.cal.refSt = r) ∧
      s.cal.acqAt + 10 * 1600000000 ≤ s.now ∧ (0 : Nat) + 1600 ≤ s.now := by
  decide

/-- The 16 bytes of an entry for source 0, and an image that holds it (20 R444). -/
def userEntry : List Byte := leBytes 16 0x2040
/-- The image, with the CRC that the part gives its entry. -/
def userImage : List Byte := leBytes 8 (0x43554C50 + 2 ^ 32) ++ leBytes 4 (crc32 userEntry) ++ zeros 4 ++ userEntry

theorem userImage_good : imageBad userImage = none := by
  have hc : field userImage 8 4 = crc32 userEntry := by
    have h : field userImage 8 4 = leNat (leBytes 4 (crc32 userEntry)) := rfl
    rw [h, Laws.leNat_leBytes]
    exact Nat.mod_eq_of_lt (Laws.crc32_lt _)
  have h1 : field userImage 4 4 = 1 := by rfl
  have hd : imageBody userImage = userEntry := by rw [imageBody, h1]; rfl
  have h0 : field userImage 0 4 = 0x43554C50 := by rfl
  have h2 : field userImage 12 4 = 0 := by rfl
  have hb : (chunks 16 (userEntry.length / 16) userEntry).zipIdx.find? (fun p => overlayBad p.1) = none := by decide
  simp [imageBad, hc, hd, h0, h1, h2, hb]

/-- A LOAD of LENGTH `len` from the host (a = 0), or from the flash (a = 1) whose read is over. -/
def loads (image : List Byte) (a len : Nat) (tested : Bool) : Slot :=
  { held (desc 0x58 [(5, 0x42), (8, a), (12, len)]) with held := if a = 1 || tested then image else [], tested := tested }
/-- It runs. -/
def loading (image : List Byte) (a len : Nat) (tested : Bool) : State :=
  { svc with csq.slots := [(0, some (loads image a len tested))], csq.ctxs := [(0, { busy := true, slot := some 0 })],
             aux.flash := if a = 1 then some 0 else none }
/-- Whatever the image. -/
theorem loading_serves (image : List Byte) (a len : Nat) (tested : Bool) :
    (loading image a len tested).Serves 0 0 (loads image a len tested) := ⟨rfl, rfl, rfl, rfl, rfl⟩

/-- A STORE_FLASH of an overlay of one entry, on fresh readings or on readings out of range. -/
def storing (s : State) : State :=
  { readingsFresh s (desc 0x58 [(5, 0x42), (8, 3), (12, 32)]) with cal.overlay := [⟨0x2040, 0, 5, 0, 0⟩] }
/-- A flash action of slot 0 whose transfer is over, at a step of its script. -/
def stepping (xs : List FlashStep) (ready : Bool) : State :=
  { storing cool with aux.busy := some ⟨0, 50, 64, 8, 0, [], 0, false, 32⟩, aux.flash := some 0, aux.script := xs, aux.ready := ready }

theorem wit_FlashAndAuxPort :
    (∀ a ∈ [0, 1], ∀ tested ∈ [true, false], let sl := loads (zeros 32) a 32 tested
     let s := loading (zeros 32) a 32 tested
     sl.opc = 0x58 ∧ dmaHeld s 0 sl = false ∧ sl.op 8 1 = a ∧ s.aux.busy = none ∧
       (a = 1 → s.aux.flash = some 0 ∧ sl.coversBit 6 = true) ∧ calFieldBad sl = false ∧ sl.tested = tested ∧ sl.progress = 0 ∧
       sl.op 12 4 = 16 + 16 * 1 ∧ claimsQty sl 0x2040 = true ∧ qtyWatched s 0x2040 = false ∧ qtyTaken s 0 0x2040 = false ∧
       inRecovery s (qtyDomain 0x2040) = false ∧ s.cal.overlay = [] ∧ (readOverlay userEntry).qty = 0x2040) ∧
    (imageBad (zeros 32) = some 0 ∧ userImage.length = 32 ∧ field userImage 4 4 = 1 ∧ (loads [] 0 48 false).op 12 4 = 48 ∧
      min 1 (0 + 0) < 1 ∧ min 1 (0 + 1) = 1) ∧
    (∀ at' ∈ [0, 2 ^ 24 - 1], let b := desc 0x58 [(5, 0x42), (8, 1), (12, 32), (16, at')]
     On svc b ∧ (held b).opc = 0x58 ∧ dmaHeld (withRun svc b) 0 (held b) = false ∧ (held b).op 8 1 = 1 ∧ svc.aux.flash ≠ some 0 ∧
       calFieldBad (held b) = false ∧ (flashPast (held b) = true ↔ at' ≠ 0) ∧ auxFree svc = true ∧
       auxFree { svc with aux.flash := some 3 } = false) ∧
    ((stepping [] false).aux.flash = some 0 ∧ (stepping [] false).aux.busy.isSome = true) ∧
    (let b := desc 0x58 [(5, 2), (8, 2), (12, 272)]
     let s := { readingsFresh cool b with cal.refV := 1 }
     s.Serves 0 0 { held b with fresh := true } ∧ (held b).opc = 0x58 ∧ (held b).op 8 1 = 2 ∧ (held b).tested = false ∧
       calFieldBad (held b) = false ∧ junctionOk s = true ∧ junctionOk (readingsFresh svc b) = false ∧ s.cal.overlay = [] ∧
       16 + 16 * (capturedBy (held b)).length ≤ (held b).op 12 4 ∧
       (capturedBy (held b)).length ≤ 16384 ∧ 0 < (capturedBy (held b)).length ∧ s.cal.refV ≠ 0 ∧
       (held (desc 0x58 [(5, 2), (8, 2), (12, 256)])).op 12 4 < 16 + 16 * (capturedBy (held b)).length ∧
       (∀ p ∈ capturedBy (held b), eligibleQty s p.1 = true ∧ qtyWatched s p.1 = false ∧ qtyTaken s 0 p.1 = false ∧
         inRecovery s (qtyDomain p.1) = false)) ∧
    (∀ ok ∈ [true, false], let s := storing (if ok then cool else svc)
     let sl : Slot := { held (desc 0x58 [(5, 0x42), (8, 3), (12, 32)]) with fresh := true }
     s.Serves 0 0 sl ∧ sl.opc = 0x58 ∧ sl.op 8 1 = 3 ∧ sl.tested = false ∧ calFieldBad sl = false ∧ sl.op 12 4 = 16 + 16 * s.cal.overlay.length ∧
       flashPast sl = false ∧ sl.coversBit 6 = true ∧ (∀ o ∈ s.cal.overlay, claimsQty sl o.qty = true ∧ qtyWatched s o.qty = false ∧
         qtyTaken s 0 o.qty = false ∧ inRecovery s (qtyDomain o.qty) = false) ∧ junctionOk s = ok ∧ s.aux.flash ≠ some 0 ∧ auxFree s = true ∧
       auxFree { s with aux.flash := some 3 } = false ∧ flashStore 0 (zeros 32) ≠ []) ∧
    (∀ at' ∈ [5, 10 ^ 9], let s := { stepping [{ bytes := [5], reads := 1, poll := some 1 }] false with now := 10 ^ 9, aux.pageAt := some at' }
     s.aux.flash = some 0 ∧ (s.aux.script.head?.bind FlashStep.poll).isSome = true ∧ (pageLate s = true ↔ at' = 5)) ∧
    (∀ ready ∈ [true, false], ∀ more ∈ [[], [{ bytes := [6] }]],
     let x : FlashStep := { bytes := [5], reads := 1, poll := some 1 }
     let s := stepping (x :: more) ready
     (s.aux.busy.map fun r => decide (r.slot = 0 ∧ r.start + r.len * r.period + r.period / 2 ≤ s.now)) = some true ∧ s.aux.flash = some 0 ∧
       (s.slot 0).isSome = true ∧ s.aux.script = x :: more ∧ s.aux.ready = ready) ∧
    (let b := desc 0x58 [(5, 2), (8, 4)]
     let s := { svc with cal.overlay := [⟨0x2040, 0, 5, 0, 0⟩] }
     On s b ∧ (held b).opc = 0x58 ∧ calFieldBad (held b) = false ∧ (held b).op 8 1 = 4 ∧ clearedBy s (held b) ≠ [] ∧
       (∀ o ∈ clearedBy s (held b), qtyWatched s o.qty = false ∧ qtyTaken (withRun s b) 0 o.qty = false ∧
         inRecovery s (qtyDomain o.qty) = false) ∧ (held b).progress = 0 ∧ 0 < (clearedBy s (held b)).length) ∧
    (∀ p ∈ [(0, 0), (0, 8), (1, 8)], let b := desc 0x50 [(5, 0x40), (10, p.1), (11, 1), (12, p.2)]
     let s := readingsFresh cool b
     s.Serves 0 0 { held b with fresh := true } ∧ (held b).opc = 0x50 ∧ (held b).op 8 1 ≤ 15 ∧ (held b).op 9 1 = 0 ∧ (held b).op 11 1 ≠ 0 ∧
       (held b).zero 14 16 = true ∧ (held b).zero 32 64 = true ∧ (held b).op 16 8 % 8 = 0 ∧ (held b).op 24 8 % 8 = 0 ∧
       (held b).coversBit 6 = true ∧ (held b).op 10 1 = p.1 ∧ (held b).op 12 2 = p.2 ∧ (held b).tested = false ∧ auxFree s = true ∧
       junctionOk s = true ∧ auxFree { s with aux.busy := some ⟨0, 0, 32, 8, 64, [], 0, false, 32⟩ } = false ∧ junctionOk svc = false) ∧
    (let r : AuxRun := ⟨0, 50, 32, 8, 64, [], 0, false, 32⟩
     let s := { svc with aux.busy := some r }
     s.aux.busy = some r ∧ 50 + 8 * 32 + 32 / 2 ≤ s.now ∧ r.rxAddr ≠ 0 ∧ r.len ≠ 0 ∧ s.aux.flash ≠ some r.slot ∧ inTail s 60 = false ∧
       inTail s 40 = false ∧ 40 < r.start) := by
  and_intros <;> decide +kernel

/-! ### Serial port, test port, power, host, patches (13, 14, 17, 22, 23, 25) -/

/-- A frame of 48 + 32 × n clocks at address 0x030008 (22 R481, R487). -/
def frame (cmd : Byte) (a : BitVec 24) (ws : List Word) (crc : Byte) : MntFrame := ⟨cmd, a, ws, crc, 48 + 32 * ws.length, 640, 40000⟩

/-- 22 R487: the CRC of the frame that writes 0x0000_0014 to 0x03_0008 is 0x35. -/
theorem test_mnt_crc : mntCrc (frame 0x02 0x030008 [0x14] 0x35) = 0x35 := by decide +kernel

theorem wit_MntFramesRun :
    (pinsDriven State.reset = false ∧ pinsDriven svc = true ∧ pageStale svc 0x030008 = false ∧
      pageStale { svc with flt.recs := [⟨domDie 0, 2, 1, 0, false, .quiet 5, 0, false⟩] } 0x100000 = true ∧
      (⟨0x0B, 0, [], 0, 40, 639, 40000⟩ : MntFrame).gap < 640 ∧ (⟨0x0B, 0, [], 0, 40, 640, 39999⟩ : MntFrame).sckPs < 40000) ∧
    (640 ≤ (frame 0 0 [] 0).gap ∧ 40000 ≤ (frame 0 0 [] 0).sckPs ∧ 40 ≤ (frame 0 0 [] 0).clocks ∧ (frame 0 0 [] 0).addr = 0 ∧
      (⟨5, 2, [], 0, 20, 640, 40000⟩ : MntFrame).clocks < 40) ∧
    (let f := frame 0x02 0x030008 [0x14] 0x35
     640 ≤ f.gap ∧ 40000 ≤ f.sckPs ∧ pageStale svc f.addr.toNat = false ∧ f.addr.toNat % 4 = 0 ∧ 40 ≤ f.clocks ∧ f.words ≠ [] ∧
       f.clocks = 48 + 32 * f.words.length ∧ f.addr.toNat + 4 * f.words.length ≤ f.addr.toNat / 4096 * 4096 + 4096 ∧
       mntCrc (frame 0x02 0x030008 [0x14] 0x34) ≠ 0x34) ∧
    (let f := frame 0x0B 0x000FF8 [0, 0, 0, 0] 0
     f.cmd = 0x0B ∧ f.addr.toNat % 8 = 0 ∧ 2 ≤ mntWords f ∧ 0x1000 < 0xFF8 + 4 * mntWords f ∧ isWide 0x060200 = true ∧
       (regRead svc .mnt 0x060200).isSome = true) ∧
    (let w : List Word := [0x14, 0]
     let c := mntCrc (frame 0x02 0x060200 w 0)
     let f := frame 0x02 0x060200 w (BitVec.ofNat 8 c)
     mntCrc f = f.crc.toNat ∧ f.words = w ∧ f.addr.toNat % 8 = 0 ∧ (regWrite svc ⟨.mnt, .full, 0x14⟩ 0x060200).isSome = true) := by
  and_intros <;> decide +kernel

theorem wit_TestPortActs : svc.tap.ir = 0x01 ∧ { svc with tap.ir := 0x04 }.tap.ir = 0x04 ∧
    (0x03 : Byte) ∉ ([0x00, 0x01, 0x02, 0x04, 0x05, 0x06, 0x07] : List Byte) := by decide

/-- Any 1,020 bytes with the CRC that the part gives them are a good copy of a channel's record. -/
theorem copyOk_crc (z : List Byte) (h : z.length = 1020) : copyOk (z ++ leBytes 4 (crc32 z)) = true := by
  have hn : (z ++ leBytes 4 (crc32 z)).length = 1024 := by simp [h, Laws.length_leBytes]
  have hd : (z ++ leBytes 4 (crc32 z)).take 1020 = z := by rw [← h]; exact List.take_left
  have hr : ((z ++ leBytes 4 (crc32 z)).drop 1020).take 4 = leBytes 4 (crc32 z) := by
    rw [← h, List.drop_left, List.take_of_length_le (by simp [Laws.length_leBytes])]
  have hc : field (z ++ leBytes 4 (crc32 z)) 1020 4 = crc32 z := by
    rw [field, hr, Laws.leNat_leBytes]
    exact Nat.mod_eq_of_lt (Laws.crc32_lt _)
  simp [copyOk, hn, hd, hc]

theorem goodCopy_exists : ∃ d, copyOk d = true := ⟨_, copyOk_crc (zeros 1020) (List.length_replicate ..)⟩

theorem wit_StrapsAndPowerUp :
    ((0 : Nat) < 1600 ∧ 1600 ≤ (1600 : Nat) ∧ (let rail : Fin 11 := 9; rail.val = 9 ∧ (-3600000 : Int) < 0)) ∧
    (State.reset.flt.phase = .start ∧ State.reset.pwr.badRails = [] ∧ State.reset.pwr.pinsSafe = false ∧
      { State.reset with pwr.badRails := [3] }.pwr.badRails ≠ [] ∧ (([(5, 1), (6, 2)] : List (Nat × Int)).map (·.1)).Nodup ∧
      (([(3, zeros 3, zeros 3)] : List (Nat × List Byte × List Byte)).map (·.1)).Nodup ∧ copyOk (zeros 3) = false ∧
      (∀ i < 255, (5 : Nat) ≠ recordBase 3 + 4 * i) ∧ svc.flt.phase ≠ .start) ∧
    (let s := { State.reset with flt.phase := .selftest, pwr.pinsSafe := true, flt.devSafe := .fault }
     s.flt.phase = .selftest ∧ s.pwr.badRails = [] ∧ s.pwr.pinsSafe = true ∧ s.flt.devSafe = .fault ∧ s.mem.maxRate ≤ 2 ∧
       (3 : BitVec 2) ≠ 0 ∧ isContained s (domDcs 0) = false) := by
  and_intros <;> decide +kernel

theorem wit_HostResetsAct :
    (svc.pwr.perst = false ∧ svc.host.up = true ∧ State.reset.pwr.perst = true ∧ State.reset.host.up = false ∧
      (svc.chan 0).st ≠ .isolated ∧ isContained svc (domSec 0) = false) ∧
    (let s := { svc with pwr.atTraining := false, pwr.ready := false }
     s.pwr.atTraining = false ∧ s.host.up = true ∧ s.pwr.perst = false ∧ s.running = true) := by decide

theorem wit_LinkFollowsCommands :
    (svc.pwr.perst = false ∧ svc.tap.driving = false ∧ svc.pwr.pinsSafe = true ∧ 1 ≤ (6 : BitVec 4).toNat ∧ (6 : BitVec 4).toNat ≤ 6 ∧
      State.reset.pwr.perst = true ∧ { svc with tap.driving := true }.tap.driving = true ∧ svc.host.up = true ∧
      State.reset.host.up = false) ∧
    (∀ u ∈ [true, false], let s := { svc with host.waiting := [.msi 3 64 5], host.msixUnmasked := [(3, u)] }
     s.host.up = true ∧ s.host.d3 = false ∧ s.host.waiting = .msi 3 64 5 :: [] ∧ Tab.get false s.host.msixUnmasked 3 = u) ∧
    { svc with host.d3 := true }.host.d3 = true := by decide

/-- A patch image of one microword, with the ROM_ID of the part and LEVEL 1 (17 R398). -/
def patchImage : List Byte := leBytes 8 (0x50435350 + 544 * 2 ^ 32) ++ leBytes 4 Config.romId.toNat ++ leBytes 4 1 ++ leBytes 2 1 ++ zeros 430 ++
  leBytes 48 1 ++ leBytes 48 1
/-- The PATCH_LOAD that names it. -/
def patchDesc : List Byte := desc 0x68 [(12, 544)]

theorem patchImage_romId : field patchImage 8 4 = Config.romId.toNat := by
  have h : field patchImage 8 4 = leNat (leBytes 4 Config.romId.toNat) := rfl
  rw [h, Laws.leNat_leBytes]
  exact Nat.mod_eq_of_lt Config.romId.isLt

/-- Which key is the ROM's is the part's own (Config.romKeyHash, no body): every other hypothesis of the clauses that ask for a
signature is met. -/
theorem wit_PatchesActivate :
    (On svc patchDesc ∧ (held patchDesc).opc = 0x68 ∧ (held patchDesc).zero 8 12 = true ∧ (held patchDesc).zero 24 64 = true ∧
      (held patchDesc).op 12 4 = 544 ∧ (held patchDesc).op 16 8 % 64 = 0) ∧
    (zeroBytes patchImage 448 496 = false ∧ zeroBytes patchImage 496 544 = false) ∧
    (field patchImage 0 4 = 0x50435350 ∧ field patchImage 4 4 = 544 ∧ field patchImage 16 2 = 1 ∧ field patchImage 12 4 = 1 ∧
      patchBadField patchImage 1 = none ∧ (patchBadField (patchImage.set 19 1) 1).isSome = true ∧ svc.csq.active.level ≤ 1 ∧
      svc.csq.awaiting = none ∧ (patchImage.take 544).length = 544 ∧ field (zeros 544) 0 4 ≠ 0x50435350 ∧ field (zeros 544) 4 4 ≠ 544) ∧
    (∀ t ∈ [0, 10], let s := { svc with csq.awaiting := some (0, t), now := 160000000 }
     s.csq.awaiting = some (0, t) ∧ patchClear s = true ∧ (t + 160000000 ≤ s.now ↔ t = 0)) ∧
    (let s := { svc with csq.awaiting := some (0, 0), csq.ctxs := [(0, { busy := true, slot := some 0, pc := 0x4000 })] }
     s.csq.awaiting = some (0, 0) ∧ patchClear s = false) := by
  and_intros <;> decide +kernel

theorem reset_memOk : State.reset.memOk := by decide +kernel

/-- The three statements about every step: the reset state meets what they ask, and a command or tick answers a next state from
it. -/
theorem wit_StepKeepsMemoryCanonical : State.reset.memOk ∧ (match step State.reset with | .next _ => True | _ => False) :=
  ⟨reset_memOk, trivial⟩
theorem wit_StepKeepsEngineFiles : (∀ e, (State.reset.eng e).Shaped) ∧ (match step State.reset with | .next _ => True | _ => False) :=
  ⟨fun _ => (by decide : ({} : Engine).Shaped), trivial⟩

theorem wit_StoppedPhasesAreLatched : (∀ p ∈ [Phase.halted, .shutdown], let s := { svc with flt.phase := p }
    s.stopped = true ∧ s.flt.recs = [] ∧ s.pending = []) ∧
    (match step { svc with flt.phase := .halted } with | .next _ => True | _ => False) :=
  ⟨by decide +kernel, trivial⟩

/-! ### The manual's worked examples -/

/-- 03, Channel Front End: the example's codes and effective values. -/
theorem test_levels : levelCode 3300000 = 37008 ∧ levelCode 2450000 = 30454 ∧ loadCode 2500000 = 6827 ∧
    levelUv 37008 = 3300000 ∧ levelUv 30454 = 2449935 ∧ loadNa 6827 = 2500160 := by decide

/-- 03 R49 and R55: IOH 8 mA and IOL 2.5 mA of the example, with VCOM at 0 V (a whole multiple of 100 mV, so exact), flow at 250
mV to either side; a driver with 7 V across it delivers at most 150 mA. -/
theorem test_load :
    let s := { svc with stg.image := [(targetOf 1 300 8, 8000000), (targetOf 1 300 9, 2500000)] }
    loadSink s 300 250000 = 8000000 ∧ loadSink s 300 (-250000) = -2500160 ∧ driverCurrent 300 7000000 (-1500000) ≤ 150000000 := by
  refine ⟨by decide +kernel, by decide +kernel, ?_⟩
  simp only [driverCurrent]
  split
  · omega
  · split <;> omega

/-- 25 R528: test pin 300 lies on side 2 (d = 2, k = 44) at depth 3 and position 30: row 67 − 3, column 67 − 30; the ball behind
it, at depth 4, is ground. -/
theorem test_ball : testPinBall 300 = (64, 37) ∧ testPinGround 300 = (63, 37) := by decide

/-- 04, Timing: the example's steps. -/
theorem test_steps : stepsOf 6000000 = 2458 ∧ stepsOf 500000 = 205 ∧ stepsOf 1200000 = 492 ∧ stepsOf 3700000 = 1516 ∧
    stepsOf 4800000 = 1966 := by decide

/-- 05, Pattern: the keep-alive vector's top word is 0x14B0_0000: timing set 5 and opcode 0x0B. -/
theorem test_vector : let w : BitVec 288 := BitVec.ofNat 288 (0x14B00000 * 2 ^ 256)
    vTset w = 5 ∧ vOpc w = 0x0B ∧ vOperand w = 0 := by decide +kernel

/-- 07, Time stampers: the example's four records. -/
theorem test_stamps : stampWord ⟨4, 0xF4240, 0x4E00⟩ = 0x8000000F42404E00 ∧ stampWord ⟨3, 0xF4249, 0xE7A4⟩ = 0x6000000F4249E7A4 ∧
    stampWord ⟨2, 0xF4268, 0x2904⟩ = 0x4000000F42682904 ∧ stampWord ⟨5, 0xF4280, 0x4E08⟩ = 0xA000000F42804E08 := by decide

/-- 12, Measurement engines: the three MAC words of the example, and what their fields say. -/
theorem test_macs : macOk 0x400FC4040000 = true ∧ macOk 0x410FC4040000 = true ∧ macOk 0x410F80000000 = true ∧
    wOpc 0x400FC4040000 = 0x10 ∧ bits 0x400FC4040000 41 40 = 0 ∧ bits 0x410FC4040000 41 40 = 1 ∧ bits 0x400FC4040000 37 35 = 1 ∧
    bitOf 0x400FC4040000 34 = true ∧ bits 0x400FC4040000 33 31 = 7 ∧ moveOf 0x400FC4040000 30 = (true, false, 1, 0, 0, 1) ∧
    (moveOf 0x410F80000000 30).1 = false := by decide +kernel

/-- 12: the example's root and guard band. -/
theorem test_root : isqrt (144000000 * 65536) = 3072000 ∧ roundDiv (2 * 1500 * 274878) 65536 = 12583 := by decide +kernel

/-- 24, Register map: VOH of channel 300 at 2,450,000 µV reads 0x0000_76F6_0025_620F at 0x0032_C028. -/
theorem test_voh : regRead { svc with stg.image := [(targetOf 1 300 5, 2450000)] } .pcie 0x32C028 = some 0x000076F60025620F := by
  decide +kernel

/-- 20, worked example: channel 300 at day 10 after an overlay with U_U 150 µV, E 300 µV and D 30 µV per day. -/
def drifted (e : Int) : State :=
  { svc with
    now := 10 * dayTicks,
    cal.overlay := [⟨4800, 0, 0, 0, 150⟩],
    cal.plan := [⟨0, 2, 512, 500, 168⟩],
    cal.ledger := [(4800, { e := e, d := 7680, checked := true, first := false, since := 10 * dayTicks })] }

theorem test_ledger : uNow (drifted 300) 4800 = 335 ∧ uAhead (drifted 300) 4800 = 532 ∧ uAhead (drifted 0) 4800 = 258 ∧
    oomNow (drifted 300) 4800 = true ∧ oomNow (drifted 0) 4800 = false := by decide +kernel

/-- 17 R398: SHA-384 of "abc", the example of the standard that the manual names. -/
theorem test_sha384 : sha384 [0x61, 0x62, 0x63] =
    0xCB00753F45A35E8BB5A03D699AC65007272C32AB0EDED1631A8B605A43FF5BED8086072BA1E7CC2358BAECA134C825A7 := by decide +kernel

/-- 02 R26: a position half the ring ahead is past, one less is in the future. -/
theorem test_positions : isFuture 5 0x8000000000000004 = true ∧ isPast 5 0x8000000000000005 = true ∧ isPast 5 5 = false := by decide

/-! ### Well-formedness: an ill-formed command for each check, refused -/

theorem test_wf : Instr.wf (.descriptorFetch 0 [0]) = false ∧
    Instr.wf (.ringConfigWrite .str 32 .ctrl ⟨.pcie, .full, 0⟩) = false ∧
    Instr.wf (.bar4Write 0xFFFFFFFFF [0, 0]) = false ∧ Instr.wf (.bar4Read 0xFFFFFFFFF 2) = false ∧
    Instr.wf (.registerWrite .bar0 0 3 0) = false ∧ Instr.wf (.highHalfLatchRead .pcie .bar2 0 3) = false ∧
    Instr.wf (.highHalfLatchRead .mnt .bar0 0 8) = false ∧
    Instr.wf (.mntNop ⟨0, 0, List.replicate 257 0, 0, 40, 640, 40000⟩) = false ∧ Instr.wf (.mntRead ⟨11, 0, [], 0, 9000, 640, 40000⟩) = false ∧
    Instr.wf (.mntWrite ⟨2, 0, [], 0, 9000, 640, 40000⟩) = false ∧ Instr.wf (.selftestDone ⟨1, false, 3, 0⟩) = false ∧
    Instr.wf (.linkUp 7 1 false 0) = false ∧ Instr.wf (.linkUp 6 3 false 0) = false ∧ Instr.wf (.patrolScrub ⟨0, [16], []⟩) = false ∧
    Instr.wf (.engRunStart 0 [0]) = false ∧ Instr.wf (.nop 0) = true := by decide +kernel

/-! ### The queue -/

/-- Two commands run in order, and an empty queue lets one tick of TCLK pass (log entry 2). -/
theorem test_queue : (match step { State.reset with pending := [.powerUp1msPoint [], .testLogicReset] } with
    | .next t => t.pending == [.testLogicReset] && t.pwr.pinsSafe
    | _ => false) = true ∧ (match step State.reset with | .next t => t.now == 1 | _ => false) = true := by decide +kernel

end Sys2Proof.Tests
end

section
/-! SUPPORT. What one tick of TCLK leaves of the clock: no operation that an idle tick runs, a fault's containment included, moves
the command queue, the tick counts, the sweep or the power state; only `tickOnce` does. -/

namespace Sys2Proof.Machine

open Sys2Proof

/-- `t` stands at the same queue, tick counts, sweep and power state as `s`. Reducible, so that `simp` takes a lemma
`KeepsClock s (f s)` as one equation per field. -/
@[simp, reducible] def KeepsClock (s t : State) : Prop :=
  t.pending = s.pending ∧ t.now = s.now ∧ t.tick = s.tick ∧ t.sweep = s.sweep ∧ t.pwr = s.pwr

/-- Each field of the clock passes a choice of states. -/
@[simp] theorem ite_clock (c : Prop) [Decidable c] (s t : State) :
    (if c then s else t).pending = (if c then s.pending else t.pending) ∧
    (if c then s else t).now = (if c then s.now else t.now) ∧
    (if c then s else t).tick = (if c then s.tick else t.tick) ∧
    (if c then s else t).sweep = (if c then s.sweep else t.sweep) ∧
    (if c then s else t).pwr = (if c then s.pwr else t.pwr) :=
  ⟨apply_ite .., apply_ite .., apply_ite .., apply_ite .., apply_ite ..⟩

section
variable {s t u : State}

theorem KeepsClock.trans (h : KeepsClock s t) (k : KeepsClock t u) : KeepsClock s u := by simp_all

/-- States at one clock tick to states at one clock. -/
theorem KeepsClock.tickOnce (h : KeepsClock s t) : KeepsClock (tickOnce s) (tickOnce t) := by
  obtain ⟨hpending, hnow, htick, hsweep, hpwr⟩ := h
  have hrunning : t.running = s.running := by rw [State.running, hpwr, State.running]
  unfold Machine.tickOnce
  rw [hrunning]
  split <;> simp [*]

end

section
variable (s : State)

@[simp] theorem forEach_keepsClock {α : Type} (xs : List α) (f : α → State → State) (h : ∀ x t, KeepsClock t (f x t)) :
    KeepsClock s (forEach xs s f) :=
  forEach_keeps (P := KeepsClock s) (by simp) fun x _ t ht => ht.trans (h x t)

/-- Stated on its own to be chained by `KeepsClock.trans` where `s` is an operation that would otherwise be unfolded. -/
theorem updSec_keepsClock (n : Nat) (f : Sector → Sector) : KeepsClock s (s.updSec n f) := by simp

/-- As `updSec_keepsClock`. -/
theorem updDig_keepsClock (n : Nat) (f : Dig → Dig) : KeepsClock s (s.updDig n f) := by simp

/-! ### Compares of a channel (03 R54) -/

@[simp] theorem oweLess_keepsClock (n p : Nat) : KeepsClock s (oweLess s n p) := by simp [oweLess]

@[simp] theorem setLatch_keepsClock (n t : Nat) : KeepsClock s (setLatch s n t) := by simp [setLatch, latchEvent]

@[simp] theorem failWindow_keepsClock (n : Nat) (k : Compare) (t : Int) : KeepsClock s (failWindow s n k t) := by
  simp [failWindow, deliver, putCompare]

@[simp] theorem settleRun_keepsClock (n : Nat) (t : Int) : KeepsClock s (settleRun s n t) := by
  unfold settleRun
  split
  · split <;> simp
  · simp

@[simp] theorem runTick_keepsClock : KeepsClock s (runTick s) := by simp [runTick]

/-! ### Synthesizers (11) -/

@[simp] theorem outFall_keepsClock (n : Nat) (t : Int) : KeepsClock s (outFall s n t).2 := by
  simp [outFall, State.fresh, apply_ite Prod.snd]

@[simp] theorem setGate_keepsClock (n : Nat) : KeepsClock s (setGate s n) := by simp [setGate]

@[simp] theorem startRetune_keepsClock (n : Nat) : KeepsClock s (startRetune s n) := by simp [startRetune]

@[simp] theorem settleDcs_keepsClock (n : Nat) : KeepsClock s (settleDcs s n) := by simp [settleDcs]

@[simp] theorem unschedule_keepsClock (k : ActKind) : KeepsClock s (unschedule s k) := by simp [unschedule]

@[simp] theorem endRamp_keepsClock (n st : Nat) : KeepsClock s (endRamp s n st) := by
  unfold endRamp
  split
  · dsimp only
    split <;> simp
  · simp

@[simp] theorem stopRamp_keepsClock (n : Nat) : KeepsClock s (stopRamp s n) := by
  unfold stopRamp
  split <;> simp [updRamp]

@[simp] theorem takeO_keepsClock (n : Nat) : KeepsClock s (takeO s n) := by
  unfold takeO
  split <;> simp

@[simp] theorem dcsTick_keepsClock : KeepsClock s (dcsTick s) := by simp [dcsTick, retuneDue]

/-! ### The serial port and the fence (22 R476, R477; 16 R378) -/

@[simp] theorem auxIdle_keepsClock (r : AuxRun) (ok : Bool) (n : Nat) : KeepsClock s (auxIdle s r ok n) := by simp [auxIdle]

@[simp] theorem flashBegin_keepsClock (id sel : Nat) : KeepsClock s (flashBegin s id sel) := by
  unfold flashBegin
  split <;> simp

@[simp] theorem flashNext_keepsClock (id sel : Nat) : KeepsClock s (flashNext s id sel) := by
  unfold flashNext
  split <;> simp

@[simp] theorem auxEnd_keepsClock (st n : Nat) : KeepsClock s (auxEnd s st n) := by
  unfold auxEnd
  split <;> simp

@[simp] theorem auxTick_keepsClock : KeepsClock s (auxTick s) := by
  unfold auxTick
  split <;> simp

@[simp] theorem auxStop_keepsClock (st : Nat) : KeepsClock s (auxStop s st) := by
  unfold auxStop
  split <;> simp

@[simp] theorem releaseFence_keepsClock : KeepsClock s (releaseFence s) := by
  unfold releaseFence
  split <;> simp

/-! ### Trigger bus (09 R192 to R195) -/

@[simp] theorem slotHit_keepsClock (u m t : Nat) (v : Option Nat) (c : Bool) : KeepsClock s (slotHit s u m t v c) := by
  simp [slotHit]

@[simp] theorem slotEnd_keepsClock (u m t : Nat) (c : Bool) : KeepsClock s (slotEnd s u m t c) := by
  unfold slotEnd
  dsimp only
  split <;> simp [State.updTuSlot]

@[simp] theorem slotTriple_keepsClock (u m ev t : Nat) (c : Bool) (a b : Nat) (k : Option Nat) :
    KeepsClock s (slotTriple s u m ev t c a b k) := by
  simp [slotTriple, slotStart, slotDrop, State.updTuSlot]

@[simp] theorem slotEvent_keepsClock (u m ev t : Nat) (c : Bool) : KeepsClock s (slotEvent s u m ev t c) := by
  unfold slotEvent
  dsimp only
  split <;> simp [slotStart, slotDrop, State.updTuSlot]

@[simp] theorem lineEdge_keepsClock (k : Nat) (a : Bool) (t : Nat) : KeepsClock s (lineEdge s k a t) := by
  simp [lineEdge, tuAll, tuEvent]

@[simp] theorem ownLines_keepsClock : KeepsClock s (ownLines s) := by simp [ownLines]

/-! ### Flows of a digitizer (09 R204 to R215) -/

@[simp] theorem updFlow_keepsClock (n : Nat) (dec : Bool) (f : Flow → Flow) : KeepsClock s (s.updFlow n dec f) := by
  simp [State.updFlow]

@[simp] theorem holdRec_keepsClock (n : Nat) (dec : Bool) (r : FlowRec) : KeepsClock s (holdRec s n dec r) := by
  simp [holdRec]

@[simp] theorem loseSample_keepsClock (n : Nat) (dec : Bool) (g r : Nat) : KeepsClock s (loseSample s n dec g r) := by
  simp [loseSample]

@[simp] theorem passGap_keepsClock (e p t : Nat) : KeepsClock s (passGap s e p t) := by simp [passGap, setGap]

@[simp] theorem portPut_keepsClock (e p t : Nat) (ws : List (Word × Bool)) : KeepsClock s (portPut s e p t ws) := by
  simp [portPut, State.updIn]

@[simp] theorem portLose_keepsClock (e p k : Nat) : KeepsClock s (portLose s e p k) := by
  simp [portLose, setGap, State.updIn]

@[simp] theorem portSample_keepsClock (n : Nat) (dec : Bool) (g v : Nat) : KeepsClock s (portSample s n dec g v) := by
  unfold portSample
  dsimp only
  split
  · simp
  · split <;> simp

@[simp] theorem ddrWrite_keepsClock (a : Nat) (bs : List Byte) : KeepsClock s (ddrWrite s a bs) := by simp [ddrWrite]

@[simp] theorem stageBlock_keepsClock (r : Nat) (bs : List Byte) (last : Bool) : KeepsClock s (stageBlock s r bs last) := by
  simp [stageBlock]

@[simp] theorem payBlock_keepsClock (n : Nat) (dec : Bool) : KeepsClock s (payBlock s n dec) := by simp [payBlock]

@[simp] theorem deliverBlock_keepsClock (n : Nat) (dec last : Bool) : KeepsClock s (deliverBlock s n dec last) := by
  unfold deliverBlock
  dsimp only
  split <;> split <;> simp

@[simp] theorem openAfterGap_keepsClock (n : Nat) (dec : Bool) (g : Nat) (p : Pos) :
    KeepsClock s (openAfterGap s n dec g p) := by
  unfold openAfterGap
  split <;> simp

@[simp] theorem putSample_keepsClock (n : Nat) (dec : Bool) (g v : Nat) (sat unc : Bool) (p : Pos) (t : Nat) :
    KeepsClock s (putSample s n dec g v sat unc p t) := by
  simp [putSample]

@[simp] theorem countSpare_keepsClock : KeepsClock s (countSpare s) := by simp [countSpare]

@[simp] theorem flowSample_keepsClock (n : Nat) (dec : Bool) (g v : Nat) (sat unc : Bool) (p : Pos) (t : Nat) :
    KeepsClock s (flowSample s n dec g v sat unc p t) := by
  simp [flowSample]

@[simp] theorem drainLine_keepsClock (n : Nat) (all : Bool) : KeepsClock s (drainLine s n all) := by simp [drainLine]

@[simp] theorem portTail_keepsClock (n : Nat) (dec : Bool) : KeepsClock s (portTail s n dec) := by
  unfold portTail
  dsimp only
  split <;> simp

@[simp] theorem flushIf_keepsClock (n : Nat) (dec c : Bool) : KeepsClock s (flushIf s n dec c) := by simp [flushIf]

@[simp] theorem lastBlock_keepsClock (n : Nat) (dec : Bool) : KeepsClock s (lastBlock s n dec) := by simp [lastBlock]

@[simp] theorem tryFinishAcq_keepsClock (n : Nat) : KeepsClock s (tryFinishAcq s n) := by simp [tryFinishAcq]

@[simp] theorem endAcq_keepsClock (n st : Nat) : KeepsClock s (endAcq s n st) := by
  unfold endAcq
  dsimp only
  split
  · simp
  · split <;> simp

@[simp] theorem addRec_keepsClock (n : Nat) (dec : Bool) (r : FlowRec) : KeepsClock s (addRec s n dec r) := by simp [addRec]

@[simp] theorem tapOpened_keepsClock (ch : Nat) : KeepsClock s (tapOpened s ch) := by simp [tapOpened, addRecs]

/-! ### Waveform sources (10 R229, R234, R236) -/

@[simp] theorem giveDown_keepsClock (d r : Nat) : KeepsClock s (giveDown s d r) := by simp [giveDown]

@[simp] theorem returnStream_keepsClock (n : Nat) : KeepsClock s (returnStream s n) := by simp [returnStream]

@[simp] theorem endPlayed_keepsClock (n st : Nat) (k : AwgSt) (b : Bool) : KeepsClock s (endPlayed s n st k b) := by
  unfold endPlayed
  dsimp only
  split <;> split <;> simp

@[simp] theorem clearAwg_keepsClock (n st : Nat) (told : Bool) : KeepsClock s (clearAwg s n st told) := by
  simp [clearAwg, endSequence]

@[simp] theorem stopWrites_keepsClock (n : Nat) : KeepsClock s (stopWrites s n) := by
  refine forEach_keepsClock _ _ _ fun p t => ?_
  split <;> simp

@[simp] theorem containAwg_keepsClock (n : Nat) : KeepsClock s (containAwg s n) := by simp [containAwg]

@[simp] theorem refreshRoute_keepsClock (n : Nat) : KeepsClock s (refreshRoute s n) := by simp [refreshRoute]

@[simp] theorem refreshDie_keepsClock (d : Nat) : KeepsClock s (refreshDie s d) := by simp [refreshDie]

@[simp] theorem refreshRoutes_keepsClock : KeepsClock s (refreshRoutes s) := by simp [refreshRoutes]

/-! ### History, sites and stamps (18 R420; 06 R124; 07 R152 to R160) -/

@[simp] theorem record_keepsClock (src d k c o m r : Nat) (cause : BitVec 64) :
    KeepsClock s (record s src d k c o m r cause) := by
  simp [record]

@[simp] theorem faultSite_keepsClock (i id v : Nat) : KeepsClock s (faultSite s i id v) := by simp [faultSite, maskSite]

@[simp] theorem faultSectorSites_keepsClock (n : Nat) : KeepsClock s (faultSectorSites s n) := by
  unfold faultSectorSites
  split <;> simp

@[simp] theorem loseStamp_keepsClock (n : Nat) (r : Stamp) : KeepsClock s (loseStamp s n r) := by
  unfold loseStamp
  split <;> simp [notice0]

@[simp] theorem queueStamp_keepsClock (n : Nat) (r : Stamp) : KeepsClock s (queueStamp s n r) := by simp [queueStamp]

@[simp] theorem closeRecords_keepsClock (n g o t : Nat) (unc last cut : Bool) :
    KeepsClock s (closeRecords s n g o t unc last cut) := by
  simp [closeRecords]

@[simp] theorem endArming_keepsClock (n g st : Nat) : KeepsClock s (endArming s n g st) := by
  unfold endArming
  dsimp only
  split <;> simp

@[simp] theorem endArmings_keepsClock (n : Nat) : KeepsClock s (endArmings s n) := by simp [endArmings]

/-! ### Bursts (06 R109, R123) -/

@[simp] theorem idleChannels_keepsClock (n : Nat) : KeepsClock s (idleChannels s n) := by simp [idleChannels, State.setChan]

@[simp] theorem landJump_keepsClock (id : Nat) (step : Int) : KeepsClock s (landJump s id step) := by
  unfold landJump
  split <;> simp

@[simp] theorem dropJump_keepsClock (id : Nat) : KeepsClock s (dropJump s id) := by
  unfold dropJump
  split
  · dsimp only
    split <;> simp
  · simp

@[simp] theorem returnBudget_keepsClock (b : Burst) : KeepsClock s (returnBudget s b) := by simp [returnBudget]

@[simp] theorem completeBurst_keepsClock (id : Nat) : KeepsClock s (completeBurst s id) := by
  unfold completeBurst
  split <;> simp

@[simp] theorem holdSector_keepsClock (n : Nat) : KeepsClock s (holdSector s n) := by
  unfold holdSector
  split
  · simp
  · split <;> simp [setEnding]

@[simp] theorem clearTu_keepsClock (u : Nat) : KeepsClock s (clearTu s u) := by simp [clearTu]

@[simp] theorem clearTuSource_keepsClock (n c : Nat) : KeepsClock s (clearTuSource s n c) := by simp [clearTuSource]

@[simp] theorem containSector_keepsClock (n : Nat) : KeepsClock s (containSector s n) := by
  simp [containSector, freezeAlive, State.updAlive]

/-! ### Parametric units (08) and writes to DDR5 (21 R469, R471) -/

@[simp] theorem countCorrected_keepsClock (l n : Nat) : KeepsClock s (countCorrected s l n) := by simp [countCorrected]

@[simp] theorem correctRead_keepsClock (a n : Nat) : KeepsClock s (correctRead s a n) := by simp [correctRead]

@[simp] theorem meetBeat_keepsClock (b : Nat) : KeepsClock s (meetBeat s b) := by simp [meetBeat]

@[simp] theorem rmwWrite_keepsClock (a : Nat) (bs : List Byte) : KeepsClock s (rmwWrite s a bs).1 := by
  simp [rmwWrite, meetModify, apply_ite Prod.fst]

@[simp] theorem pumpPmu_keepsClock (id n : Nat) : KeepsClock s (pumpPmu s id n) := by
  induction n generalizing s with
  | zero => simp [pumpPmu]
  | succ n ih =>
    unfold pumpPmu
    split
    · simp
    · dsimp only
      split
      · simp [ih, State.updRun]
      · split <;> simp [ih, State.updRun]
      · simp

@[simp] theorem completeRun_keepsClock (id st : Nat) : KeepsClock s (completeRun s id st) := by
  unfold completeRun
  split <;> simp

@[simp] theorem finishRun_keepsClock (id : Nat) : KeepsClock s (finishRun s id) := by
  unfold finishRun
  split <;> simp

@[simp] theorem scanGo_keepsClock (lg : Nat) : KeepsClock s (scanGo s lg) := by simp [scanGo]

@[simp] theorem setResult_keepsClock (id i : Nat) (w : Word) : KeepsClock s (setResult s id i w) := by
  unfold setResult
  split
  · simp
  · dsimp only
    split <;> split <;> simp [State.updRun]

@[simp] theorem leaveItem_keepsClock (lg : Nat) (direct : Bool) : KeepsClock s (leaveItem s lg direct) := by
  unfold leaveItem
  split <;> simp [forceChan]

@[simp] theorem cutItem_keepsClock (lg bit : Nat) : KeepsClock s (cutItem s lg bit) := by
  unfold cutItem
  split <;> simp

/-! ### Channels, digitizers and synthesizers that are contained (18 R405) -/

@[simp] theorem holdChan_keepsClock (n : Nat) (st : ChanSt) : KeepsClock s (holdChan s n st) := by simp [holdChan]

@[simp] theorem containChan_keepsClock (n : Nat) : KeepsClock s (containChan s n) := by
  unfold containChan
  dsimp only
  split
  · simp
  · split <;> simp

@[simp] theorem containChans_keepsClock (d : Nat) : KeepsClock s (containChans s d) := by
  unfold containChans
  refine KeepsClock.trans (forEach_keepsClock _ _ _ fun lg t => ?_)
    (forEach_keepsClock _ _ _ fun n t => containChan_keepsClock t n)
  split <;> simp

@[simp] theorem containDig_keepsClock (n : Nat) : KeepsClock s (containDig s n) :=
  (clearTuSource_keepsClock ..).trans ((clearTuSource_keepsClock ..).trans (updDig_keepsClock ..))

@[simp] theorem containDcs_keepsClock (n : Nat) : KeepsClock s (containDcs s n) := by simp [containDcs]

@[simp] theorem takeSnap_keepsClock (d : Nat) : KeepsClock s (takeSnap s d) := by simp [takeSnap]

@[simp] theorem containDevice_keepsClock : KeepsClock s (containDevice s) := by simp [containDevice]

/-! ### Engines (12 R277 to R282) -/

@[simp] theorem stageEngBlock_keepsClock (e p : Nat) (last : Bool) : KeepsClock s (stageEngBlock s e p last) := by
  simp [stageEngBlock, State.updOut]

@[simp] theorem placeWord_keepsClock (e p : Nat) : KeepsClock s (placeWord s e p).1 := by
  unfold placeWord
  dsimp only
  split
  · simp
  · split
    · simp [apply_ite Prod.fst, State.updOut]
    · simp [apply_ite Prod.fst, State.updOut]
    · split <;> simp [apply_ite Prod.fst, State.updOut]
    · simp [State.updOut]

@[simp] theorem drainOut_keepsClock (e p n : Nat) : KeepsClock s (drainOut s e p n) := by
  induction n generalizing s with
  | zero => simp [drainOut]
  | succ n ih =>
    have hp := placeWord_keepsClock s e p
    unfold drainOut
    split
    · rename_i h
      rw [h] at hp
      exact hp.trans (ih _)
    · rename_i h
      rwa [h] at hp

@[simp] theorem releaseOuts_keepsClock (e : Nat) : KeepsClock s (releaseOuts s e) := by
  refine forEach_keepsClock _ _ _ fun p t => ?_
  dsimp only
  split <;> simp

@[simp] theorem unbindEng_keepsClock (e : Nat) : KeepsClock s (unbindEng s e) := by simp [unbindEng]

@[simp] theorem endEng_keepsClock (e st : Nat) (k : EngSt) : KeepsClock s (endEng s e st k) := by
  unfold endEng
  dsimp only
  split <;> simp [closeConsumers]

@[simp] theorem tryFinishEng_keepsClock (e : Nat) : KeepsClock s (tryFinishEng s e) := by
  unfold tryFinishEng
  dsimp only
  split <;> simp [drainOuts]

@[simp] theorem containEng_keepsClock (e : Nat) : KeepsClock s (containEng s e) := by simp [containEng]

/-! ### Containment, HALTED and SHUTDOWN (18 R405, R409, R410) -/

@[simp] theorem oweTraps_keepsClock (d : Nat) : KeepsClock s (oweTraps s d) := by
  refine forEach_keepsClock _ _ _ fun c t => ?_
  split
  · split <;> simp
  · simp

@[simp] theorem contain_keepsClock (d : Nat) : KeepsClock s (contain s d) := by simp [contain]

@[simp] theorem setPhase_keepsClock (p : Phase) : KeepsClock s (setPhase s p) := by simp [setPhase]

@[simp] theorem freeWord_keepsClock : KeepsClock s (freeWord s).2 := ⟨rfl, rfl, rfl, rfl, rfl⟩

@[simp] theorem setChecking_keepsClock (k n : Nat) (b : Bool) : KeepsClock s (setChecking s k n b) := by
  unfold setChecking
  split <;> simp

@[simp] theorem endCheck_keepsClock (g : Nat) : KeepsClock s (endCheck s g) := by
  unfold endCheck
  split <;> simp

@[simp] theorem leaveItems_keepsClock (id : Nat) (sl : Slot) (k : Nat) : KeepsClock s (leaveItems s id sl k) := by
  unfold leaveItems
  split
  · exact forEach_keepsClock _ _ _ fun i t => updSec_keepsClock ..
  · simp [mapSites, cancelWatch]

@[simp] theorem killRoutines_keepsClock : KeepsClock s (killRoutines s) := by
  refine forEach_keepsClock _ _ _ fun id t => ?_
  split <;> simp

@[simp] theorem dropBar_keepsClock : KeepsClock s (dropBar s) := by simp [dropBar, barEvent]

@[simp] theorem powerDown_keepsClock : KeepsClock s (powerDown s) := by simp [powerDown]

@[simp] theorem isolate_keepsClock (d : Nat) : KeepsClock s (isolate s d) := by simp [isolate]

@[simp] theorem enterStopped_keepsClock (p : Phase) : KeepsClock s (enterStopped s p) := by
  unfold enterStopped
  extract_lets _ start held cut killed told reopened last
  have hstart : KeepsClock s start := by simp [start]
  have hheld : KeepsClock start held := contain_keepsClock ..
  have hcut : KeepsClock held cut := by
    refine forEach_keepsClock _ _ _ fun id t => ?_
    split <;> simp
  have hkilled : KeepsClock cut killed := (auxStop_keepsClock ..).trans (killRoutines_keepsClock ..)
  have htold : KeepsClock killed told := by
    refine forEach_keepsClock _ _ _ fun id t => ?_
    split <;> simp
  have hlast : KeepsClock told last := by simp [last, reopened, reopenSet]
  exact hstart.trans (hheld.trans (hcut.trans (hkilled.trans (htold.trans hlast))))

/-! ### Faults (18 R411, R415 to R417) -/

@[simp] theorem putRec_keepsClock (d : Nat) (r : Recovery) : KeepsClock s (putRec s d r) := by simp [putRec]

@[simp] theorem startQueued_keepsClock : KeepsClock s (startQueued s) := by simp [startQueued]

@[simp] theorem openRecovery_keepsClock (d bit src data : Nat) : KeepsClock s (openRecovery s d bit src data) := by
  simp [openRecovery]

@[simp] theorem widen_keepsClock (r : Recovery) (d bit src : Nat) (data : Option Nat) :
    KeepsClock s (widen s r d bit src data).1 := by
  simp [widen]

@[simp] theorem mergeFault_keepsClock (r : Recovery) (d bit src data : Nat) :
    KeepsClock s (mergeFault s r d bit src data) := by
  simp [mergeFault, apply_ite Prod.fst]

@[simp] theorem raiseWith_keepsClock (d bit src data : Nat) : KeepsClock s (raiseWith s d bit src data) := by
  unfold raiseWith
  dsimp only
  split
  · simp
  · split
    · simp
    · simp
    · split <;> simp
    · simp

@[simp] theorem raiseOwed_keepsClock : KeepsClock s (raiseOwed s) := by simp [raiseOwed, raiseFault]

/-! ### The tick (02 R32; log entry 2) -/

/-- An idle tick moves the clock as `tickOnce` does, whatever else falls due in it. -/
theorem idleTick_keepsClock : KeepsClock (tickOnce s) (idleTick s) := by
  have before : KeepsClock s (ownLines (raiseOwed s)) := (raiseOwed_keepsClock s).trans (ownLines_keepsClock _)
  refine before.tickOnce.trans ?_
  simp [idleTick, keepCounters]

end

/-- An idle tick of a running device advances the sweep by its tick's step. -/
theorem idleTick_sweep {s : State} (hrun : s.running = true) : (idleTick s).sweep = sweepTick s.sweep := by
  obtain ⟨-, -, -, hsweep, -⟩ := idleTick_keepsClock s
  simp [hsweep, tickOnce, hrun]

theorem step_of_pending_nil {s : State} (h : s.pending = []) : step s = .next (idleTick s) := by simp [step, h]

/-- With nothing to hold it, a running sweep adds the whole fraction units of its rate, and the rest stays in the accumulator. -/
theorem sweepTick_of_free {x : Sweep} (hst : x.st = .running) (hlimit : x.limit = none) (hhold : x.holdFor = none) :
    sweepTick x = { x with pos := x.pos + BitVec.ofNat 64 ((x.acc + x.rate) / 256), acc := (x.acc + x.rate) % 256 } := by
  simp [sweepTick, hst, hlimit, hhold]

/-- Settles O15: the rate of TIME, 10,485,760 = 256 · 40,960, leaves the accumulator as it stood. -/
theorem timeSweepAdds40960 : Obligations.TimeSweepAdds40960 := by
  intro s hpending hrun hsource hst hrate hacc hlimit hhold
  have units : (s.sweep.acc + 10485760) / 256 = 40960 := by omega
  have rest : (s.sweep.acc + 10485760) % 256 = s.sweep.acc := by omega
  have hsweep := (idleTick_sweep hrun).trans (sweepTick_of_free hst hlimit hhold)
  rw [hrate, units, rest] at hsweep
  exact ⟨idleTick s, step_of_pending_nil hpending, by rw [hsweep]; rfl, by rw [hsweep], by rw [hsweep, hsource]⟩

/-! ### Positions (02 R26) -/

/-- The difference of R26 over the numbers of the two positions. -/
theorem ahead_eq (s p : Pos) : ahead s p = (p.toNat + 2 ^ 64 - s.toNat) % 2 ^ 64 := by
  rw [ahead, BitVec.toNat_sub]
  have := s.isLt
  congr 1
  omega

theorem ahead_eq_zero_iff (s p : Pos) : ahead s p = 0 ↔ p = s := by
  rw [ahead, ← BitVec.toNat_zero (w := 64), BitVec.toNat_inj, BitVec.sub_eq_iff_eq_add, BitVec.zero_add]

theorem isFuture_iff (s p : Pos) : isFuture s p = true ↔ 1 ≤ ahead s p ∧ ahead s p ≤ 2 ^ 63 - 1 := by
  rw [isFuture, Bool.and_eq_true, decide_eq_true_iff, decide_eq_true_iff]
  omega

theorem isPast_iff (s p : Pos) : isPast s p = true ↔ 2 ^ 63 ≤ ahead s p := by
  rw [isPast, decide_eq_true_iff]

/-- Settles O14: the three ranges are read off `ahead`. -/
theorem positionsCompare : Obligations.PositionsCompare := by
  intro s p
  rw [← ahead_eq]
  exact ⟨isFuture_iff s p, isPast_iff s p, ahead_eq_zero_iff s p⟩

end Sys2Proof.Machine
end

section
/-! SUPPORT. The codes of levels and load currents (03 R46, R47) and the entries of a channel page that show them (24 R505). -/

namespace Sys2Proof.Machine

open Sys2Proof

/-! ### Rounding to the nearest, ties to even (03 R46) -/

theorem nearestEven_roundDiv (n : Int) {d : Nat} (hd : 0 < d) : NearestEven n d (roundDiv n d) := by
  have parts : (d : Int) * (n / d) + n % d = n := Int.mul_ediv_add_emod n d
  have low : 0 ≤ n % d := Int.emod_nonneg n (by omega)
  have high : n % d < d := Int.emod_lt_of_pos n (by omega)
  have above : (d : Int) * (n / d + 1) = d * (n / d) + d := by rw [Int.mul_add, Int.mul_one]
  unfold NearestEven roundDiv
  dsimp only
  split
  · omega
  · split
    · rw [above]; omega
    · split
      · omega
      · rw [above]; omega

/-- Rounding to the nearest stays between whole bounds. -/
theorem NearestEven.between {num q a b : Int} {d : Nat} (h : NearestEven num d q) (hd : 0 < d) (hlow : d * a ≤ num)
    (hhigh : num ≤ d * b) : a ≤ q ∧ q ≤ b := by
  obtain ⟨near, -⟩ := h
  have step (x y : Int) (hxy : x + 1 ≤ y) : (d : Int) * x + d ≤ d * y := by
    have := Int.mul_le_mul_of_nonneg_left hxy (Int.natCast_nonneg d)
    rwa [Int.mul_add, Int.mul_one] at this
  constructor
  · refine Int.not_lt.mp fun below => ?_
    have := step q a below
    omega
  · refine Int.not_lt.mp fun above => ?_
    have := step b q above
    omega

/-! ### Entries of a channel page (24 R505) -/

theorem fromSigned_natCast {w n : Nat} (h : n < 2 ^ w) : fromSigned w n = n := by
  have cast : (n : Int) % 2 ^ w = ((n % 2 ^ w : Nat) : Int) := by rw [Int.natCast_emod, Int.natCast_pow]; rfl
  rw [fromSigned, cast, Int.toNat_natCast, Nat.mod_eq_of_lt h]

theorem fromSigned_lt (w : Nat) (i : Int) : fromSigned w i < 2 ^ w := by
  have positive : (0 : Int) < 2 ^ w := Int.pow_pos (by decide)
  have below := Int.emod_lt_of_pos i positive
  rw [fromSigned, Int.toNat_lt (Int.emod_nonneg i (Int.ne_of_gt positive)), Int.natCast_pow]
  exact below

/-- The fields of an entry do not overlap: the effective value stands in bits [31:0], the code from bit 32 up. -/
theorem effEntry_natCast (e : Int) {code : Nat} (h : code ≤ 65535) : effEntry e code = fromSigned 32 e + code * 2 ^ 32 := by
  have := fromSigned_lt 32 e
  rw [effEntry, s32, fromSigned_natCast (by omega : code < 2 ^ 16)]
  simp only [pack]
  omega

/-- An entry shows the nearest code of `num / den` and the nearest effective value of that code, when the code has 16 bits. -/
theorem effEntry_roundDiv {num : Int} {den : Nat} (hden : 0 < den) (hlow : 0 ≤ num) (hhigh : num ≤ den * 65535) (scale : Int → Int)
    {step : Nat} (hstep : 0 < step) :
    ∃ (code : Nat) (e : Int), code ≤ 65535 ∧ NearestEven num den code ∧ NearestEven (scale code) step e ∧
      effEntry (roundDiv (scale (roundDiv num den)) step) (roundDiv num den) = fromSigned 32 e + code * 2 ^ 32 := by
  have nearest := nearestEven_roundDiv num hden
  obtain ⟨nonneg, le⟩ := nearest.between hden (a := 0) (by omega) hhigh
  obtain ⟨code, hcode⟩ := Int.eq_ofNat_of_zero_le nonneg
  rw [hcode] at nearest le ⊢
  have le : code ≤ 65535 := by omega
  exact ⟨code, _, le, nearest, nearestEven_roundDiv _ hstep, effEntry_natCast _ le⟩

theorem levelEntry_nearest {v : Int} (hlow : -1500000 ≤ v) (hhigh : v ≤ 7000000) :
    ∃ (code : Nat) (e : Int), code ≤ 65535 ∧ NearestEven ((v + 1500000) * 7710) 1000000 code ∧
      NearestEven ((code : Int) * 1000000 - 1500000 * 7710) 7710 e ∧ levelEntry v = fromSigned 32 e + code * 2 ^ 32 :=
  effEntry_roundDiv (by decide) (by omega) (by omega) (fun code => code * 1000000 - 1500000 * 7710) (by decide)

theorem loadEntry_nearest {i : Int} (hlow : 0 ≤ i) (hhigh : i ≤ 24000000) :
    ∃ (code : Nat) (e : Int), code ≤ 65535 ∧ NearestEven (i * 65535) 24000000 code ∧
      NearestEven ((code : Int) * 24000000) 65535 e ∧ loadEntry i = fromSigned 32 e + code * 2 ^ 32 :=
  effEntry_roundDiv (by decide) (by omega) (by omega) (fun code => code * 24000000) (by decide)

/-! ### Channel pages (24 R501, R503) -/

/-- A channel page reflects the PE die of its channel (01 R1). -/
theorem pageDie_chn (n : Fin 512) {r : Nat} (hr : r < 0x1000) : pageDie (0x200000 + 0x1000 * n + r) = some (n.val / 128) := by
  have := n.isLt
  have die : (0x200000 + 0x1000 * n.val + r - 0x200000) / 0x80000 = n.val / 128 := by omega
  simp only [pageDie, Bool.and_eq_true, decide_eq_true_eq]
  rw [if_neg (by omega), if_pos (by omega), die]

/-- A page that is not stale reflects the present state. -/
theorem pageState_of_not_stale {s : State} {off : Nat} (h : pageStale s off = false) : pageState s off = s := by
  unfold pageStale at h
  unfold pageState
  cases hdie : pageDie off with
  | none => rfl
  | some d =>
    simp only [hdie] at h
    simp [h]

/-- Every offset of a channel page is as stale as the page's first. -/
theorem pageStale_chn (s : State) (n : Fin 512) {r : Nat} (hr : r < 0x1000) :
    pageStale s (0x200000 + 0x1000 * n + r) = pageStale s (0x200000 + 0x1000 * n) := by
  have first := pageDie_chn n (r := 0) (by decide)
  rw [Nat.add_zero] at first
  rw [pageStale, pageStale, pageDie_chn n hr, first]

/-- Offset r of the page of channel n is read from the present state, on either path, when the page is not stale. -/
theorem regRead_chn {s : State} {n : Fin 512} (path : Path) (fresh : pageStale s (0x200000 + 0x1000 * n) = false) {r : Nat}
    (hr : r < 0x1000) : regRead s path (0x200000 + 0x1000 * n + r) = chnRead s n r false := by
  have := n.isLt
  have stale := (pageStale_chn s n hr).trans fresh
  have page : (0x200000 + 0x1000 * n.val + r - 0x200000) / 0x1000 = n := by omega
  have offset : (0x200000 + 0x1000 * n.val + r) % 0x1000 = r := by omega
  simp only [regRead, pageState_of_not_stale stale, stale]
  rw [if_neg (by omega), if_neg (by omega), if_pos (by omega), page, offset]

/-- The levels of a channel page: VIH, VIL, VTT, VOH, VOL and VCOM. -/
theorem chnRead_level (s : State) (n : Nat) (stale : Bool) :
    ∀ p ∈ [(2, 0x10), (3, 0x18), (4, 0x20), (5, 0x28), (6, 0x30), (0x0A, 0x38)],
      p.2 < 0x1000 ∧ chnRead s n p.2 stale = some (levelEntry (s.setting 1 n p.1)) := by
  simp only [List.forall_mem_cons]
  exact ⟨⟨by decide, rfl⟩, ⟨by decide, rfl⟩, ⟨by decide, rfl⟩, ⟨by decide, rfl⟩, ⟨by decide, rfl⟩, ⟨by decide, rfl⟩,
    List.forall_mem_nil _⟩

/-- The load currents of a channel page: IOH and IOL. -/
theorem chnRead_load (s : State) (n : Nat) (stale : Bool) :
    ∀ p ∈ [(8, 0x40), (9, 0x48)],
      p.2 < 0x1000 ∧ chnRead s n p.2 stale = some (loadEntry (s.setting 1 n p.1)) := by
  simp only [List.forall_mem_cons]
  exact ⟨⟨by decide, rfl⟩, ⟨by decide, rfl⟩, List.forall_mem_nil _⟩

/-- Settles O18: an entry of a fresh page is read from the applied image, and its code and effective value are rounded to the
nearest. -/
theorem levelsAreHeldAsCodes : Obligations.LevelsAreHeldAsCodes := by
  intro s path n fresh
  constructor
  · intro p hp v hlow hhigh
    obtain ⟨hr, read⟩ := chnRead_level s n false p hp
    rw [regRead_chn path fresh hr, read]
    simpa only [Option.some.injEq] using levelEntry_nearest hlow hhigh
  · intro p hp i hlow hhigh
    obtain ⟨hr, read⟩ := chnRead_load s n false p hp
    rw [regRead_chn path fresh hr, read]
    simpa only [Option.some.injEq] using loadEntry_nearest hlow hhigh

end Sys2Proof.Machine
end
